-- ==== Sys2Proof/Word.lean ====
section
/-! DEFINITION. The words of the KX6 and the plain containers of the model (R3, R44, R46). -/
namespace Sys2Proof

/-- A 32-bit register, memory word or instruction word. -/
abbrev Word := BitVec 32
/-- A 64-bit value: an even-odd register pair, an address, a `y` position (R44). -/
abbrev DWord := BitVec 64
/-- The smallest addressable unit of every memory. -/
abbrev Byte := BitVec 8
/-- One bit per lane of a warp, bit l for lane l (R3). -/
abbrev LaneMask := BitVec 32
/-- One value per lane of a warp. -/
abbrev Lanes (α : Type) := Vector α 32
/-- A set of lanes: the lanes that issue a word, the lanes of `active`, a predicate register. -/
abbrev LaneSet := Vector Bool 32
/-- A sparse table: keys strictly rising; what an unlisted key holds is said where the table is used. -/
abbrev SMap (α : Type) := List (Nat × α)
/-- A sparse memory: (address, byte) cells, addresses strictly rising, no zero byte listed. -/
abbrev Memory := List (Nat × BitVec 8)
/-- A register file of 32-lane rows, keyed by register number. -/
abbrev Rows := SMap (Lanes Word)

end Sys2Proof
end

