-- ==== Sys2Proof/Syntax.lean ====
section
/-! DEFINITION. The steps of the part as syntax: one constructor per row of the table of operations and events
(opcode_table.json). The first group are the instruction words of R100 to R122; the second are the steps other
agents take: the pipelines' own bookkeeping, the engines, the fabric, the host, the driver's register writes. -/
namespace Sys2Proof

/-- A near-operand selector (R110): `q`, `y`, `s0`-`s7`, or one of the four constants of R111. -/
inductive Near where
  | q (n : Fin 16)
  | y (n : Fin 4)
  | s (n : Fin 8)
  | k (n : Fin 4)
deriving DecidableEq, Repr

/-- The header of a word (R100, R101): chain bit, guard (predicate and sense, `none` for E = 0), stall count. -/
structure Hdr where
  c : Bool
  guard : Option (Fin 16 × Bool)
  w : Fin 4
deriving DecidableEq, Repr

/-- Why a word is not a legal instruction (R123). -/
inductive IllegalKind where
  | instruction | operand | pairing
deriving DecidableEq, Repr

/-- Why a packet fetch traps (R105, R402). -/
inductive FetchFaultKind where
  | absent | notExecutable | malformed | badAddress
deriving DecidableEq, Repr

/-- What the host's completion of a host-MMIO load carries (R91); `none` for a load of any other target. -/
inductive Completion where
  | none
  | ok (values : List DWord)
  | error
deriving DecidableEq, Repr

/-- A line or granule of a read or write set (R321): a 128-byte device line, a 128-byte host line, or a 32-byte
granule of core `core`'s scratchpad. -/
inductive Gran where
  | line (n : Nat)
  | host (n : Nat)
  | scratch (core n : Nat)
deriving DecidableEq, Repr

/-- The lulls of a device (R282, R283, R300). -/
inductive LullId where
  | core (c : Nat)
  | slice (i : Nat)
  | ectal (s : Nat)
  | port (p : Nat)
deriving DecidableEq, Repr

/-- A core's request to a home slice (R413). -/
inductive DirReq where
  | read | write | atomic | evict
deriving DecidableEq, Repr

/-- A remote device's request to a page (R417). -/
inductive PageReq where
  | read | write | atomic
deriving DecidableEq, Repr

/-- A flit of a Dallixa link (R338): header fields, the 224 payload bytes, and, of one that arrives, the encrypted payload and the tag that
stood for them on the link. -/
structure Flit where
  kind : Nat
  src : Nat
  dst : Nat
  relay : Bool
  slot : Bool
  cls : Nat
  ctr : Nat
  spec : BitVec 80
  payload : List Byte
  body : List Byte := []
  tag : List Byte := []
deriving DecidableEq, Repr

/-- A host CXL.mem request for one 64-byte sector (R424). -/
inductive HostMemOp where
  | readCurrent
  | readShared
  | readOwn
  | inv
  | write (data : List Byte)
deriving DecidableEq, Repr

/-- A host snoop (R421, R423). -/
inductive Snoop where
  | data | inv | cur
deriving DecidableEq, Repr

/-- The CXL state a response grants (R423). -/
inductive CxlState where
  | i | s | e | m
deriving DecidableEq, Repr

/-- An Ultra Ethernet packet of a plan (R315): one kind-0 payload or one kind-1 lull entry. -/
structure UePacket where
  planid : Word
  tag : Word
  isWrite : Bool
  namesPlan : Bool
  sig : Nat
  doff : Nat
  label : Word
  present : Word
  data : List Byte
deriving DecidableEq, Repr

/-- A pre-copy record as received (R443): header fields, encrypted payload, tag. -/
structure PrecopyRecord where
  version : Nat
  pass : Word
  ctr : DWord
  range : Fin 4
  offset : DWord
  payload : List Byte
  tag : List Byte
deriving DecidableEq, Repr

/-- A detected soft error (R449, R450) and the unit, address, warp or object it hits. -/
structure SoftError where
  struct : Nat
  corrected : Bool
  action : Nat
  pa : DWord
  ctx : Nat
  unit : Nat
  warp : Option (Nat × Nat)
  window : Nat
  object : Option Nat
deriving DecidableEq, Repr

/-- An SPDM or IDE_KM message over DOE (R421, R432, R435). -/
inductive DoeMsg where
  | session (authentic : Bool)
  | wrapKey (kek : BitVec 256)
  | ideStream (link : Bool) (up : Bool)
deriving DecidableEq, Repr

/-- The sources of a snapshot trigger, numbered as R438's src field. -/
inductive SnapSource where
  | snap | host | softError | alarm | doubleFault | linkDown
deriving DecidableEq, Repr

/-- One constructor per row of the table of operations and events. -/
inductive Instr where
  /-- `FADD.f32` (R159). -/
  | faddF32 (h : Hdr) (d : Near) (a : Near) (b : Near)
  /-- `FSUB.f32` (R159). -/
  | fsubF32 (h : Hdr) (d : Near) (a : Near) (b : Near)
  /-- `FMUL.f32` (R159). -/
  | fmulF32 (h : Hdr) (d : Near) (a : Near) (b : Near)
  /-- `FFMA.f32` (R159). -/
  | ffmaF32 (h : Hdr) (d : Near) (a : Near) (b : Near)
  /-- `FMIN.f32` (R160). -/
  | fminF32 (h : Hdr) (d : Near) (a : Near) (b : Near)
  /-- `FMAX.f32` (R160). -/
  | fmaxF32 (h : Hdr) (d : Near) (a : Near) (b : Near)
  /-- `FABS.f32` (R161). -/
  | fabsF32 (h : Hdr) (d : Near) (a : Near)
  /-- `FNEG.f32` (R161). -/
  | fnegF32 (h : Hdr) (d : Near) (a : Near)
  /-- `FRND.f32` (R163). -/
  | frndF32 (h : Hdr) (d : Near) (a : Near) (b : Near)
  /-- `FSCALE.f32` (R162). -/
  | fscaleF32 (h : Hdr) (d : Near) (a : Near) (b : Near)
  /-- `FRCP.f32` (R51). -/
  | frcpF32 (h : Hdr) (d : Near) (a : Near)
  /-- `FRSQ.f32` (R51). -/
  | frsqF32 (h : Hdr) (d : Near) (a : Near)
  /-- `FSQRT.f32` (R51). -/
  | fsqrtF32 (h : Hdr) (d : Near) (a : Near)
  /-- `FEX2.f32` (R51). -/
  | fex2F32 (h : Hdr) (d : Near) (a : Near)
  /-- `FLG2.f32` (R51). -/
  | flg2F32 (h : Hdr) (d : Near) (a : Near)
  /-- `FCLASS.f32` (R164). -/
  | fclassF32 (h : Hdr) (d : Near) (a : Near)
  /-- `FADD.f16x2` (R165). -/
  | faddF16x2 (h : Hdr) (d : Near) (a : Near) (b : Near)
  /-- `FSUB.f16x2` (R165). -/
  | fsubF16x2 (h : Hdr) (d : Near) (a : Near) (b : Near)
  /-- `FMUL.f16x2` (R165). -/
  | fmulF16x2 (h : Hdr) (d : Near) (a : Near) (b : Near)
  /-- `FFMA.f16x2` (R165). -/
  | ffmaF16x2 (h : Hdr) (d : Near) (a : Near) (b : Near)
  /-- `FMIN.f16x2` (R165). -/
  | fminF16x2 (h : Hdr) (d : Near) (a : Near) (b : Near)
  /-- `FMAX.f16x2` (R165). -/
  | fmaxF16x2 (h : Hdr) (d : Near) (a : Near) (b : Near)
  /-- `FDOT2.f16x2` (R166). -/
  | fdot2F16x2 (h : Hdr) (d : Near) (a : Near) (b : Near)
  /-- `FADD.bf16x2` (R165). -/
  | faddBf16x2 (h : Hdr) (d : Near) (a : Near) (b : Near)
  /-- `FSUB.bf16x2` (R165). -/
  | fsubBf16x2 (h : Hdr) (d : Near) (a : Near) (b : Near)
  /-- `FMUL.bf16x2` (R165). -/
  | fmulBf16x2 (h : Hdr) (d : Near) (a : Near) (b : Near)
  /-- `FFMA.bf16x2` (R165). -/
  | ffmaBf16x2 (h : Hdr) (d : Near) (a : Near) (b : Near)
  /-- `FMIN.bf16x2` (R165). -/
  | fminBf16x2 (h : Hdr) (d : Near) (a : Near) (b : Near)
  /-- `FMAX.bf16x2` (R165). -/
  | fmaxBf16x2 (h : Hdr) (d : Near) (a : Near) (b : Near)
  /-- `FDOT2.bf16x2` (R166). -/
  | fdot2Bf16x2 (h : Hdr) (d : Near) (a : Near) (b : Near)
  /-- `FADD.f64` (R167). -/
  | faddF64 (h : Hdr) (d : Near) (a : Near) (b : Near)
  /-- `FSUB.f64` (R167). -/
  | fsubF64 (h : Hdr) (d : Near) (a : Near) (b : Near)
  /-- `FMUL.f64` (R167). -/
  | fmulF64 (h : Hdr) (d : Near) (a : Near) (b : Near)
  /-- `FFMA.f64` (R167). -/
  | ffmaF64 (h : Hdr) (d : Near) (a : Near) (b : Near)
  /-- `FMIN.f64` (R167). -/
  | fminF64 (h : Hdr) (d : Near) (a : Near) (b : Near)
  /-- `FMAX.f64` (R167). -/
  | fmaxF64 (h : Hdr) (d : Near) (a : Near) (b : Near)
  /-- `FCMP.lt.f64` (R145). -/
  | fcmpLtF64 (h : Hdr) (acc : Bool) (pd : Fin 16) (a : Near) (b : Near)
  /-- `FCMP.eq.f64` (R145). -/
  | fcmpEqF64 (h : Hdr) (acc : Bool) (pd : Fin 16) (a : Near) (b : Near)
  /-- `FCVT.rt.st.mode` (R169). -/
  | fcvt (h : Hdr) (d : Near) (a : Near) (code : Fin 32)
  /-- `FCVTD.rt.st` (R170). -/
  | fcvtd (h : Hdr) (d : Near) (a : Near) (code : Fin 32)
  /-- `CPY` (R219). -/
  | cpy (h : Hdr) (d : Near) (a : Near) (b : Near)
  /-- `GATH` (R220). -/
  | gath (h : Hdr) (d : Near) (a : Near) (b : Near)
  /-- `SCAT` (R220). -/
  | scat (h : Hdr) (d : Near) (a : Near) (b : Near)
  /-- `CPYM` (R221). -/
  | cpym (h : Hdr) (d : Near) (a : Near) (b : Near)
  /-- `XFER` (R242). -/
  | xfer (h : Hdr) (d : Near)
  /-- `XMC` (R243). -/
  | xmc (h : Hdr) (d : Near)
  /-- `FCMP.eq.f32` (R145). -/
  | fcmpEqF32 (h : Hdr) (acc : Bool) (pd : Fin 16) (a : Near) (b : Near)
  /-- `FCMP.ne.f32` (R145). -/
  | fcmpNeF32 (h : Hdr) (acc : Bool) (pd : Fin 16) (a : Near) (b : Near)
  /-- `FCMP.lt.f32` (R145). -/
  | fcmpLtF32 (h : Hdr) (acc : Bool) (pd : Fin 16) (a : Near) (b : Near)
  /-- `FCMP.le.f32` (R145). -/
  | fcmpLeF32 (h : Hdr) (acc : Bool) (pd : Fin 16) (a : Near) (b : Near)
  /-- `FCMP.gt.f32` (R145). -/
  | fcmpGtF32 (h : Hdr) (acc : Bool) (pd : Fin 16) (a : Near) (b : Near)
  /-- `FCMP.ge.f32` (R145). -/
  | fcmpGeF32 (h : Hdr) (acc : Bool) (pd : Fin 16) (a : Near) (b : Near)
  /-- `ICMP.eq.i32` (R145). -/
  | icmpEqI32 (h : Hdr) (acc : Bool) (pd : Fin 16) (a : Near) (b : Near)
  /-- `ICMP.ne.i32` (R145). -/
  | icmpNeI32 (h : Hdr) (acc : Bool) (pd : Fin 16) (a : Near) (b : Near)
  /-- `ICMP.lt.i32` (R145). -/
  | icmpLtI32 (h : Hdr) (acc : Bool) (pd : Fin 16) (a : Near) (b : Near)
  /-- `ICMP.le.i32` (R145). -/
  | icmpLeI32 (h : Hdr) (acc : Bool) (pd : Fin 16) (a : Near) (b : Near)
  /-- `ICMP.gt.i32` (R145). -/
  | icmpGtI32 (h : Hdr) (acc : Bool) (pd : Fin 16) (a : Near) (b : Near)
  /-- `ICMP.ge.i32` (R145). -/
  | icmpGeI32 (h : Hdr) (acc : Bool) (pd : Fin 16) (a : Near) (b : Near)
  /-- `ICMP.lt.n32` (R145). -/
  | icmpLtN32 (h : Hdr) (acc : Bool) (pd : Fin 16) (a : Near) (b : Near)
  /-- `ICMP.le.n32` (R145). -/
  | icmpLeN32 (h : Hdr) (acc : Bool) (pd : Fin 16) (a : Near) (b : Near)
  /-- `ICMP.gt.n32` (R145). -/
  | icmpGtN32 (h : Hdr) (acc : Bool) (pd : Fin 16) (a : Near) (b : Near)
  /-- `ICMP.ge.n32` (R145). -/
  | icmpGeN32 (h : Hdr) (acc : Bool) (pd : Fin 16) (a : Near) (b : Near)
  /-- `IADD` (R149). -/
  | iadd (h : Hdr) (d : Near) (a : Near) (b : Near)
  /-- `ISUB` (R149). -/
  | isub (h : Hdr) (d : Near) (a : Near) (b : Near)
  /-- `IMUL` (R149). -/
  | imul (h : Hdr) (d : Near) (a : Near) (b : Near)
  /-- `IMULH.i32` (R149). -/
  | imulhI32 (h : Hdr) (d : Near) (a : Near) (b : Near)
  /-- `IMULH.n32` (R149). -/
  | imulhN32 (h : Hdr) (d : Near) (a : Near) (b : Near)
  /-- `IMAD` (R149). -/
  | imad (h : Hdr) (d : Near) (a : Near) (b : Near)
  /-- `IMIN.i32` (R149). -/
  | iminI32 (h : Hdr) (d : Near) (a : Near) (b : Near)
  /-- `IMIN.n32` (R149). -/
  | iminN32 (h : Hdr) (d : Near) (a : Near) (b : Near)
  /-- `IMAX.i32` (R149). -/
  | imaxI32 (h : Hdr) (d : Near) (a : Near) (b : Near)
  /-- `IMAX.n32` (R149). -/
  | imaxN32 (h : Hdr) (d : Near) (a : Near) (b : Near)
  /-- `IABS` (R149). -/
  | iabs (h : Hdr) (d : Near) (a : Near)
  /-- `AND` (R149). -/
  | and (h : Hdr) (d : Near) (a : Near) (b : Near)
  /-- `OR` (R149). -/
  | or (h : Hdr) (d : Near) (a : Near) (b : Near)
  /-- `XOR` (R149). -/
  | xor (h : Hdr) (d : Near) (a : Near) (b : Near)
  /-- `ANDN` (R149). -/
  | andn (h : Hdr) (d : Near) (a : Near) (b : Near)
  /-- `SHL` (R149). -/
  | shl (h : Hdr) (d : Near) (a : Near) (b : Near)
  /-- `SHR` (R149). -/
  | shr (h : Hdr) (d : Near) (a : Near) (b : Near)
  /-- `SAR` (R149). -/
  | sar (h : Hdr) (d : Near) (a : Near) (b : Near)
  /-- `ROTL` (R149). -/
  | rotl (h : Hdr) (d : Near) (a : Near) (b : Near)
  /-- `BFE` (R151). -/
  | bfe (h : Hdr) (d : Near) (a : Near) (b : Near)
  /-- `BFI` (R151). -/
  | bfi (h : Hdr) (d : Near) (a : Near) (b : Near)
  /-- `CLZ` (R150). -/
  | clz (h : Hdr) (d : Near) (a : Near)
  /-- `POPC` (R150). -/
  | popc (h : Hdr) (d : Near) (a : Near)
  /-- `BREV` (R150). -/
  | brev (h : Hdr) (d : Near) (a : Near)
  /-- `SEL` (R33). -/
  | sel (h : Hdr) (d : Near) (a : Near) (b : Near)
  /-- `MOV` (R147). -/
  | mov (h : Hdr) (d : Near) (a : Near)
  /-- `BMIX` (R152). -/
  | bmix (h : Hdr) (d : Near) (a : Near) (b : Near)
  /-- `LEA.s2` (R149). -/
  | leaS2 (h : Hdr) (d : Near) (a : Near) (b : Near)
  /-- `LEA.s3` (R149). -/
  | leaS3 (h : Hdr) (d : Near) (a : Near) (b : Near)
  /-- `IADD64` (R149). -/
  | iadd64 (h : Hdr) (d : Near) (a : Near) (b : Near)
  /-- `SATADD.i32` (R171). -/
  | sataddI32 (h : Hdr) (d : Near) (a : Near) (b : Near)
  /-- `SATSUB.i32` (R171). -/
  | satsubI32 (h : Hdr) (d : Near) (a : Near) (b : Near)
  /-- `IADD.i16x2` (R171). -/
  | iaddI16x2 (h : Hdr) (d : Near) (a : Near) (b : Near)
  /-- `ISUB.i16x2` (R171). -/
  | isubI16x2 (h : Hdr) (d : Near) (a : Near) (b : Near)
  /-- `IMIN.i16x2` (R171). -/
  | iminI16x2 (h : Hdr) (d : Near) (a : Near) (b : Near)
  /-- `IMAX.i16x2` (R171). -/
  | imaxI16x2 (h : Hdr) (d : Near) (a : Near) (b : Near)
  /-- `PDOT2.i16x2` (R171). -/
  | pdot2I16x2 (h : Hdr) (d : Near) (a : Near) (b : Near)
  /-- `PDOT2S.i16x2` (R171). -/
  | pdot2sI16x2 (h : Hdr) (d : Near) (a : Near) (b : Near)
  /-- `PDOT4.i8x4` (R171). -/
  | pdot4I8x4 (h : Hdr) (d : Near) (a : Near) (b : Near)
  /-- `PDOT4S.i8x4` (R171). -/
  | pdot4sI8x4 (h : Hdr) (d : Near) (a : Near) (b : Near)
  /-- `SHRR.i32` (R172). -/
  | shrrI32 (h : Hdr) (d : Near) (a : Near) (b : Near)
  /-- `SHRRS.i16` (R172). -/
  | shrrsI16 (h : Hdr) (d : Near) (a : Near) (b : Near)
  /-- `PACK.b16` (R171). -/
  | packB16 (h : Hdr) (d : Near) (a : Near) (b : Near)
  /-- `UNPKL.i16` (R171). -/
  | unpklI16 (h : Hdr) (d : Near) (a : Near)
  /-- `UNPKH.i16` (R171). -/
  | unpkhI16 (h : Hdr) (d : Near) (a : Near)
  /-- `SATADD.i16x2` (R171). -/
  | sataddI16x2 (h : Hdr) (d : Near) (a : Near) (b : Near)
  /-- `XLANE.get` (R174). -/
  | xlaneGet (h : Hdr) (d : Near) (a : Near) (b : Near)
  /-- `XLANE.shift` (R174). -/
  | xlaneShift (h : Hdr) (d : Near) (a : Near) (b : Near)
  /-- `XLANE.rot` (R174). -/
  | xlaneRot (h : Hdr) (d : Near) (a : Near) (b : Near)
  /-- `XLANE.bfly` (R174). -/
  | xlaneBfly (h : Hdr) (d : Near) (a : Near) (b : Near)
  /-- `PUSH` (R175). -/
  | push (h : Hdr) (d : Near) (a : Near) (b : Near)
  /-- `SLIDE.up` (R176). -/
  | slideUp (h : Hdr) (d : Near) (a : Near) (b : Near)
  /-- `SLIDE.down` (R176). -/
  | slideDown (h : Hdr) (d : Near) (a : Near) (b : Near)
  /-- `WRED.iadd` (R177). -/
  | wredIadd (h : Hdr) (d : Near) (a : Near)
  /-- `WRED.imin` (R177). -/
  | wredImin (h : Hdr) (d : Near) (a : Near)
  /-- `WRED.imax` (R177). -/
  | wredImax (h : Hdr) (d : Near) (a : Near)
  /-- `WRED.fadd` (R178). -/
  | wredFadd (h : Hdr) (d : Near) (a : Near)
  /-- `SCAN.iadd` (R177). -/
  | scanIadd (h : Hdr) (d : Near) (a : Near)
  /-- `PLOP.and` (R146). -/
  | plopAnd (h : Hdr) (pd : Fin 16) (pa : Fin 16) (pb : Fin 16)
  /-- `PLOP.or` (R146). -/
  | plopOr (h : Hdr) (pd : Fin 16) (pa : Fin 16) (pb : Fin 16)
  /-- `PLOP.xor` (R146). -/
  | plopXor (h : Hdr) (pd : Fin 16) (pa : Fin 16) (pb : Fin 16)
  /-- `PLOP.andn` (R146). -/
  | plopAndn (h : Hdr) (pd : Fin 16) (pa : Fin 16) (pb : Fin 16)
  /-- `GET` (R179). -/
  | get (h : Hdr) (v : Fin 128) (a : Near)
  /-- `PUT` (R179). -/
  | put (h : Hdr) (v : Fin 128) (a : Near)
  /-- `GET2` (R179). -/
  | get2 (h : Hdr) (v : Fin 128) (a : Near)
  /-- `PUT2` (R179). -/
  | put2 (h : Hdr) (v : Fin 128) (a : Near)
  /-- `VFMA.f32` (R179). -/
  | vfmaF32 (h : Hdr) (v : Fin 128) (a : Near) (b : Near)
  /-- `VADD.f32` (R179). -/
  | vaddF32 (h : Hdr) (v : Fin 128) (a : Near)
  /-- `VADD.i32` (R179). -/
  | vaddI32 (h : Hdr) (v : Fin 128) (a : Near)
  /-- `VSWAP` (R179). -/
  | vswap (h : Hdr) (v : Fin 128) (a : Near)
  /-- `LD.b32` (R183). -/
  | ldB32 (h : Hdr) (d : Near) (base : Near) (off : BitVec 6)
  /-- `LD.b64` (R183). -/
  | ldB64 (h : Hdr) (d : Near) (base : Near) (off : BitVec 6)
  /-- `LD.b128` (R183). -/
  | ldB128 (h : Hdr) (d : Near) (base : Near) (off : BitVec 6)
  /-- `LD.b16` (R183). -/
  | ldB16 (h : Hdr) (d : Near) (base : Near) (off : BitVec 6)
  /-- `LD.b8` (R183). -/
  | ldB8 (h : Hdr) (d : Near) (base : Near) (off : BitVec 6)
  /-- `ST.b32` (R183). -/
  | stB32 (h : Hdr) (d : Near) (base : Near) (off : BitVec 6)
  /-- `ST.b64` (R183). -/
  | stB64 (h : Hdr) (d : Near) (base : Near) (off : BitVec 6)
  /-- `ST.b128` (R183). -/
  | stB128 (h : Hdr) (d : Near) (base : Near) (off : BitVec 6)
  /-- `ST.b16` (R183). -/
  | stB16 (h : Hdr) (d : Near) (base : Near) (off : BitVec 6)
  /-- `ST.b8` (R183). -/
  | stB8 (h : Hdr) (d : Near) (base : Near) (off : BitVec 6)
  /-- `LDS.b32` (R183). -/
  | ldsB32 (h : Hdr) (d : Near) (base : Near) (off : BitVec 6)
  /-- `LDS.b64` (R183). -/
  | ldsB64 (h : Hdr) (d : Near) (base : Near) (off : BitVec 6)
  /-- `STS.b32` (R183). -/
  | stsB32 (h : Hdr) (d : Near) (base : Near) (off : BitVec 6)
  /-- `STS.b64` (R183). -/
  | stsB64 (h : Hdr) (d : Near) (base : Near) (off : BitVec 6)
  /-- `LDN.b32` (R187). -/
  | ldnB32 (h : Hdr) (d : Near) (base : Near) (off : BitVec 6)
  /-- `CONTRIB.f32` (R203). -/
  | contribF32 (h : Hdr) (d : Near) (base : Near) (flag : Bool) (lab : Near)
  /-- `MOVI` (R147). -/
  | movi (h : Hdr) (d : Near) (imm : BitVec 11)
  /-- `ADDI` (R147). -/
  | addi (h : Hdr) (d : Near) (imm : BitVec 11)
  /-- `ANDI` (R147). -/
  | andi (h : Hdr) (d : Near) (imm : BitVec 11)
  /-- `ORI` (R147). -/
  | ori (h : Hdr) (d : Near) (imm : BitVec 11)
  /-- `SHLI` (R147). -/
  | shli (h : Hdr) (d : Near) (n : Fin 32)
  /-- `SHRI` (R147). -/
  | shri (h : Hdr) (d : Near) (n : Fin 32)
  /-- `LIT` (R108). -/
  | lit (h : Hdr) (d : Near) (value : BitVec 32)
  /-- `LIT2` (R108). -/
  | lit2 (h : Hdr) (d : Near) (value : BitVec 64)
  /-- `BRA` (R134). -/
  | bra (h : Hdr) (off : BitVec 14)
  /-- `CALL` (R134). -/
  | call (h : Hdr) (off : BitVec 14)
  /-- `LOOP` (R135). -/
  | loop (h : Hdr) (sc : Fin 8) (len : Fin 128)
  /-- `BHEAD` (R139). -/
  | bhead (h : Hdr) (peer : Fin 16) (off : BitVec 10)
  /-- `NOP` (R140). -/
  | nop (h : Hdr)
  /-- `EXIT` (R141). -/
  | exit (h : Hdr)
  /-- `RET` (R134). -/
  | ret (h : Hdr)
  /-- `BRX` (R134). -/
  | brx (h : Hdr) (a : Near)
  /-- `BREAK` (R137). -/
  | breakLevel (h : Hdr)
  /-- `YIELD` (R142). -/
  | yield (h : Hdr)
  /-- `BAR.level.mode` (R207). -/
  | bar (h : Hdr) (level : Fin 8) (s : Fin 32) (mode : Fin 4)
  /-- `TRIGGER` (R211). -/
  | trigger (h : Hdr)
  /-- `LAUNCH` (R212). -/
  | launch (h : Hdr) (a : Near)
  /-- `TRAP` (R246). -/
  | trap (h : Hdr) (code : BitVec 12)
  /-- `SVC` (R246). -/
  | svc (h : Hdr) (code : BitVec 12)
  /-- `RFT` (R399). -/
  | rft (h : Hdr)
  /-- `COMMIT` (R210). -/
  | commit (h : Hdr)
  /-- `SETTILE` (R143). -/
  | settile (h : Hdr) (size : Fin 8)
  /-- `ELECT` (R34). -/
  | elect (h : Hdr) (pd : Fin 16)
  /-- `GETSR` (R153). -/
  | getsr (h : Hdr) (d : Near) (num : Fin 128)
  /-- `SETSR` (R154). -/
  | setsr (h : Hdr) (a : Near) (num : Fin 128)
  /-- `SGET` (R148). -/
  | sget (h : Hdr) (sd : Fin 32) (a : Near)
  /-- `SMOV` (R148). -/
  | smov (h : Hdr) (sd : Fin 32) (ss : Fin 32)
  /-- `SADD` (R148). -/
  | sadd (h : Hdr) (sd : Fin 32) (ss : Fin 32)
  /-- `PJOIN.mode` (R144). -/
  | pjoin (h : Hdr) (pd : Fin 16) (pa : Fin 16) (mode : Fin 4)
  /-- `PMASK` (R144). -/
  | pmask (h : Hdr) (d : Near) (pa : Fin 16)
  /-- `PEERS.key` (R144). -/
  | peers (h : Hdr) (d : Near) (a : Near) (mode : Fin 4)
  /-- `MOVSA` (R244). -/
  | movsa (h : Hdr) (d : Near) (peer : Fin 16)
  /-- `RDECL` (R200). -/
  | rdecl (h : Hdr) (a : Near)
  /-- `KSET` (R215). -/
  | kset (h : Hdr) (k : Fin 16) (a : Near)
  /-- `KWAIT` (R216). -/
  | kwait (h : Hdr) (k : Fin 16) (d : Near)
  /-- `KREL` (R216). -/
  | krel (h : Hdr) (k : Fin 16)
  /-- `KPROD` (R216). -/
  | kprod (h : Hdr) (k : Fin 16)
  /-- `KROOM` (R216). -/
  | kroom (h : Hdr) (k : Fin 16) (d : Near)
  /-- `QFENCE` (R85). -/
  | qfence (h : Hdr) (mask : BitVec 5)
  /-- `DRAIN` (R85). -/
  | drain (h : Hdr) (mask : BitVec 5)
  /-- `MBEGIN` (R228). -/
  | mbegin (h : Hdr) (acc : Fin 8)
  /-- `MEND` (R228). -/
  | mend (h : Hdr) (acc : Fin 8)
  /-- `MMA.t` (R226). -/
  | mma (h : Hdr) (acc : Fin 8) (t : Fin 8) (qa : Fin 8) (qb : Fin 8)
  /-- `MMAS.t` (R232). -/
  | mmas (h : Hdr) (acc : Fin 8) (t : Fin 8) (qa : Fin 8) (qb : Fin 8)
  /-- `MZERO` (R229). -/
  | mzero (h : Hdr) (acc : Fin 8)
  /-- `MST.s[.dith]` (R229). -/
  | mst (h : Hdr) (acc : Fin 8) (sty : Fin 4) (dith : Bool) (a : Near)
  /-- `MLD` (R229). -/
  | mld (h : Hdr) (acc : Fin 8) (a : Near)
  /-- `MCONTRIB` (R230). -/
  | mcontrib (h : Hdr) (acc : Fin 8) (qpair : Fin 8) (lab : Near)
  /-- `ITSET` (R235). -/
  | itset (h : Hdr) (it : Fin 8) (a : Near)
  /-- `SWEEP` (R236). -/
  | sweep (h : Hdr) (op : Fin 8) (itd : Fin 8) (ita : Fin 8) (itb : Fin 8)
  /-- `WAITCNT` (R205). -/
  | waitcnt (h : Hdr) (d : Near) (a : Near)
  /-- `PREF` (R188). -/
  | pref (h : Hdr) (a : Near) (count : Fin 32) (hint : Fin 4)
  /-- `SALLOC` (R189). -/
  | salloc (h : Hdr) (d : Near) (a : Near)
  /-- `SFREE` (R190). -/
  | sfree (h : Hdr) (a : Near)
  /-- `ATOM.iadd.w` (R194). -/
  | atomIadd (h : Hdr) (d : Near) (a : Fin 16) (m : Fin 8)
  /-- `ATOM.imin.t` (R194). -/
  | atomImin (h : Hdr) (d : Near) (a : Fin 16) (m : Fin 8)
  /-- `ATOM.imax.t` (R194). -/
  | atomImax (h : Hdr) (d : Near) (a : Fin 16) (m : Fin 8)
  /-- `ATOM.logic.f.w` (R194). -/
  | atomLogic (h : Hdr) (d : Near) (a : Fin 16) (m : Fin 8)
  /-- `ATOM.xchg.w` (R194). -/
  | atomXchg (h : Hdr) (d : Near) (a : Fin 16) (m : Fin 8)
  /-- `ATOM.fmin.t` (R195). -/
  | atomFmin (h : Hdr) (d : Near) (a : Fin 16) (m : Fin 8)
  /-- `ATOM.fmax.t` (R195). -/
  | atomFmax (h : Hdr) (d : Near) (a : Fin 16) (m : Fin 8)
  /-- `CAS.w` (R196). -/
  | cas (h : Hdr) (d : Near) (a : Fin 16) (m : Fin 8)
  /-- `GEMVN` (R239). -/
  | gemvn (h : Hdr) (d : Near) (a : Near)
  /-- `COLL` (R240). -/
  | coll (h : Hdr) (d : Near) (a : Near)
  /-- `SNAP` (R245). -/
  | snap (h : Hdr) (code : BitVec 12)
  /-- `LOAD_DATA_RETURN` (R182): a step of the part, not a word. -/
  | loadDataReturn (core slot load : Nat) (completion : Completion)
  /-- `WAITCNT_RELEASE` (R205): a step of the part, not a word. -/
  | waitcntRelease (core slot load : Nat)
  /-- `KROOM_GRANT` (R216): a step of the part, not a word. -/
  | kroomGrant (core slot : Nat)
  /-- `KWAIT_GRANT` (R216): a step of the part, not a word. -/
  | kwaitGrant (core slot : Nat)
  /-- `BARRIER_COMPLETE` (R207): a step of the part, not a word. -/
  | barrierComplete (bar : Nat) (remote : BitVec 16)
  /-- `WINDOW_COMMIT` (R323): a step of the part, not a word. -/
  | windowCommit (core slot : Nat)
  /-- `BUNDLE_REGROUP` (R14): a step of the part, not a word. -/
  | bundleRegroup (core slot : Nat)
  /-- `COUNTER_PROMOTION` (R14): a step of the part, not a word. -/
  | counterPromotion (core slot : Nat)
  /-- `WARP_URGENT` (R389): a step of the part, not a word. -/
  | warpUrgent (core slot : Nat)
  /-- `COPY_ENTRY_START` (R218): a step of the part, not a word. -/
  | copyEntryStart (entry : Nat)
  /-- `CPYM_DELIVERY` (R221): a step of the part, not a word. -/
  | cpymDelivery (entry core : Nat)
  /-- `ENGINE_ELEMENT_FAULT` (R222): a step of the part, not a word. -/
  | engineElementFault (entry : Nat)
  /-- `ENGINE_COMPLETION` (R213): a step of the part, not a word. -/
  | engineCompletion (entry : Nat)
  /-- `MATRIX_PASS_START` (R252): a step of the part, not a word. -/
  | matrixPassStart (core partition : Nat)
  /-- `K_STEP_FINISH` (R255): a step of the part, not a word. -/
  | kStepFinish (entry quarter : Nat)
  /-- `GEMVN_START` (R263): a step of the part, not a word. -/
  | gemvnStart (stack : Nat)
  /-- `COLL_INSTANCE_START` (R309): a step of the part, not a word. -/
  | collInstanceStart (entry : Nat)
  /-- `WORK_ENTRY_FIRE` (R310): a step of the part, not a word. -/
  | workEntryFire (inst index : Nat)
  /-- `COLL_COMPLETE` (R311): a step of the part, not a word. -/
  | collComplete (inst : Nat)
  /-- `LULL_ARRIVAL` (R285): a step of the part, not a word. -/
  | lullArrival (lull : LullId)
  /-- `LINE_DONE` (R295): a step of the part, not a word. -/
  | lineDone
  /-- `LAUNCH_START` (R383): a step of the part, not a word. -/
  | launchStart (queue : Nat)
  /-- `BLOCK_PLACEMENT` (R382): a step of the part, not a word. -/
  | blockPlacement (launch : Nat) (cores : List Nat)
  /-- `LAUNCH_COMPLETE` (R379): a step of the part, not a word. -/
  | launchComplete (launch : Nat)
  /-- `REGISTER_WRITE` (R428): a step of the part, not a word. -/
  | registerWrite (offset size : Nat) (value : DWord)
  /-- `ENGINE_FAULT_ENTRY` (R406): a step of the part, not a word. -/
  | engineFaultEntry (core slot fid : Nat)
  /-- `SOFT_ERROR_TRAP` (R400): a step of the part, not a word. -/
  | softErrorTrap (core slot : Nat)
  /-- `ROLLBACK` (R327): a step of the part, not a word. -/
  | rollback (core slot : Nat) (trigger : Gran)
  /-- `SOFT_ERROR_EVENT` (R449): a step of the part, not a word. -/
  | softErrorEvent (e : SoftError)
  /-- `LULL_FORWARD_TIMEOUT` (R289): a step of the part, not a word. -/
  | lullForwardTimeout (lull : LullId) (key : Nat)
  /-- `FLIT_TRANSMIT` (R341): a step of the part, not a word. -/
  | flitTransmit (port : Nat)
  /-- `CONTROL_FLIT_SEND` (R342): a step of the part, not a word. -/
  | controlFlitSend (port : Nat)
  /-- `CONTROL_FLIT` (R340): a step of the part, not a word. -/
  | controlFlit (port : Nat) (f : Flit)
  /-- `REQUEST_FLIT` (R339): a step of the part, not a word. -/
  | requestFlit (port : Nat) (f : Flit)
  /-- `RESPONSE_FLIT` (R339): a step of the part, not a word. -/
  | responseFlit (port : Nat) (f : Flit)
  /-- `BULK_WRITE_FLIT` (R346): a step of the part, not a word. -/
  | bulkWriteFlit (port : Nat) (f : Flit)
  /-- `MULTICAST_FLIT` (R351): a step of the part, not a word. -/
  | multicastFlit (port : Nat) (route data : Flit)
  /-- `LULL_ENTRY_FLIT` (R301): a step of the part, not a word. -/
  | lullEntryFlit (port : Nat) (f : Flit)
  /-- `PLAN_WRITE_FLIT` (R310): a step of the part, not a word. -/
  | planWriteFlit (port : Nat) (f : Flit)
  /-- `KEY_SWITCH_MARKER` (R344): a step of the part, not a word. -/
  | keySwitchMarker (port : Nat) (f : Flit)
  /-- `RESERVED_KIND_FLIT` (R339): a step of the part, not a word. -/
  | reservedKindFlit (port : Nat) (f : Flit)
  /-- `REPLAY_TIMEOUT` (R342): a step of the part, not a word. -/
  | replayTimeout (port : Nat)
  /-- `KEY_SWITCH` (R344): a step of the part, not a word. -/
  | keySwitch (port : Nat)
  /-- `DEVICE_LOST` (R314): a step of the part, not a word. -/
  | deviceLost (dev : Nat)
  /-- `ALLOWANCE_REGRANT` (R349): a step of the part, not a word. -/
  | allowanceRegrant (dev : Nat)
  /-- `GRANT_RETURN` (R349): a step of the part, not a word. -/
  | grantReturn (dev core : Nat)
  /-- `BECALMED_WAKE` (R355): a step of the part, not a word. -/
  | becalmedWake (dev : Nat)
  /-- `UE_PACKET_RECEIVE` (R315): a step of the part, not a word. -/
  | uePacketReceive (p : UePacket)
  /-- `UE_PEER_UNREACHABLE` (R315): a step of the part, not a word. -/
  | uePeerUnreachable (fabricAddress : DWord)
  /-- `QUEUE_TAIL_WRITE` (R381): a step of the part, not a word. -/
  | queueTailWrite (queue : Nat) (tail : Word)
  /-- `CARVE_OUT_WRITE` (R388): a step of the part, not a word. -/
  | carveOutWrite (core : Nat) (value : Word)
  /-- `CARVE_OUT_DONE` (R388): a step of the part, not a word. -/
  | carveOutDone (core : Nat)
  /-- `PM_CORE_WRITE` (R391): a step of the part, not a word. -/
  | pmCoreWrite (core : Nat) (value : Word)
  /-- `TLB_INVALIDATE` (R404): a step of the part, not a word. -/
  | tlbInvalidate (value : DWord)
  /-- `TLB_INVALIDATE_DONE` (R404): a step of the part, not a word. -/
  | tlbInvalidateDone
  /-- `SPILL_AREA_MOVE` (R393): a step of the part, not a word. -/
  | spillAreaMove (value : Word)
  /-- `PREEMPT_REQUEST` (R408): a step of the part, not a word. -/
  | preemptRequest (value : DWord)
  /-- `CONTEXT_SAVE` (R408): a step of the part, not a word. -/
  | contextSave (value : Word)
  /-- `CONTEXT_RESTORE` (R410): a step of the part, not a word. -/
  | contextRestore (value : Word)
  /-- `PREEMPT_COMPLETE` (R408): a step of the part, not a word. -/
  | preemptComplete
  /-- `ENGINE_FAULT_RESUME` (R406): a step of the part, not a word. -/
  | engineFaultResume (fid : Nat)
  /-- `ENGINE_FAULT_ABANDON` (R406): a step of the part, not a word. -/
  | engineFaultAbandon (fid : Nat)
  /-- `EF_CFG_WRITE` (R407): a step of the part, not a word. -/
  | efCfgWrite (value : Word)
  /-- `EF_HEAD_WRITE` (R405): a step of the part, not a word. -/
  | efHeadWrite (value : Word)
  /-- `DIRECTORY_REQUEST` (R413): a step of the part, not a word. -/
  | directoryRequest (core line : Nat) (req : DirReq)
  /-- `SYNC_UPDATE` (R415): a step of the part, not a word. -/
  | syncUpdate (core slot line : Nat)
  /-- `SYNC_UPDATE_ACK` (R415): a step of the part, not a word. -/
  | syncUpdateAck (line sharer : Nat)
  /-- `PAGE_REQUEST` (R417): a step of the part, not a word. -/
  | pageRequest (dev page : Nat) (req : PageReq)
  /-- `PAGE_RECALL` (R419): a step of the part, not a word. -/
  | pageRecall (page : Nat)
  /-- `RECALL_ACK` (R419): a step of the part, not a word. -/
  | recallAck (dev page : Nat)
  /-- `DRIVER_RECALL` (R420): a step of the part, not a word. -/
  | driverRecall (value : DWord)
  /-- `HOST_MEM_REQUEST` (R424): a step of the part, not a word. -/
  | hostMemRequest (op : HostMemOp) (pa : Nat)
  /-- `HOST_SNOOP` (R423): a step of the part, not a word. -/
  | hostSnoop (kind : Snoop) (sector : Nat)
  /-- `BACK_INVALIDATE_RESPONSE` (R425): a step of the part, not a word. -/
  | backInvalidateResponse (sector : Nat) (data : Option (List Byte))
  /-- `HOST_LINK_DOWN` (R427): a step of the part, not a word. -/
  | hostLinkDown
  /-- `HX_CTL_WRITE` (R422): a step of the part, not a word. -/
  | hxCtlWrite (value : Word)
  /-- `FUNCTION_READY` (R430): a step of the part, not a word. -/
  | functionReady (bit : Nat)
  /-- `DXP_CTL_WRITE` (R357): a step of the part, not a word. -/
  | dxpCtlWrite (port : Nat) (value : Word)
  /-- `KEY_LOAD` (R433): a step of the part, not a word. -/
  | keyLoad (cmd : Word)
  /-- `KEY_ERASE` (R433): a step of the part, not a word. -/
  | keyErase (cmd : Word)
  /-- `SECURITY_ALARM` (R436): a step of the part, not a word. -/
  | securityAlarm (cause : Fin 4)
  /-- `SNAPSHOT_HOST_TRIGGER` (R439): a step of the part, not a word. -/
  | snapshotHostTrigger (value : Word)
  /-- `SNAPSHOT_TRIGGER` (R437): a step of the part, not a word. -/
  | snapshotTrigger (src : SnapSource) (tag : BitVec 12) (core : Nat)
  /-- `SNAPSHOT_LATCH` (R438): a step of the part, not a word. -/
  | snapshotLatch (block : Nat)
  /-- `SNAPSHOT_DISTRIBUTION_END` (R437): a step of the part, not a word. -/
  | snapshotDistributionEnd
  /-- `SNAPSHOT_DONE` (R439): a step of the part, not a word. -/
  | snapshotDone
  /-- `PLAN_LOAD` (R305): a step of the part, not a word. -/
  | planLoad (slot : Fin 64) (value : DWord)
  /-- `PLAN_UNLOAD` (R305): a step of the part, not a word. -/
  | planUnload (slot : Fin 64) (value : DWord)
  /-- `PRECOPY_PASS` (R442): a step of the part, not a word. -/
  | precopyPass (value : Word)
  /-- `PRECOPY_PASS_END` (R442): a step of the part, not a word. -/
  | precopyPassEnd (acked : Bool)
  /-- `PRECOPY_RECORD_RECEIVE` (R444): a step of the part, not a word. -/
  | precopyRecordReceive (r : PrecopyRecord)
  /-- `LIFETIME_DUMP` (R448): a step of the part, not a word. -/
  | lifetimeDump (value : Word)
  /-- `LIFETIME_COMMIT` (R448): a step of the part, not a word. -/
  | lifetimeCommit
  /-- `ORDERLY_POWER_DOWN` (R448): a step of the part, not a word. -/
  | orderlyPowerDown
  /-- `RESET` (R431): a step of the part, not a word. -/
  | reset
  /-- `FETCH_FAULT` (R105): a step of the part, not a word. -/
  | fetchFault (kind : FetchFaultKind) (va : DWord)
  /-- `ILLEGAL_ENCODING` (R123): a step of the part, not a word. -/
  | illegalEncoding (kind : IllegalKind)
  /-- `POWER_MANAGER_LIMIT` (R2): a step of the part, not a word. -/
  | powerManagerLimit (core steps : Nat)
  /-- `POWER_LOSS` (R448): a step of the part, not a word. -/
  | powerLoss
  /-- `DOE_REQUEST` (R432): a step of the part, not a word. -/
  | doeRequest (m : DoeMsg)
  /-- `CXL_CACHE_RESPONSE` (R423): a step of the part, not a word. -/
  | cxlCacheResponse (sector : Nat) (grant : CxlState) (data : List Byte)
  /-- `UNAUTHENTICATED_FLIT` (R343): a step of the part, not a word. -/
  | unauthenticatedFlit (port : Nat)
deriving DecidableEq, Repr

end Sys2Proof
end

