-- ==== Sys2Proof/WellFormed.lean ====
section
/-! DEFINITION. The operand roles of every instruction word (R110 to R118) and the check of item 4 of R124: a word
that fails it traps `ILLEGAL_OPERAND` when it issues. -/
namespace Sys2Proof

/-- One operand a word reads or writes, with its role (R112). `rd` and `wr` of predicates, `v` and `s` registers name
the register itself. -/
inductive Opnd where
  | dst32 (n : Near) | dst64 (n : Near) | dst128 (n : Near)
  | src32 (n : Near) | src64 (n : Near) | src128 (n : Near)
  | rw32 (n : Near) | rw64 (n : Near) | rw128 (n : Near) | rw256 (n : Near)
  | rdP (p : Fin 16) | wrP (p : Fin 16)
  | rdV (v : Nat) | wrV (v : Nat)
  | rdS (s : Nat) | wrS (s : Nat)
deriving DecidableEq, Repr

/-- A destination selector whose register number is a multiple of `m` (R112: 32-, 64-, 128-bit destinations). -/
def Near.isDst (m : Nat) : Near → Bool
  | .q n => n.val % m == 0
  | _ => false

/-- A wide source selector: `q` or `s` whose number is a multiple of `m` (R112). -/
def Near.isWide (m : Nat) : Near → Bool
  | .q n => n.val % m == 0
  | .s n => n.val % m == 0
  | _ => false

/-- The selector limits of R112. -/
def Opnd.ok : Opnd → Bool
  | .dst32 n | .rw32 n => n.isDst 1
  | .dst64 n | .rw64 n => n.isDst 2
  | .dst128 n | .rw128 n => n.isDst 4
  | .rw256 n => n.isDst 8
  | .src32 _ => true
  | .src64 n => n.isWide 2
  | .src128 n => n.isWide 4
  | .rdP _ | .wrP _ | .rdV _ | .wrV _ | .rdS _ | .wrS _ => true

/-- The address pair of an atomic (R192): 0-7 `q0:q1` to `q14:q15`, 8-11 `s0:s1` to `s6:s7`. -/
def atomPair (a : Fin 16) : Near :=
  if a.val < 8 then .q (Fin.ofNat 16 (2 * a.val)) else .s (Fin.ofNat 8 (2 * (a.val - 8)))

/-- The pair `q`2n (MCONTRIB, R224's table). -/
def qPair (n : Fin 8) : Near := .q (Fin.ofNat 16 (2 * n.val))

/-- The register `q`n for n below 8 (MMA, R224's table). -/
def qLow (n : Fin 8) : Near := .q (Fin.ofNat 16 n.val)

/-- Result and source width of a conversion code (R168). -/
def fcvtOperands (code : Nat) (d a : Near) : List Opnd :=
  if code < 8 then [.dst32 d, .src32 a]
  else if code < 24 then [.dst32 d, .src64 a]
  else if code < 28 then [.dst32 d, .src32 a]
  else [.dst64 d, .src32 a]

/-- The widths of an atomic's operand by code group: `true` for a 64-bit m (R193). -/
def atomWide (m : Nat) : Bool := m % 2 == 1

/-- The operands of every instruction word, destination first. A step that is no word has none. -/
def Instr.operands : Instr → List Opnd
  | .faddF32 _ d a b => [.dst32 d, .src32 a, .src32 b]
  | .fsubF32 _ d a b => [.dst32 d, .src32 a, .src32 b]
  | .fmulF32 _ d a b => [.dst32 d, .src32 a, .src32 b]
  | .ffmaF32 _ d a b => [.rw32 d, .src32 a, .src32 b]
  | .fminF32 _ d a b => [.dst32 d, .src32 a, .src32 b]
  | .fmaxF32 _ d a b => [.dst32 d, .src32 a, .src32 b]
  | .fabsF32 _ d a => [.dst32 d, .src32 a]
  | .fnegF32 _ d a => [.dst32 d, .src32 a]
  | .frndF32 _ d a _ => [.dst32 d, .src32 a]
  | .fscaleF32 _ d a b => [.dst32 d, .src32 a, .src32 b]
  | .frcpF32 _ d a => [.dst32 d, .src32 a]
  | .frsqF32 _ d a => [.dst32 d, .src32 a]
  | .fsqrtF32 _ d a => [.dst32 d, .src32 a]
  | .fex2F32 _ d a => [.dst32 d, .src32 a]
  | .flg2F32 _ d a => [.dst32 d, .src32 a]
  | .fclassF32 _ d a => [.dst32 d, .src32 a]
  | .faddF16x2 _ d a b => [.dst32 d, .src32 a, .src32 b]
  | .fsubF16x2 _ d a b => [.dst32 d, .src32 a, .src32 b]
  | .fmulF16x2 _ d a b => [.dst32 d, .src32 a, .src32 b]
  | .ffmaF16x2 _ d a b => [.rw32 d, .src32 a, .src32 b]
  | .fminF16x2 _ d a b => [.dst32 d, .src32 a, .src32 b]
  | .fmaxF16x2 _ d a b => [.dst32 d, .src32 a, .src32 b]
  | .fdot2F16x2 _ d a b => [.rw32 d, .src32 a, .src32 b]
  | .faddBf16x2 _ d a b => [.dst32 d, .src32 a, .src32 b]
  | .fsubBf16x2 _ d a b => [.dst32 d, .src32 a, .src32 b]
  | .fmulBf16x2 _ d a b => [.dst32 d, .src32 a, .src32 b]
  | .ffmaBf16x2 _ d a b => [.rw32 d, .src32 a, .src32 b]
  | .fminBf16x2 _ d a b => [.dst32 d, .src32 a, .src32 b]
  | .fmaxBf16x2 _ d a b => [.dst32 d, .src32 a, .src32 b]
  | .fdot2Bf16x2 _ d a b => [.rw32 d, .src32 a, .src32 b]
  | .faddF64 _ d a b => [.dst64 d, .src64 a, .src64 b]
  | .fsubF64 _ d a b => [.dst64 d, .src64 a, .src64 b]
  | .fmulF64 _ d a b => [.dst64 d, .src64 a, .src64 b]
  | .ffmaF64 _ d a b => [.rw64 d, .src64 a, .src64 b]
  | .fminF64 _ d a b => [.dst64 d, .src64 a, .src64 b]
  | .fmaxF64 _ d a b => [.dst64 d, .src64 a, .src64 b]
  | .fcmpLtF64 _ acc pd a b => (if acc then [.rdP pd] else []) ++ [.wrP pd, .src64 a, .src64 b]
  | .fcmpEqF64 _ acc pd a b => (if acc then [.rdP pd] else []) ++ [.wrP pd, .src64 a, .src64 b]
  | .fcvt _ d a code => fcvtOperands code.val d a
  | .fcvtd _ d a code => fcvtOperands code.val d a
  | .cpy _ d a b => [.dst32 d, .src64 a, .src32 b]
  | .gath _ d a b => [.dst32 d, .src64 a, .src32 b]
  | .scat _ d a b => [.dst32 d, .src64 a, .src32 b]
  | .cpym _ d a b => [.dst32 d, .src64 a, .src32 b]
  | .xfer _ d => [.dst32 d, .rdS 0, .rdS 1, .rdS 2, .rdS 3, .rdS 4, .rdS 5, .rdS 6]
  | .xmc _ d => [.dst32 d, .rdS 0, .rdS 1, .rdS 2, .rdS 3, .rdS 4, .rdS 6, .rdS 7]
  | .fcmpEqF32 _ acc pd a b => (if acc then [.rdP pd] else []) ++ [.wrP pd, .src32 a, .src32 b]
  | .fcmpNeF32 _ acc pd a b => (if acc then [.rdP pd] else []) ++ [.wrP pd, .src32 a, .src32 b]
  | .fcmpLtF32 _ acc pd a b => (if acc then [.rdP pd] else []) ++ [.wrP pd, .src32 a, .src32 b]
  | .fcmpLeF32 _ acc pd a b => (if acc then [.rdP pd] else []) ++ [.wrP pd, .src32 a, .src32 b]
  | .fcmpGtF32 _ acc pd a b => (if acc then [.rdP pd] else []) ++ [.wrP pd, .src32 a, .src32 b]
  | .fcmpGeF32 _ acc pd a b => (if acc then [.rdP pd] else []) ++ [.wrP pd, .src32 a, .src32 b]
  | .icmpEqI32 _ acc pd a b => (if acc then [.rdP pd] else []) ++ [.wrP pd, .src32 a, .src32 b]
  | .icmpNeI32 _ acc pd a b => (if acc then [.rdP pd] else []) ++ [.wrP pd, .src32 a, .src32 b]
  | .icmpLtI32 _ acc pd a b => (if acc then [.rdP pd] else []) ++ [.wrP pd, .src32 a, .src32 b]
  | .icmpLeI32 _ acc pd a b => (if acc then [.rdP pd] else []) ++ [.wrP pd, .src32 a, .src32 b]
  | .icmpGtI32 _ acc pd a b => (if acc then [.rdP pd] else []) ++ [.wrP pd, .src32 a, .src32 b]
  | .icmpGeI32 _ acc pd a b => (if acc then [.rdP pd] else []) ++ [.wrP pd, .src32 a, .src32 b]
  | .icmpLtN32 _ acc pd a b => (if acc then [.rdP pd] else []) ++ [.wrP pd, .src32 a, .src32 b]
  | .icmpLeN32 _ acc pd a b => (if acc then [.rdP pd] else []) ++ [.wrP pd, .src32 a, .src32 b]
  | .icmpGtN32 _ acc pd a b => (if acc then [.rdP pd] else []) ++ [.wrP pd, .src32 a, .src32 b]
  | .icmpGeN32 _ acc pd a b => (if acc then [.rdP pd] else []) ++ [.wrP pd, .src32 a, .src32 b]
  | .iadd _ d a b => [.dst32 d, .src32 a, .src32 b]
  | .isub _ d a b => [.dst32 d, .src32 a, .src32 b]
  | .imul _ d a b => [.dst32 d, .src32 a, .src32 b]
  | .imulhI32 _ d a b => [.dst32 d, .src32 a, .src32 b]
  | .imulhN32 _ d a b => [.dst32 d, .src32 a, .src32 b]
  | .imad _ d a b => [.rw32 d, .src32 a, .src32 b]
  | .iminI32 _ d a b => [.dst32 d, .src32 a, .src32 b]
  | .iminN32 _ d a b => [.dst32 d, .src32 a, .src32 b]
  | .imaxI32 _ d a b => [.dst32 d, .src32 a, .src32 b]
  | .imaxN32 _ d a b => [.dst32 d, .src32 a, .src32 b]
  | .iabs _ d a => [.dst32 d, .src32 a]
  | .and _ d a b => [.dst32 d, .src32 a, .src32 b]
  | .or _ d a b => [.dst32 d, .src32 a, .src32 b]
  | .xor _ d a b => [.dst32 d, .src32 a, .src32 b]
  | .andn _ d a b => [.dst32 d, .src32 a, .src32 b]
  | .shl _ d a b => [.dst32 d, .src32 a, .src32 b]
  | .shr _ d a b => [.dst32 d, .src32 a, .src32 b]
  | .sar _ d a b => [.dst32 d, .src32 a, .src32 b]
  | .rotl _ d a b => [.dst32 d, .src32 a, .src32 b]
  | .bfe _ d a b => [.dst32 d, .src32 a, .src32 b]
  | .bfi _ d a b => [.rw32 d, .src32 a, .src32 b]
  | .clz _ d a => [.dst32 d, .src32 a]
  | .popc _ d a => [.dst32 d, .src32 a]
  | .brev _ d a => [.dst32 d, .src32 a]
  | .sel _ d a b => [.dst32 d, .src32 a, .src32 b]
  | .mov _ d a => [.dst32 d, .src32 a]
  | .bmix _ d a b => [.rw32 d, .src32 a, .src32 b]
  | .leaS2 _ d a b => [.dst32 d, .src32 a, .src32 b]
  | .leaS3 _ d a b => [.dst32 d, .src32 a, .src32 b]
  | .iadd64 _ d a b => [.dst64 d, .src64 a, .src64 b]
  | .sataddI32 _ d a b => [.dst32 d, .src32 a, .src32 b]
  | .satsubI32 _ d a b => [.dst32 d, .src32 a, .src32 b]
  | .iaddI16x2 _ d a b => [.dst32 d, .src32 a, .src32 b]
  | .isubI16x2 _ d a b => [.dst32 d, .src32 a, .src32 b]
  | .iminI16x2 _ d a b => [.dst32 d, .src32 a, .src32 b]
  | .imaxI16x2 _ d a b => [.dst32 d, .src32 a, .src32 b]
  | .pdot2I16x2 _ d a b => [.rw32 d, .src32 a, .src32 b]
  | .pdot2sI16x2 _ d a b => [.rw32 d, .src32 a, .src32 b]
  | .pdot4I8x4 _ d a b => [.rw32 d, .src32 a, .src32 b]
  | .pdot4sI8x4 _ d a b => [.rw32 d, .src32 a, .src32 b]
  | .shrrI32 _ d a b => [.dst32 d, .src32 a, .src32 b]
  | .shrrsI16 _ d a b => [.dst32 d, .src32 a, .src32 b]
  | .packB16 _ d a b => [.dst32 d, .src32 a, .src32 b]
  | .unpklI16 _ d a => [.dst32 d, .src32 a]
  | .unpkhI16 _ d a => [.dst32 d, .src32 a]
  | .sataddI16x2 _ d a b => [.dst32 d, .src32 a, .src32 b]
  | .xlaneGet _ d a b => [.dst32 d, .src32 a, .src32 b]
  | .xlaneShift _ d a b => [.dst32 d, .src32 a, .src32 b]
  | .xlaneRot _ d a b => [.dst32 d, .src32 a, .src32 b]
  | .xlaneBfly _ d a b => [.dst32 d, .src32 a, .src32 b]
  | .push _ d a b => [.dst32 d, .src32 a, .src32 b]
  | .slideUp _ d a b => [.dst32 d, .src32 a, .src32 b]
  | .slideDown _ d a b => [.dst32 d, .src32 a, .src32 b]
  | .wredIadd _ d a => [.dst32 d, .src32 a]
  | .wredImin _ d a => [.dst32 d, .src32 a]
  | .wredImax _ d a => [.dst32 d, .src32 a]
  | .wredFadd _ d a => [.dst32 d, .src32 a]
  | .scanIadd _ d a => [.dst32 d, .src32 a]
  | .plopAnd _ pd pa pb => [.wrP pd, .rdP pa, .rdP pb]
  | .plopOr _ pd pa pb => [.wrP pd, .rdP pa, .rdP pb]
  | .plopXor _ pd pa pb => [.wrP pd, .rdP pa, .rdP pb]
  | .plopAndn _ pd pa pb => [.wrP pd, .rdP pa, .rdP pb]
  | .get _ v a => [.rdV v.val, .dst32 a]
  | .put _ v a => [.wrV v.val, .src32 a]
  | .get2 _ v a => [.rdV v.val, .rdV (v.val + 1), .dst64 a]
  | .put2 _ v a => [.wrV v.val, .wrV (v.val + 1), .src64 a]
  | .vfmaF32 _ v a b => [.rdV v.val, .wrV v.val, .src32 a, .src32 b]
  | .vaddF32 _ v a => [.rdV v.val, .wrV v.val, .src32 a]
  | .vaddI32 _ v a => [.rdV v.val, .wrV v.val, .src32 a]
  | .vswap _ v a => [.rdV v.val, .wrV v.val, .rw32 a]
  | .ldB32 _ d base _ => [.dst32 d, .src64 base]
  | .ldB64 _ d base _ => [.dst64 d, .src64 base]
  | .ldB128 _ d base _ => [.dst128 d, .src64 base]
  | .ldB16 _ d base _ => [.dst32 d, .src64 base]
  | .ldB8 _ d base _ => [.dst32 d, .src64 base]
  | .stB32 _ d base _ => [.src32 d, .src64 base]
  | .stB64 _ d base _ => [.src64 d, .src64 base]
  | .stB128 _ d base _ => [.src128 d, .src64 base]
  | .stB16 _ d base _ => [.src32 d, .src64 base]
  | .stB8 _ d base _ => [.src32 d, .src64 base]
  | .ldsB32 _ d base _ => [.dst32 d, .src32 base]
  | .ldsB64 _ d base _ => [.dst64 d, .src32 base]
  | .stsB32 _ d base _ => [.src32 d, .src32 base]
  | .stsB64 _ d base _ => [.src64 d, .src32 base]
  | .ldnB32 _ d base _ => [.dst32 d, .src64 base]
  | .contribF32 _ d base _ lab => [.src32 d, .src64 base, .src32 lab]
  | .movi _ d _ => [.dst32 d]
  | .addi _ d _ => [.rw32 d]
  | .andi _ d _ => [.rw32 d]
  | .ori _ d _ => [.rw32 d]
  | .shli _ d _ => [.rw32 d]
  | .shri _ d _ => [.rw32 d]
  | .lit _ d _ => [.dst32 d]
  | .lit2 _ d _ => [.dst64 d]
  | .bra _ _ => []
  | .call _ _ => [.dst32 (.q 15)]
  | .loop _ sc _ => [.rdS sc.val]
  | .bhead _ _ _ => []
  | .nop _ => []
  | .exit _ => []
  | .ret _ => [.src32 (.q 15)]
  | .brx _ a => [.src32 a]
  | .breakLevel _ => []
  | .yield _ => []
  | .bar _ level s _ => if level.val = 2 then [.rdS s.val, .rdS (s.val + 1)] else [.rdS s.val]
  | .trigger _ => []
  | .launch _ a => [.src64 a]
  | .trap _ _ => []
  | .svc _ _ => []
  | .rft _ => []
  | .commit _ => []
  | .settile _ _ => []
  | .elect _ pd => [.wrP pd]
  | .getsr _ d num => if num.val = 19 then [.dst64 d] else [.dst32 d]
  | .setsr _ a _ => [.src32 a]
  | .sget _ sd a => [.wrS sd.val, .src32 a]
  | .smov _ sd ss => [.wrS sd.val, .rdS ss.val]
  | .sadd _ sd ss => [.wrS sd.val, .rdS sd.val, .rdS ss.val]
  | .pjoin _ pd pa _ => [.wrP pd, .rdP pa]
  | .pmask _ d pa => [.dst32 d, .rdP pa]
  | .peers _ d a mode => if mode.val = 1 then [.dst32 d, .src64 a] else [.dst32 d, .src32 a]
  | .movsa _ d _ => [.dst32 d]
  | .rdecl _ a => [.src64 a]
  | .kset _ _ a => [.src32 a]
  | .kwait _ _ d => [.dst32 d]
  | .krel _ _ => []
  | .kprod _ _ => []
  | .kroom _ _ d => [.dst32 d]
  | .qfence _ _ => []
  | .drain _ _ => []
  | .mbegin _ _ => []
  | .mend _ _ => []
  | .mma _ _ _ qa qb => [.src32 (qLow qa), .src32 (qLow qb)]
  | .mmas _ _ _ qa qb => [.src32 (qLow qa), .src32 (qLow qb)]
  | .mzero _ _ => []
  | .mst _ _ _ _ a => [.src32 a]
  | .mld _ _ a => [.src32 a]
  | .mcontrib _ _ qpair lab => [.src64 (qPair qpair), .src32 lab]
  | .itset _ _ a => [.src64 a]
  | .sweep _ _ _ _ _ => []
  | .waitcnt _ d a => [.rw32 d, .src32 a]
  | .pref _ a _ _ => [.src64 a]
  | .salloc _ d a => [.dst32 d, .src32 a]
  | .sfree _ a => [.src32 a]
  | .atomIadd _ d a m => [if m.val = 1 then .rw64 d else .rw32 d, .src64 (atomPair a)]
  | .atomImin _ d a m => [if 2 ≤ m.val then .rw64 d else .rw32 d, .src64 (atomPair a)]
  | .atomImax _ d a m => [if 2 ≤ m.val then .rw64 d else .rw32 d, .src64 (atomPair a)]
  | .atomLogic _ d a m => [if atomWide m.val then .rw64 d else .rw32 d, .src64 (atomPair a)]
  | .atomXchg _ d a m => [if m.val = 1 then .rw64 d else .rw32 d, .src64 (atomPair a)]
  | .atomFmin _ d a m => [if m.val = 3 then .rw64 d else .rw32 d, .src64 (atomPair a)]
  | .atomFmax _ d a m => [if m.val = 3 then .rw64 d else .rw32 d, .src64 (atomPair a)]
  | .cas _ d a m => [if m.val = 0 then .rw64 d else if m.val = 1 then .rw128 d else .rw256 d, .src64 (atomPair a)]
  | .gemvn _ d a => [.dst32 d, .src64 a]
  | .coll _ d a => [.dst32 d, .src64 a]
  | .snap _ _ => []
  | .loadDataReturn .. => []
  | .waitcntRelease .. => []
  | .kroomGrant .. => []
  | .kwaitGrant .. => []
  | .barrierComplete .. => []
  | .windowCommit .. => []
  | .bundleRegroup .. => []
  | .counterPromotion .. => []
  | .warpUrgent .. => []
  | .copyEntryStart .. => []
  | .cpymDelivery .. => []
  | .engineElementFault .. => []
  | .engineCompletion .. => []
  | .matrixPassStart .. => []
  | .kStepFinish .. => []
  | .gemvnStart .. => []
  | .collInstanceStart .. => []
  | .workEntryFire .. => []
  | .collComplete .. => []
  | .lullArrival .. => []
  | .lineDone .. => []
  | .launchStart .. => []
  | .blockPlacement .. => []
  | .launchComplete .. => []
  | .registerWrite .. => []
  | .engineFaultEntry .. => []
  | .softErrorTrap .. => []
  | .rollback .. => []
  | .softErrorEvent .. => []
  | .lullForwardTimeout .. => []
  | .flitTransmit .. => []
  | .controlFlitSend .. => []
  | .controlFlit .. => []
  | .requestFlit .. => []
  | .responseFlit .. => []
  | .bulkWriteFlit .. => []
  | .multicastFlit .. => []
  | .lullEntryFlit .. => []
  | .planWriteFlit .. => []
  | .keySwitchMarker .. => []
  | .reservedKindFlit .. => []
  | .replayTimeout .. => []
  | .keySwitch .. => []
  | .deviceLost .. => []
  | .allowanceRegrant .. => []
  | .grantReturn .. => []
  | .becalmedWake .. => []
  | .uePacketReceive .. => []
  | .uePeerUnreachable .. => []
  | .queueTailWrite .. => []
  | .carveOutWrite .. => []
  | .carveOutDone .. => []
  | .pmCoreWrite .. => []
  | .tlbInvalidate .. => []
  | .tlbInvalidateDone .. => []
  | .spillAreaMove .. => []
  | .preemptRequest .. => []
  | .contextSave .. => []
  | .contextRestore .. => []
  | .preemptComplete .. => []
  | .engineFaultResume .. => []
  | .engineFaultAbandon .. => []
  | .efCfgWrite .. => []
  | .efHeadWrite .. => []
  | .directoryRequest .. => []
  | .syncUpdate .. => []
  | .syncUpdateAck .. => []
  | .pageRequest .. => []
  | .pageRecall .. => []
  | .recallAck .. => []
  | .driverRecall .. => []
  | .hostMemRequest .. => []
  | .hostSnoop .. => []
  | .backInvalidateResponse .. => []
  | .hostLinkDown .. => []
  | .hxCtlWrite .. => []
  | .functionReady .. => []
  | .dxpCtlWrite .. => []
  | .keyLoad .. => []
  | .keyErase .. => []
  | .securityAlarm .. => []
  | .snapshotHostTrigger .. => []
  | .snapshotTrigger .. => []
  | .snapshotLatch .. => []
  | .snapshotDistributionEnd .. => []
  | .snapshotDone .. => []
  | .planLoad .. => []
  | .planUnload .. => []
  | .precopyPass .. => []
  | .precopyPassEnd .. => []
  | .precopyRecordReceive .. => []
  | .lifetimeDump .. => []
  | .lifetimeCommit .. => []
  | .orderlyPowerDown .. => []
  | .reset .. => []
  | .fetchFault .. => []
  | .illegalEncoding .. => []
  | .powerManagerLimit .. => []
  | .powerLoss .. => []
  | .doeRequest .. => []
  | .cxlCacheResponse .. => []
  | .unauthenticatedFlit .. => []

/-- The mode, size, hint, register-number and type fields of R113 to R119, R192 to R196 and R225. -/
def Instr.modesOk : Instr → Bool
  | .faddF32 .. => true
  | .fsubF32 .. => true
  | .fmulF32 .. => true
  | .ffmaF32 .. => true
  | .fminF32 .. => true
  | .fmaxF32 .. => true
  | .fabsF32 .. => true
  | .fnegF32 .. => true
  | .frndF32 _ _ _ b => match b with | .k _ => true | _ => false
  | .fscaleF32 .. => true
  | .frcpF32 .. => true
  | .frsqF32 .. => true
  | .fsqrtF32 .. => true
  | .fex2F32 .. => true
  | .flg2F32 .. => true
  | .fclassF32 .. => true
  | .faddF16x2 .. => true
  | .fsubF16x2 .. => true
  | .fmulF16x2 .. => true
  | .ffmaF16x2 .. => true
  | .fminF16x2 .. => true
  | .fmaxF16x2 .. => true
  | .fdot2F16x2 .. => true
  | .faddBf16x2 .. => true
  | .fsubBf16x2 .. => true
  | .fmulBf16x2 .. => true
  | .ffmaBf16x2 .. => true
  | .fminBf16x2 .. => true
  | .fmaxBf16x2 .. => true
  | .fdot2Bf16x2 .. => true
  | .faddF64 .. => true
  | .fsubF64 .. => true
  | .fmulF64 .. => true
  | .ffmaF64 .. => true
  | .fminF64 .. => true
  | .fmaxF64 .. => true
  | .fcmpLtF64 .. => true
  | .fcmpEqF64 .. => true
  | .fcvt .. => true
  | .fcvtd _ _ _ code => code.val == 8 || code.val == 16 || code.val == 20
  | .cpy .. => true
  | .gath .. => true
  | .scat .. => true
  | .cpym .. => true
  | .xfer .. => true
  | .xmc .. => true
  | .fcmpEqF32 .. => true
  | .fcmpNeF32 .. => true
  | .fcmpLtF32 .. => true
  | .fcmpLeF32 .. => true
  | .fcmpGtF32 .. => true
  | .fcmpGeF32 .. => true
  | .icmpEqI32 .. => true
  | .icmpNeI32 .. => true
  | .icmpLtI32 .. => true
  | .icmpLeI32 .. => true
  | .icmpGtI32 .. => true
  | .icmpGeI32 .. => true
  | .icmpLtN32 .. => true
  | .icmpLeN32 .. => true
  | .icmpGtN32 .. => true
  | .icmpGeN32 .. => true
  | .iadd .. => true
  | .isub .. => true
  | .imul .. => true
  | .imulhI32 .. => true
  | .imulhN32 .. => true
  | .imad .. => true
  | .iminI32 .. => true
  | .iminN32 .. => true
  | .imaxI32 .. => true
  | .imaxN32 .. => true
  | .iabs .. => true
  | .and .. => true
  | .or .. => true
  | .xor .. => true
  | .andn .. => true
  | .shl .. => true
  | .shr .. => true
  | .sar .. => true
  | .rotl .. => true
  | .bfe .. => true
  | .bfi .. => true
  | .clz .. => true
  | .popc .. => true
  | .brev .. => true
  | .sel .. => true
  | .mov .. => true
  | .bmix .. => true
  | .leaS2 .. => true
  | .leaS3 .. => true
  | .iadd64 .. => true
  | .sataddI32 .. => true
  | .satsubI32 .. => true
  | .iaddI16x2 .. => true
  | .isubI16x2 .. => true
  | .iminI16x2 .. => true
  | .imaxI16x2 .. => true
  | .pdot2I16x2 .. => true
  | .pdot2sI16x2 .. => true
  | .pdot4I8x4 .. => true
  | .pdot4sI8x4 .. => true
  | .shrrI32 .. => true
  | .shrrsI16 .. => true
  | .packB16 .. => true
  | .unpklI16 .. => true
  | .unpkhI16 .. => true
  | .sataddI16x2 .. => true
  | .xlaneGet .. => true
  | .xlaneShift .. => true
  | .xlaneRot .. => true
  | .xlaneBfly .. => true
  | .push .. => true
  | .slideUp .. => true
  | .slideDown .. => true
  | .wredIadd .. => true
  | .wredImin .. => true
  | .wredImax .. => true
  | .wredFadd .. => true
  | .scanIadd .. => true
  | .plopAnd .. => true
  | .plopOr .. => true
  | .plopXor .. => true
  | .plopAndn .. => true
  | .get .. => true
  | .put .. => true
  | .get2 _ v _ => v.val % 2 == 0
  | .put2 _ v _ => v.val % 2 == 0
  | .vfmaF32 .. => true
  | .vaddF32 .. => true
  | .vaddI32 .. => true
  | .vswap .. => true
  | .ldB32 .. => true
  | .ldB64 .. => true
  | .ldB128 .. => true
  | .ldB16 .. => true
  | .ldB8 .. => true
  | .stB32 .. => true
  | .stB64 .. => true
  | .stB128 .. => true
  | .stB16 .. => true
  | .stB8 .. => true
  | .ldsB32 .. => true
  | .ldsB64 .. => true
  | .stsB32 .. => true
  | .stsB64 .. => true
  | .ldnB32 .. => true
  | .contribF32 .. => true
  | .movi .. => true
  | .addi .. => true
  | .andi .. => true
  | .ori .. => true
  | .shli .. => true
  | .shri .. => true
  | .lit .. => true
  | .lit2 .. => true
  | .bra .. => true
  | .call .. => true
  | .loop .. => true
  | .bhead .. => true
  | .nop .. => true
  | .exit .. => true
  | .ret .. => true
  | .brx .. => true
  | .breakLevel .. => true
  | .yield .. => true
  | .bar _ level s mode => 1 ≤ level.val && level.val ≤ 6 && mode.val != 3 && (level.val != 2 || s.val % 2 == 0)
  | .trigger .. => true
  | .launch .. => true
  | .trap .. => true
  | .svc .. => true
  | .rft .. => true
  | .commit .. => true
  | .settile _ size => 1 ≤ size.val && size.val ≤ 5
  | .elect .. => true
  | .getsr _ _ num => num.val < 24
  | .setsr _ _ num => (9 ≤ num.val && num.val ≤ 14) || (21 ≤ num.val && num.val ≤ 23)
  | .sget .. => true
  | .smov .. => true
  | .sadd .. => true
  | .pjoin .. => true
  | .pmask .. => true
  | .peers _ _ _ mode => mode.val ≤ 1
  | .movsa .. => true
  | .rdecl .. => true
  | .kset .. => true
  | .kwait .. => true
  | .krel .. => true
  | .kprod .. => true
  | .kroom .. => true
  | .qfence .. => true
  | .drain .. => true
  | .mbegin .. => true
  | .mend .. => true
  | .mma _ acc t _ _ => t.val ≤ 4 && (t.val != 4 || acc.val % 2 == 0)
  | .mmas _ acc t _ _ => t.val ≤ 4 && (t.val != 4 || acc.val % 2 == 0)
  | .mzero .. => true
  | .mst _ _ sty dith _ => sty.val != 3 && !(dith && sty.val == 0)
  | .mld .. => true
  | .mcontrib .. => true
  | .itset .. => true
  | .sweep _ op _ _ itb => op.val != 0 || itb.val == 0
  | .waitcnt .. => true
  | .pref _ _ _ hint => hint.val != 3
  | .salloc .. => true
  | .sfree .. => true
  | .atomIadd _ _ a m => a.val < 12 && m.val ≤ 1
  | .atomImin _ _ a m => a.val < 12 && m.val ≤ 3
  | .atomImax _ _ a m => a.val < 12 && m.val ≤ 3
  | .atomLogic _ _ a m => a.val < 12 && m.val ≤ 5
  | .atomXchg _ _ a m => a.val < 12 && m.val ≤ 1
  | .atomFmin _ _ a m => a.val < 12 && m.val ≤ 3
  | .atomFmax _ _ a m => a.val < 12 && m.val ≤ 3
  | .cas _ _ a m => a.val < 12 && m.val ≤ 2
  | .gemvn .. => true
  | .coll .. => true
  | .snap .. => true
  | .loadDataReturn .. => true
  | .waitcntRelease .. => true
  | .kroomGrant .. => true
  | .kwaitGrant .. => true
  | .barrierComplete .. => true
  | .windowCommit .. => true
  | .bundleRegroup .. => true
  | .counterPromotion .. => true
  | .warpUrgent .. => true
  | .copyEntryStart .. => true
  | .cpymDelivery .. => true
  | .engineElementFault .. => true
  | .engineCompletion .. => true
  | .matrixPassStart .. => true
  | .kStepFinish .. => true
  | .gemvnStart .. => true
  | .collInstanceStart .. => true
  | .workEntryFire .. => true
  | .collComplete .. => true
  | .lullArrival .. => true
  | .lineDone .. => true
  | .launchStart .. => true
  | .blockPlacement .. => true
  | .launchComplete .. => true
  | .registerWrite .. => true
  | .engineFaultEntry .. => true
  | .softErrorTrap .. => true
  | .rollback .. => true
  | .softErrorEvent .. => true
  | .lullForwardTimeout .. => true
  | .flitTransmit .. => true
  | .controlFlitSend .. => true
  | .controlFlit .. => true
  | .requestFlit .. => true
  | .responseFlit .. => true
  | .bulkWriteFlit .. => true
  | .multicastFlit .. => true
  | .lullEntryFlit .. => true
  | .planWriteFlit .. => true
  | .keySwitchMarker .. => true
  | .reservedKindFlit .. => true
  | .replayTimeout .. => true
  | .keySwitch .. => true
  | .deviceLost .. => true
  | .allowanceRegrant .. => true
  | .grantReturn .. => true
  | .becalmedWake .. => true
  | .uePacketReceive .. => true
  | .uePeerUnreachable .. => true
  | .queueTailWrite .. => true
  | .carveOutWrite .. => true
  | .carveOutDone .. => true
  | .pmCoreWrite .. => true
  | .tlbInvalidate .. => true
  | .tlbInvalidateDone .. => true
  | .spillAreaMove .. => true
  | .preemptRequest .. => true
  | .contextSave .. => true
  | .contextRestore .. => true
  | .preemptComplete .. => true
  | .engineFaultResume .. => true
  | .engineFaultAbandon .. => true
  | .efCfgWrite .. => true
  | .efHeadWrite .. => true
  | .directoryRequest .. => true
  | .syncUpdate .. => true
  | .syncUpdateAck .. => true
  | .pageRequest .. => true
  | .pageRecall .. => true
  | .recallAck .. => true
  | .driverRecall .. => true
  | .hostMemRequest .. => true
  | .hostSnoop .. => true
  | .backInvalidateResponse .. => true
  | .hostLinkDown .. => true
  | .hxCtlWrite .. => true
  | .functionReady .. => true
  | .dxpCtlWrite .. => true
  | .keyLoad .. => true
  | .keyErase .. => true
  | .securityAlarm .. => true
  | .snapshotHostTrigger .. => true
  | .snapshotTrigger .. => true
  | .snapshotLatch .. => true
  | .snapshotDistributionEnd .. => true
  | .snapshotDone .. => true
  | .planLoad .. => true
  | .planUnload .. => true
  | .precopyPass .. => true
  | .precopyPassEnd .. => true
  | .precopyRecordReceive .. => true
  | .lifetimeDump .. => true
  | .lifetimeCommit .. => true
  | .orderlyPowerDown .. => true
  | .reset .. => true
  | .fetchFault .. => true
  | .illegalEncoding .. => true
  | .powerManagerLimit .. => true
  | .powerLoss .. => true
  | .doeRequest .. => true
  | .cxlCacheResponse .. => true
  | .unauthenticatedFlit .. => true

/-- Item 4 of R124: every selector within its role's limits and every mode field in range. -/
def Instr.wellFormed (i : Instr) : Bool := i.modesOk && i.operands.all Opnd.ok

/-- The header of an instruction word; `none` for a step that is no word. -/
def Instr.hdr? : Instr → Option Hdr
  | .faddF32 h .. => some h
  | .fsubF32 h .. => some h
  | .fmulF32 h .. => some h
  | .ffmaF32 h .. => some h
  | .fminF32 h .. => some h
  | .fmaxF32 h .. => some h
  | .fabsF32 h .. => some h
  | .fnegF32 h .. => some h
  | .frndF32 h .. => some h
  | .fscaleF32 h .. => some h
  | .frcpF32 h .. => some h
  | .frsqF32 h .. => some h
  | .fsqrtF32 h .. => some h
  | .fex2F32 h .. => some h
  | .flg2F32 h .. => some h
  | .fclassF32 h .. => some h
  | .faddF16x2 h .. => some h
  | .fsubF16x2 h .. => some h
  | .fmulF16x2 h .. => some h
  | .ffmaF16x2 h .. => some h
  | .fminF16x2 h .. => some h
  | .fmaxF16x2 h .. => some h
  | .fdot2F16x2 h .. => some h
  | .faddBf16x2 h .. => some h
  | .fsubBf16x2 h .. => some h
  | .fmulBf16x2 h .. => some h
  | .ffmaBf16x2 h .. => some h
  | .fminBf16x2 h .. => some h
  | .fmaxBf16x2 h .. => some h
  | .fdot2Bf16x2 h .. => some h
  | .faddF64 h .. => some h
  | .fsubF64 h .. => some h
  | .fmulF64 h .. => some h
  | .ffmaF64 h .. => some h
  | .fminF64 h .. => some h
  | .fmaxF64 h .. => some h
  | .fcmpLtF64 h .. => some h
  | .fcmpEqF64 h .. => some h
  | .fcvt h .. => some h
  | .fcvtd h .. => some h
  | .cpy h .. => some h
  | .gath h .. => some h
  | .scat h .. => some h
  | .cpym h .. => some h
  | .xfer h .. => some h
  | .xmc h .. => some h
  | .fcmpEqF32 h .. => some h
  | .fcmpNeF32 h .. => some h
  | .fcmpLtF32 h .. => some h
  | .fcmpLeF32 h .. => some h
  | .fcmpGtF32 h .. => some h
  | .fcmpGeF32 h .. => some h
  | .icmpEqI32 h .. => some h
  | .icmpNeI32 h .. => some h
  | .icmpLtI32 h .. => some h
  | .icmpLeI32 h .. => some h
  | .icmpGtI32 h .. => some h
  | .icmpGeI32 h .. => some h
  | .icmpLtN32 h .. => some h
  | .icmpLeN32 h .. => some h
  | .icmpGtN32 h .. => some h
  | .icmpGeN32 h .. => some h
  | .iadd h .. => some h
  | .isub h .. => some h
  | .imul h .. => some h
  | .imulhI32 h .. => some h
  | .imulhN32 h .. => some h
  | .imad h .. => some h
  | .iminI32 h .. => some h
  | .iminN32 h .. => some h
  | .imaxI32 h .. => some h
  | .imaxN32 h .. => some h
  | .iabs h .. => some h
  | .and h .. => some h
  | .or h .. => some h
  | .xor h .. => some h
  | .andn h .. => some h
  | .shl h .. => some h
  | .shr h .. => some h
  | .sar h .. => some h
  | .rotl h .. => some h
  | .bfe h .. => some h
  | .bfi h .. => some h
  | .clz h .. => some h
  | .popc h .. => some h
  | .brev h .. => some h
  | .sel h .. => some h
  | .mov h .. => some h
  | .bmix h .. => some h
  | .leaS2 h .. => some h
  | .leaS3 h .. => some h
  | .iadd64 h .. => some h
  | .sataddI32 h .. => some h
  | .satsubI32 h .. => some h
  | .iaddI16x2 h .. => some h
  | .isubI16x2 h .. => some h
  | .iminI16x2 h .. => some h
  | .imaxI16x2 h .. => some h
  | .pdot2I16x2 h .. => some h
  | .pdot2sI16x2 h .. => some h
  | .pdot4I8x4 h .. => some h
  | .pdot4sI8x4 h .. => some h
  | .shrrI32 h .. => some h
  | .shrrsI16 h .. => some h
  | .packB16 h .. => some h
  | .unpklI16 h .. => some h
  | .unpkhI16 h .. => some h
  | .sataddI16x2 h .. => some h
  | .xlaneGet h .. => some h
  | .xlaneShift h .. => some h
  | .xlaneRot h .. => some h
  | .xlaneBfly h .. => some h
  | .push h .. => some h
  | .slideUp h .. => some h
  | .slideDown h .. => some h
  | .wredIadd h .. => some h
  | .wredImin h .. => some h
  | .wredImax h .. => some h
  | .wredFadd h .. => some h
  | .scanIadd h .. => some h
  | .plopAnd h .. => some h
  | .plopOr h .. => some h
  | .plopXor h .. => some h
  | .plopAndn h .. => some h
  | .get h .. => some h
  | .put h .. => some h
  | .get2 h .. => some h
  | .put2 h .. => some h
  | .vfmaF32 h .. => some h
  | .vaddF32 h .. => some h
  | .vaddI32 h .. => some h
  | .vswap h .. => some h
  | .ldB32 h .. => some h
  | .ldB64 h .. => some h
  | .ldB128 h .. => some h
  | .ldB16 h .. => some h
  | .ldB8 h .. => some h
  | .stB32 h .. => some h
  | .stB64 h .. => some h
  | .stB128 h .. => some h
  | .stB16 h .. => some h
  | .stB8 h .. => some h
  | .ldsB32 h .. => some h
  | .ldsB64 h .. => some h
  | .stsB32 h .. => some h
  | .stsB64 h .. => some h
  | .ldnB32 h .. => some h
  | .contribF32 h .. => some h
  | .movi h .. => some h
  | .addi h .. => some h
  | .andi h .. => some h
  | .ori h .. => some h
  | .shli h .. => some h
  | .shri h .. => some h
  | .lit h .. => some h
  | .lit2 h .. => some h
  | .bra h .. => some h
  | .call h .. => some h
  | .loop h .. => some h
  | .bhead h .. => some h
  | .nop h .. => some h
  | .exit h .. => some h
  | .ret h .. => some h
  | .brx h .. => some h
  | .breakLevel h .. => some h
  | .yield h .. => some h
  | .bar h .. => some h
  | .trigger h .. => some h
  | .launch h .. => some h
  | .trap h .. => some h
  | .svc h .. => some h
  | .rft h .. => some h
  | .commit h .. => some h
  | .settile h .. => some h
  | .elect h .. => some h
  | .getsr h .. => some h
  | .setsr h .. => some h
  | .sget h .. => some h
  | .smov h .. => some h
  | .sadd h .. => some h
  | .pjoin h .. => some h
  | .pmask h .. => some h
  | .peers h .. => some h
  | .movsa h .. => some h
  | .rdecl h .. => some h
  | .kset h .. => some h
  | .kwait h .. => some h
  | .krel h .. => some h
  | .kprod h .. => some h
  | .kroom h .. => some h
  | .qfence h .. => some h
  | .drain h .. => some h
  | .mbegin h .. => some h
  | .mend h .. => some h
  | .mma h .. => some h
  | .mmas h .. => some h
  | .mzero h .. => some h
  | .mst h .. => some h
  | .mld h .. => some h
  | .mcontrib h .. => some h
  | .itset h .. => some h
  | .sweep h .. => some h
  | .waitcnt h .. => some h
  | .pref h .. => some h
  | .salloc h .. => some h
  | .sfree h .. => some h
  | .atomIadd h .. => some h
  | .atomImin h .. => some h
  | .atomImax h .. => some h
  | .atomLogic h .. => some h
  | .atomXchg h .. => some h
  | .atomFmin h .. => some h
  | .atomFmax h .. => some h
  | .cas h .. => some h
  | .gemvn h .. => some h
  | .coll h .. => some h
  | .snap h .. => some h
  | .loadDataReturn .. => none
  | .waitcntRelease .. => none
  | .kroomGrant .. => none
  | .kwaitGrant .. => none
  | .barrierComplete .. => none
  | .windowCommit .. => none
  | .bundleRegroup .. => none
  | .counterPromotion .. => none
  | .warpUrgent .. => none
  | .copyEntryStart .. => none
  | .cpymDelivery .. => none
  | .engineElementFault .. => none
  | .engineCompletion .. => none
  | .matrixPassStart .. => none
  | .kStepFinish .. => none
  | .gemvnStart .. => none
  | .collInstanceStart .. => none
  | .workEntryFire .. => none
  | .collComplete .. => none
  | .lullArrival .. => none
  | .lineDone .. => none
  | .launchStart .. => none
  | .blockPlacement .. => none
  | .launchComplete .. => none
  | .registerWrite .. => none
  | .engineFaultEntry .. => none
  | .softErrorTrap .. => none
  | .rollback .. => none
  | .softErrorEvent .. => none
  | .lullForwardTimeout .. => none
  | .flitTransmit .. => none
  | .controlFlitSend .. => none
  | .controlFlit .. => none
  | .requestFlit .. => none
  | .responseFlit .. => none
  | .bulkWriteFlit .. => none
  | .multicastFlit .. => none
  | .lullEntryFlit .. => none
  | .planWriteFlit .. => none
  | .keySwitchMarker .. => none
  | .reservedKindFlit .. => none
  | .replayTimeout .. => none
  | .keySwitch .. => none
  | .deviceLost .. => none
  | .allowanceRegrant .. => none
  | .grantReturn .. => none
  | .becalmedWake .. => none
  | .uePacketReceive .. => none
  | .uePeerUnreachable .. => none
  | .queueTailWrite .. => none
  | .carveOutWrite .. => none
  | .carveOutDone .. => none
  | .pmCoreWrite .. => none
  | .tlbInvalidate .. => none
  | .tlbInvalidateDone .. => none
  | .spillAreaMove .. => none
  | .preemptRequest .. => none
  | .contextSave .. => none
  | .contextRestore .. => none
  | .preemptComplete .. => none
  | .engineFaultResume .. => none
  | .engineFaultAbandon .. => none
  | .efCfgWrite .. => none
  | .efHeadWrite .. => none
  | .directoryRequest .. => none
  | .syncUpdate .. => none
  | .syncUpdateAck .. => none
  | .pageRequest .. => none
  | .pageRecall .. => none
  | .recallAck .. => none
  | .driverRecall .. => none
  | .hostMemRequest .. => none
  | .hostSnoop .. => none
  | .backInvalidateResponse .. => none
  | .hostLinkDown .. => none
  | .hxCtlWrite .. => none
  | .functionReady .. => none
  | .dxpCtlWrite .. => none
  | .keyLoad .. => none
  | .keyErase .. => none
  | .securityAlarm .. => none
  | .snapshotHostTrigger .. => none
  | .snapshotTrigger .. => none
  | .snapshotLatch .. => none
  | .snapshotDistributionEnd .. => none
  | .snapshotDone .. => none
  | .planLoad .. => none
  | .planUnload .. => none
  | .precopyPass .. => none
  | .precopyPassEnd .. => none
  | .precopyRecordReceive .. => none
  | .lifetimeDump .. => none
  | .lifetimeCommit .. => none
  | .orderlyPowerDown .. => none
  | .reset .. => none
  | .fetchFault .. => none
  | .illegalEncoding .. => none
  | .powerManagerLimit .. => none
  | .powerLoss .. => none
  | .doeRequest .. => none
  | .cxlCacheResponse .. => none
  | .unauthenticatedFlit .. => none

end Sys2Proof
end

