-- ==== Sys2Proof/Decode.lean ====
section
/-! DEFINITION. The encodings of R100 to R123: the decoder, total on every word and refusing by name, and after it the
encoder, written from the same tables. A word with a selector or mode outside its limits decodes; it traps
`ILLEGAL_OPERAND` when it issues (R124 item 4). -/
namespace Sys2Proof

/-- Why a word is not an instruction: the causes of `ILLEGAL_INSTRUCTION` in R123. -/
inductive DecodeError where
  | noWord | unassigned | header | reserved | unguardedSel | literalPastPacket | loopLength
deriving DecidableEq, Repr

/-- Bits [lo + width - 1 : lo] of `x`. -/
def fld (x lo width : Nat) : Nat := x / 2 ^ lo % 2 ^ width

/-- The near operand of a five-bit selector (R110). -/
def Near.ofNat (x : Nat) : Near :=
  if x < 16 then .q (Fin.ofNat 16 x)
  else if x < 20 then .y (Fin.ofNat 4 (x - 16))
  else if x < 28 then .s (Fin.ofNat 8 (x - 20))
  else .k (Fin.ofNat 4 (x - 28))

/-- The five-bit selector of a near operand (R110). -/
def Near.toNat : Near → Nat
  | .q n => n.val
  | .y n => 16 + n.val
  | .s n => 20 + n.val
  | .k n => 28 + n.val

/-- The header bits C, E, G, N, W (R100); E = 0 with G or N nonzero is refused (R101). -/
def decodeHdr (x : Nat) : Except DecodeError Hdr :=
  let c := fld x 8 1 == 1
  let w := Fin.ofNat 4 (fld x 0 2)
  if fld x 7 1 = 1 then .ok ⟨c, some (Fin.ofNat 16 (fld x 3 4), fld x 2 1 == 1), w⟩
  else if fld x 2 5 = 0 then .ok ⟨c, none, w⟩
  else .error .header

/-- The nine header bits of a word (R100). -/
def Hdr.bits (h : Hdr) : Nat :=
  (if h.c then 1 else 0) * 2 ^ 8 +
    (match h.guard with
     | none => 0
     | some (g, n) => 2 ^ 7 + g.val * 2 ^ 3 + (if n then 1 else 0) * 2 ^ 2) + h.w.val

/-- A word whose reserved bits are all zero is `i`; any other is refused (R113 to R118). -/
def orReserved (zero : Bool) (i : Instr) : Except DecodeError Instr :=
  if zero then .ok i else .error .reserved

/-- Format A, op[21:15] (R113, R120). -/
def decodeA (h : Hdr) (op x : Nat) : Except DecodeError Instr :=
  match op with
  | 0 => .ok (.faddF32 h (.ofNat (fld x 10 5)) (.ofNat (fld x 5 5)) (.ofNat (fld x 0 5)))
  | 1 => .ok (.fsubF32 h (.ofNat (fld x 10 5)) (.ofNat (fld x 5 5)) (.ofNat (fld x 0 5)))
  | 2 => .ok (.fmulF32 h (.ofNat (fld x 10 5)) (.ofNat (fld x 5 5)) (.ofNat (fld x 0 5)))
  | 3 => .ok (.ffmaF32 h (.ofNat (fld x 10 5)) (.ofNat (fld x 5 5)) (.ofNat (fld x 0 5)))
  | 4 => .ok (.fminF32 h (.ofNat (fld x 10 5)) (.ofNat (fld x 5 5)) (.ofNat (fld x 0 5)))
  | 5 => .ok (.fmaxF32 h (.ofNat (fld x 10 5)) (.ofNat (fld x 5 5)) (.ofNat (fld x 0 5)))
  | 6 => orReserved (fld x 0 5 == 0) (.fabsF32 h (.ofNat (fld x 10 5)) (.ofNat (fld x 5 5)))
  | 7 => orReserved (fld x 0 5 == 0) (.fnegF32 h (.ofNat (fld x 10 5)) (.ofNat (fld x 5 5)))
  | 8 => .ok (.frndF32 h (.ofNat (fld x 10 5)) (.ofNat (fld x 5 5)) (.ofNat (fld x 0 5)))
  | 9 => .ok (.fscaleF32 h (.ofNat (fld x 10 5)) (.ofNat (fld x 5 5)) (.ofNat (fld x 0 5)))
  | 10 => orReserved (fld x 0 5 == 0) (.frcpF32 h (.ofNat (fld x 10 5)) (.ofNat (fld x 5 5)))
  | 11 => orReserved (fld x 0 5 == 0) (.frsqF32 h (.ofNat (fld x 10 5)) (.ofNat (fld x 5 5)))
  | 12 => orReserved (fld x 0 5 == 0) (.fsqrtF32 h (.ofNat (fld x 10 5)) (.ofNat (fld x 5 5)))
  | 13 => orReserved (fld x 0 5 == 0) (.fex2F32 h (.ofNat (fld x 10 5)) (.ofNat (fld x 5 5)))
  | 14 => orReserved (fld x 0 5 == 0) (.flg2F32 h (.ofNat (fld x 10 5)) (.ofNat (fld x 5 5)))
  | 15 => orReserved (fld x 0 5 == 0) (.fclassF32 h (.ofNat (fld x 10 5)) (.ofNat (fld x 5 5)))
  | 16 => .ok (.faddF16x2 h (.ofNat (fld x 10 5)) (.ofNat (fld x 5 5)) (.ofNat (fld x 0 5)))
  | 17 => .ok (.fsubF16x2 h (.ofNat (fld x 10 5)) (.ofNat (fld x 5 5)) (.ofNat (fld x 0 5)))
  | 18 => .ok (.fmulF16x2 h (.ofNat (fld x 10 5)) (.ofNat (fld x 5 5)) (.ofNat (fld x 0 5)))
  | 19 => .ok (.ffmaF16x2 h (.ofNat (fld x 10 5)) (.ofNat (fld x 5 5)) (.ofNat (fld x 0 5)))
  | 20 => .ok (.fminF16x2 h (.ofNat (fld x 10 5)) (.ofNat (fld x 5 5)) (.ofNat (fld x 0 5)))
  | 21 => .ok (.fmaxF16x2 h (.ofNat (fld x 10 5)) (.ofNat (fld x 5 5)) (.ofNat (fld x 0 5)))
  | 22 => .ok (.fdot2F16x2 h (.ofNat (fld x 10 5)) (.ofNat (fld x 5 5)) (.ofNat (fld x 0 5)))
  | 24 => .ok (.faddBf16x2 h (.ofNat (fld x 10 5)) (.ofNat (fld x 5 5)) (.ofNat (fld x 0 5)))
  | 25 => .ok (.fsubBf16x2 h (.ofNat (fld x 10 5)) (.ofNat (fld x 5 5)) (.ofNat (fld x 0 5)))
  | 26 => .ok (.fmulBf16x2 h (.ofNat (fld x 10 5)) (.ofNat (fld x 5 5)) (.ofNat (fld x 0 5)))
  | 27 => .ok (.ffmaBf16x2 h (.ofNat (fld x 10 5)) (.ofNat (fld x 5 5)) (.ofNat (fld x 0 5)))
  | 28 => .ok (.fminBf16x2 h (.ofNat (fld x 10 5)) (.ofNat (fld x 5 5)) (.ofNat (fld x 0 5)))
  | 29 => .ok (.fmaxBf16x2 h (.ofNat (fld x 10 5)) (.ofNat (fld x 5 5)) (.ofNat (fld x 0 5)))
  | 30 => .ok (.fdot2Bf16x2 h (.ofNat (fld x 10 5)) (.ofNat (fld x 5 5)) (.ofNat (fld x 0 5)))
  | 32 => .ok (.faddF64 h (.ofNat (fld x 10 5)) (.ofNat (fld x 5 5)) (.ofNat (fld x 0 5)))
  | 33 => .ok (.fsubF64 h (.ofNat (fld x 10 5)) (.ofNat (fld x 5 5)) (.ofNat (fld x 0 5)))
  | 34 => .ok (.fmulF64 h (.ofNat (fld x 10 5)) (.ofNat (fld x 5 5)) (.ofNat (fld x 0 5)))
  | 35 => .ok (.ffmaF64 h (.ofNat (fld x 10 5)) (.ofNat (fld x 5 5)) (.ofNat (fld x 0 5)))
  | 36 => .ok (.fminF64 h (.ofNat (fld x 10 5)) (.ofNat (fld x 5 5)) (.ofNat (fld x 0 5)))
  | 37 => .ok (.fmaxF64 h (.ofNat (fld x 10 5)) (.ofNat (fld x 5 5)) (.ofNat (fld x 0 5)))
  | 38 => .ok (.fcmpLtF64 h ((fld x 14 1) == 1) (Fin.ofNat 16 (fld x 10 4)) (.ofNat (fld x 5 5)) (.ofNat (fld x 0 5)))
  | 39 => .ok (.fcmpEqF64 h ((fld x 14 1) == 1) (Fin.ofNat 16 (fld x 10 4)) (.ofNat (fld x 5 5)) (.ofNat (fld x 0 5)))
  | 40 => .ok (.fcvt h (.ofNat (fld x 10 5)) (.ofNat (fld x 5 5)) (Fin.ofNat 32 (fld x 0 5)))
  | 41 => .ok (.fcvtd h (.ofNat (fld x 10 5)) (.ofNat (fld x 5 5)) (Fin.ofNat 32 (fld x 0 5)))
  | 42 => .ok (.cpy h (.ofNat (fld x 10 5)) (.ofNat (fld x 5 5)) (.ofNat (fld x 0 5)))
  | 43 => .ok (.gath h (.ofNat (fld x 10 5)) (.ofNat (fld x 5 5)) (.ofNat (fld x 0 5)))
  | 44 => .ok (.scat h (.ofNat (fld x 10 5)) (.ofNat (fld x 5 5)) (.ofNat (fld x 0 5)))
  | 45 => .ok (.cpym h (.ofNat (fld x 10 5)) (.ofNat (fld x 5 5)) (.ofNat (fld x 0 5)))
  | 46 => orReserved (fld x 0 10 == 0) (.xfer h (.ofNat (fld x 10 5)))
  | 47 => orReserved (fld x 0 10 == 0) (.xmc h (.ofNat (fld x 10 5)))
  | 48 => .ok (.fcmpEqF32 h ((fld x 14 1) == 1) (Fin.ofNat 16 (fld x 10 4)) (.ofNat (fld x 5 5)) (.ofNat (fld x 0 5)))
  | 49 => .ok (.fcmpNeF32 h ((fld x 14 1) == 1) (Fin.ofNat 16 (fld x 10 4)) (.ofNat (fld x 5 5)) (.ofNat (fld x 0 5)))
  | 50 => .ok (.fcmpLtF32 h ((fld x 14 1) == 1) (Fin.ofNat 16 (fld x 10 4)) (.ofNat (fld x 5 5)) (.ofNat (fld x 0 5)))
  | 51 => .ok (.fcmpLeF32 h ((fld x 14 1) == 1) (Fin.ofNat 16 (fld x 10 4)) (.ofNat (fld x 5 5)) (.ofNat (fld x 0 5)))
  | 52 => .ok (.fcmpGtF32 h ((fld x 14 1) == 1) (Fin.ofNat 16 (fld x 10 4)) (.ofNat (fld x 5 5)) (.ofNat (fld x 0 5)))
  | 53 => .ok (.fcmpGeF32 h ((fld x 14 1) == 1) (Fin.ofNat 16 (fld x 10 4)) (.ofNat (fld x 5 5)) (.ofNat (fld x 0 5)))
  | 54 => .ok (.icmpEqI32 h ((fld x 14 1) == 1) (Fin.ofNat 16 (fld x 10 4)) (.ofNat (fld x 5 5)) (.ofNat (fld x 0 5)))
  | 55 => .ok (.icmpNeI32 h ((fld x 14 1) == 1) (Fin.ofNat 16 (fld x 10 4)) (.ofNat (fld x 5 5)) (.ofNat (fld x 0 5)))
  | 56 => .ok (.icmpLtI32 h ((fld x 14 1) == 1) (Fin.ofNat 16 (fld x 10 4)) (.ofNat (fld x 5 5)) (.ofNat (fld x 0 5)))
  | 57 => .ok (.icmpLeI32 h ((fld x 14 1) == 1) (Fin.ofNat 16 (fld x 10 4)) (.ofNat (fld x 5 5)) (.ofNat (fld x 0 5)))
  | 58 => .ok (.icmpGtI32 h ((fld x 14 1) == 1) (Fin.ofNat 16 (fld x 10 4)) (.ofNat (fld x 5 5)) (.ofNat (fld x 0 5)))
  | 59 => .ok (.icmpGeI32 h ((fld x 14 1) == 1) (Fin.ofNat 16 (fld x 10 4)) (.ofNat (fld x 5 5)) (.ofNat (fld x 0 5)))
  | 60 => .ok (.icmpLtN32 h ((fld x 14 1) == 1) (Fin.ofNat 16 (fld x 10 4)) (.ofNat (fld x 5 5)) (.ofNat (fld x 0 5)))
  | 61 => .ok (.icmpLeN32 h ((fld x 14 1) == 1) (Fin.ofNat 16 (fld x 10 4)) (.ofNat (fld x 5 5)) (.ofNat (fld x 0 5)))
  | 62 => .ok (.icmpGtN32 h ((fld x 14 1) == 1) (Fin.ofNat 16 (fld x 10 4)) (.ofNat (fld x 5 5)) (.ofNat (fld x 0 5)))
  | 63 => .ok (.icmpGeN32 h ((fld x 14 1) == 1) (Fin.ofNat 16 (fld x 10 4)) (.ofNat (fld x 5 5)) (.ofNat (fld x 0 5)))
  | 64 => .ok (.iadd h (.ofNat (fld x 10 5)) (.ofNat (fld x 5 5)) (.ofNat (fld x 0 5)))
  | 65 => .ok (.isub h (.ofNat (fld x 10 5)) (.ofNat (fld x 5 5)) (.ofNat (fld x 0 5)))
  | 66 => .ok (.imul h (.ofNat (fld x 10 5)) (.ofNat (fld x 5 5)) (.ofNat (fld x 0 5)))
  | 67 => .ok (.imulhI32 h (.ofNat (fld x 10 5)) (.ofNat (fld x 5 5)) (.ofNat (fld x 0 5)))
  | 68 => .ok (.imulhN32 h (.ofNat (fld x 10 5)) (.ofNat (fld x 5 5)) (.ofNat (fld x 0 5)))
  | 69 => .ok (.imad h (.ofNat (fld x 10 5)) (.ofNat (fld x 5 5)) (.ofNat (fld x 0 5)))
  | 70 => .ok (.iminI32 h (.ofNat (fld x 10 5)) (.ofNat (fld x 5 5)) (.ofNat (fld x 0 5)))
  | 71 => .ok (.iminN32 h (.ofNat (fld x 10 5)) (.ofNat (fld x 5 5)) (.ofNat (fld x 0 5)))
  | 72 => .ok (.imaxI32 h (.ofNat (fld x 10 5)) (.ofNat (fld x 5 5)) (.ofNat (fld x 0 5)))
  | 73 => .ok (.imaxN32 h (.ofNat (fld x 10 5)) (.ofNat (fld x 5 5)) (.ofNat (fld x 0 5)))
  | 74 => orReserved (fld x 0 5 == 0) (.iabs h (.ofNat (fld x 10 5)) (.ofNat (fld x 5 5)))
  | 75 => .ok (.and h (.ofNat (fld x 10 5)) (.ofNat (fld x 5 5)) (.ofNat (fld x 0 5)))
  | 76 => .ok (.or h (.ofNat (fld x 10 5)) (.ofNat (fld x 5 5)) (.ofNat (fld x 0 5)))
  | 77 => .ok (.xor h (.ofNat (fld x 10 5)) (.ofNat (fld x 5 5)) (.ofNat (fld x 0 5)))
  | 78 => .ok (.andn h (.ofNat (fld x 10 5)) (.ofNat (fld x 5 5)) (.ofNat (fld x 0 5)))
  | 79 => .ok (.shl h (.ofNat (fld x 10 5)) (.ofNat (fld x 5 5)) (.ofNat (fld x 0 5)))
  | 80 => .ok (.shr h (.ofNat (fld x 10 5)) (.ofNat (fld x 5 5)) (.ofNat (fld x 0 5)))
  | 81 => .ok (.sar h (.ofNat (fld x 10 5)) (.ofNat (fld x 5 5)) (.ofNat (fld x 0 5)))
  | 82 => .ok (.rotl h (.ofNat (fld x 10 5)) (.ofNat (fld x 5 5)) (.ofNat (fld x 0 5)))
  | 83 => .ok (.bfe h (.ofNat (fld x 10 5)) (.ofNat (fld x 5 5)) (.ofNat (fld x 0 5)))
  | 84 => .ok (.bfi h (.ofNat (fld x 10 5)) (.ofNat (fld x 5 5)) (.ofNat (fld x 0 5)))
  | 85 => orReserved (fld x 0 5 == 0) (.clz h (.ofNat (fld x 10 5)) (.ofNat (fld x 5 5)))
  | 86 => orReserved (fld x 0 5 == 0) (.popc h (.ofNat (fld x 10 5)) (.ofNat (fld x 5 5)))
  | 87 => orReserved (fld x 0 5 == 0) (.brev h (.ofNat (fld x 10 5)) (.ofNat (fld x 5 5)))
  | 88 => if h.guard.isSome then .ok (.sel h (.ofNat (fld x 10 5)) (.ofNat (fld x 5 5)) (.ofNat (fld x 0 5))) else .error .unguardedSel
  | 89 => orReserved (fld x 0 5 == 0) (.mov h (.ofNat (fld x 10 5)) (.ofNat (fld x 5 5)))
  | 90 => .ok (.bmix h (.ofNat (fld x 10 5)) (.ofNat (fld x 5 5)) (.ofNat (fld x 0 5)))
  | 91 => .ok (.leaS2 h (.ofNat (fld x 10 5)) (.ofNat (fld x 5 5)) (.ofNat (fld x 0 5)))
  | 92 => .ok (.leaS3 h (.ofNat (fld x 10 5)) (.ofNat (fld x 5 5)) (.ofNat (fld x 0 5)))
  | 93 => .ok (.iadd64 h (.ofNat (fld x 10 5)) (.ofNat (fld x 5 5)) (.ofNat (fld x 0 5)))
  | 94 => .ok (.sataddI32 h (.ofNat (fld x 10 5)) (.ofNat (fld x 5 5)) (.ofNat (fld x 0 5)))
  | 95 => .ok (.satsubI32 h (.ofNat (fld x 10 5)) (.ofNat (fld x 5 5)) (.ofNat (fld x 0 5)))
  | 96 => .ok (.iaddI16x2 h (.ofNat (fld x 10 5)) (.ofNat (fld x 5 5)) (.ofNat (fld x 0 5)))
  | 97 => .ok (.isubI16x2 h (.ofNat (fld x 10 5)) (.ofNat (fld x 5 5)) (.ofNat (fld x 0 5)))
  | 98 => .ok (.iminI16x2 h (.ofNat (fld x 10 5)) (.ofNat (fld x 5 5)) (.ofNat (fld x 0 5)))
  | 99 => .ok (.imaxI16x2 h (.ofNat (fld x 10 5)) (.ofNat (fld x 5 5)) (.ofNat (fld x 0 5)))
  | 100 => .ok (.pdot2I16x2 h (.ofNat (fld x 10 5)) (.ofNat (fld x 5 5)) (.ofNat (fld x 0 5)))
  | 101 => .ok (.pdot2sI16x2 h (.ofNat (fld x 10 5)) (.ofNat (fld x 5 5)) (.ofNat (fld x 0 5)))
  | 102 => .ok (.pdot4I8x4 h (.ofNat (fld x 10 5)) (.ofNat (fld x 5 5)) (.ofNat (fld x 0 5)))
  | 103 => .ok (.pdot4sI8x4 h (.ofNat (fld x 10 5)) (.ofNat (fld x 5 5)) (.ofNat (fld x 0 5)))
  | 104 => .ok (.shrrI32 h (.ofNat (fld x 10 5)) (.ofNat (fld x 5 5)) (.ofNat (fld x 0 5)))
  | 105 => .ok (.shrrsI16 h (.ofNat (fld x 10 5)) (.ofNat (fld x 5 5)) (.ofNat (fld x 0 5)))
  | 106 => .ok (.packB16 h (.ofNat (fld x 10 5)) (.ofNat (fld x 5 5)) (.ofNat (fld x 0 5)))
  | 107 => orReserved (fld x 0 5 == 0) (.unpklI16 h (.ofNat (fld x 10 5)) (.ofNat (fld x 5 5)))
  | 108 => orReserved (fld x 0 5 == 0) (.unpkhI16 h (.ofNat (fld x 10 5)) (.ofNat (fld x 5 5)))
  | 109 => .ok (.sataddI16x2 h (.ofNat (fld x 10 5)) (.ofNat (fld x 5 5)) (.ofNat (fld x 0 5)))
  | 112 => .ok (.xlaneGet h (.ofNat (fld x 10 5)) (.ofNat (fld x 5 5)) (.ofNat (fld x 0 5)))
  | 113 => .ok (.xlaneShift h (.ofNat (fld x 10 5)) (.ofNat (fld x 5 5)) (.ofNat (fld x 0 5)))
  | 114 => .ok (.xlaneRot h (.ofNat (fld x 10 5)) (.ofNat (fld x 5 5)) (.ofNat (fld x 0 5)))
  | 115 => .ok (.xlaneBfly h (.ofNat (fld x 10 5)) (.ofNat (fld x 5 5)) (.ofNat (fld x 0 5)))
  | 116 => .ok (.push h (.ofNat (fld x 10 5)) (.ofNat (fld x 5 5)) (.ofNat (fld x 0 5)))
  | 117 => .ok (.slideUp h (.ofNat (fld x 10 5)) (.ofNat (fld x 5 5)) (.ofNat (fld x 0 5)))
  | 118 => .ok (.slideDown h (.ofNat (fld x 10 5)) (.ofNat (fld x 5 5)) (.ofNat (fld x 0 5)))
  | 119 => orReserved (fld x 0 5 == 0) (.wredIadd h (.ofNat (fld x 10 5)) (.ofNat (fld x 5 5)))
  | 120 => orReserved (fld x 0 5 == 0) (.wredImin h (.ofNat (fld x 10 5)) (.ofNat (fld x 5 5)))
  | 121 => orReserved (fld x 0 5 == 0) (.wredImax h (.ofNat (fld x 10 5)) (.ofNat (fld x 5 5)))
  | 122 => orReserved (fld x 0 5 == 0) (.wredFadd h (.ofNat (fld x 10 5)) (.ofNat (fld x 5 5)))
  | 123 => orReserved (fld x 0 5 == 0) (.scanIadd h (.ofNat (fld x 10 5)) (.ofNat (fld x 5 5)))
  | 124 => orReserved (fld x 4 1 == 0 && fld x 9 1 == 0 && fld x 14 1 == 0) (.plopAnd h (Fin.ofNat 16 (fld x 10 4)) (Fin.ofNat 16 (fld x 5 4)) (Fin.ofNat 16 (fld x 0 4)))
  | 125 => orReserved (fld x 4 1 == 0 && fld x 9 1 == 0 && fld x 14 1 == 0) (.plopOr h (Fin.ofNat 16 (fld x 10 4)) (Fin.ofNat 16 (fld x 5 4)) (Fin.ofNat 16 (fld x 0 4)))
  | 126 => orReserved (fld x 4 1 == 0 && fld x 9 1 == 0 && fld x 14 1 == 0) (.plopXor h (Fin.ofNat 16 (fld x 10 4)) (Fin.ofNat 16 (fld x 5 4)) (Fin.ofNat 16 (fld x 0 4)))
  | 127 => orReserved (fld x 4 1 == 0 && fld x 9 1 == 0 && fld x 14 1 == 0) (.plopAndn h (Fin.ofNat 16 (fld x 10 4)) (Fin.ofNat 16 (fld x 5 4)) (Fin.ofNat 16 (fld x 0 4)))
  | _ => .error .unassigned

/-- Format V, op[20:17] (R114). -/
def decodeV (h : Hdr) (op x : Nat) : Except DecodeError Instr :=
  match op with
  | 0 => orReserved (fld x 0 5 == 0) (.get h (Fin.ofNat 128 (fld x 10 7)) (.ofNat (fld x 5 5)))
  | 1 => orReserved (fld x 0 5 == 0) (.put h (Fin.ofNat 128 (fld x 10 7)) (.ofNat (fld x 5 5)))
  | 2 => orReserved (fld x 0 5 == 0) (.get2 h (Fin.ofNat 128 (fld x 10 7)) (.ofNat (fld x 5 5)))
  | 3 => orReserved (fld x 0 5 == 0) (.put2 h (Fin.ofNat 128 (fld x 10 7)) (.ofNat (fld x 5 5)))
  | 4 => .ok (.vfmaF32 h (Fin.ofNat 128 (fld x 10 7)) (.ofNat (fld x 5 5)) (.ofNat (fld x 0 5)))
  | 5 => orReserved (fld x 0 5 == 0) (.vaddF32 h (Fin.ofNat 128 (fld x 10 7)) (.ofNat (fld x 5 5)))
  | 6 => orReserved (fld x 0 5 == 0) (.vaddI32 h (Fin.ofNat 128 (fld x 10 7)) (.ofNat (fld x 5 5)))
  | 7 => orReserved (fld x 0 5 == 0) (.vswap h (Fin.ofNat 128 (fld x 10 7)) (.ofNat (fld x 5 5)))
  | _ => .error .unassigned

/-- Format M, op[19:16] (R115). -/
def decodeM (h : Hdr) (op x : Nat) : Except DecodeError Instr :=
  match op with
  | 0 => .ok (.ldB32 h (.ofNat (fld x 11 5)) (.ofNat (fld x 6 5)) (BitVec.ofNat 6 (fld x 0 6)))
  | 1 => .ok (.ldB64 h (.ofNat (fld x 11 5)) (.ofNat (fld x 6 5)) (BitVec.ofNat 6 (fld x 0 6)))
  | 2 => .ok (.ldB128 h (.ofNat (fld x 11 5)) (.ofNat (fld x 6 5)) (BitVec.ofNat 6 (fld x 0 6)))
  | 3 => .ok (.ldB16 h (.ofNat (fld x 11 5)) (.ofNat (fld x 6 5)) (BitVec.ofNat 6 (fld x 0 6)))
  | 4 => .ok (.ldB8 h (.ofNat (fld x 11 5)) (.ofNat (fld x 6 5)) (BitVec.ofNat 6 (fld x 0 6)))
  | 5 => .ok (.stB32 h (.ofNat (fld x 11 5)) (.ofNat (fld x 6 5)) (BitVec.ofNat 6 (fld x 0 6)))
  | 6 => .ok (.stB64 h (.ofNat (fld x 11 5)) (.ofNat (fld x 6 5)) (BitVec.ofNat 6 (fld x 0 6)))
  | 7 => .ok (.stB128 h (.ofNat (fld x 11 5)) (.ofNat (fld x 6 5)) (BitVec.ofNat 6 (fld x 0 6)))
  | 8 => .ok (.stB16 h (.ofNat (fld x 11 5)) (.ofNat (fld x 6 5)) (BitVec.ofNat 6 (fld x 0 6)))
  | 9 => .ok (.stB8 h (.ofNat (fld x 11 5)) (.ofNat (fld x 6 5)) (BitVec.ofNat 6 (fld x 0 6)))
  | 10 => .ok (.ldsB32 h (.ofNat (fld x 11 5)) (.ofNat (fld x 6 5)) (BitVec.ofNat 6 (fld x 0 6)))
  | 11 => .ok (.ldsB64 h (.ofNat (fld x 11 5)) (.ofNat (fld x 6 5)) (BitVec.ofNat 6 (fld x 0 6)))
  | 12 => .ok (.stsB32 h (.ofNat (fld x 11 5)) (.ofNat (fld x 6 5)) (BitVec.ofNat 6 (fld x 0 6)))
  | 13 => .ok (.stsB64 h (.ofNat (fld x 11 5)) (.ofNat (fld x 6 5)) (BitVec.ofNat 6 (fld x 0 6)))
  | 14 => .ok (.ldnB32 h (.ofNat (fld x 11 5)) (.ofNat (fld x 6 5)) (BitVec.ofNat 6 (fld x 0 6)))
  | 15 => .ok (.contribF32 h (.ofNat (fld x 11 5)) (.ofNat (fld x 6 5)) ((fld x 5 1) == 1) (.ofNat (fld x 0 5)))
  | _ => .error .unassigned

/-- Format I, op[18:16] (R116); `rest` are the words after this one in its packet (R108). -/
def decodeI (h : Hdr) (op x : Nat) (rest : List Word) : Except DecodeError Instr :=
  match op with
  | 0 => .ok (.movi h (.ofNat (fld x 11 5)) (BitVec.ofNat 11 (fld x 0 11)))
  | 1 => .ok (.addi h (.ofNat (fld x 11 5)) (BitVec.ofNat 11 (fld x 0 11)))
  | 2 => .ok (.andi h (.ofNat (fld x 11 5)) (BitVec.ofNat 11 (fld x 0 11)))
  | 3 => .ok (.ori h (.ofNat (fld x 11 5)) (BitVec.ofNat 11 (fld x 0 11)))
  | 4 => orReserved (fld x 5 6 == 0) (.shli h (.ofNat (fld x 11 5)) (Fin.ofNat 32 (fld x 0 5)))
  | 5 => orReserved (fld x 5 6 == 0) (.shri h (.ofNat (fld x 11 5)) (Fin.ofNat 32 (fld x 0 5)))
  | 6 => match rest with
    | [] => .error .literalPastPacket
    | lo :: _ => orReserved (fld x 0 11 == 0) (.lit h (.ofNat (fld x 11 5)) lo)
  | 7 => match rest with
    | lo :: hi :: _ => orReserved (fld x 0 11 == 0) (.lit2 h (.ofNat (fld x 11 5)) (hi ++ lo))
    | _ => .error .literalPastPacket
  | _ => .error .unassigned

/-- Format B, op[17:14] (R117). -/
def decodeB (h : Hdr) (op x : Nat) : Except DecodeError Instr :=
  match op with
  | 0 => .ok (.bra h (BitVec.ofNat 14 (fld x 0 14)))
  | 1 => .ok (.call h (BitVec.ofNat 14 (fld x 0 14)))
  | 2 => if fld x 0 4 != 0 then .error .reserved else if 1 ≤ fld x 4 7 && fld x 4 7 ≤ 86 then .ok (.loop h (Fin.ofNat 8 (fld x 11 3)) (Fin.ofNat 128 (fld x 4 7))) else .error .loopLength
  | 3 => .ok (.bhead h (Fin.ofNat 16 (fld x 10 4)) (BitVec.ofNat 10 (fld x 0 10)))
  | _ => .error .unassigned

/-- Format E, op[17:12] (R118). -/
def decodeE (h : Hdr) (op x : Nat) : Except DecodeError Instr :=
  match op with
  | 0 => orReserved (fld x 0 12 == 0) (.nop h)
  | 1 => orReserved (fld x 0 12 == 0) (.exit h)
  | 2 => orReserved (fld x 0 12 == 0) (.ret h)
  | 3 => orReserved (fld x 0 7 == 0) (.brx h (.ofNat (fld x 7 5)))
  | 4 => orReserved (fld x 0 12 == 0) (.breakLevel h)
  | 5 => orReserved (fld x 0 12 == 0) (.yield h)
  | 6 => orReserved (fld x 2 2 == 0) (.bar h (Fin.ofNat 8 (fld x 9 3)) (Fin.ofNat 32 (fld x 4 5)) (Fin.ofNat 4 (fld x 0 2)))
  | 7 => orReserved (fld x 0 12 == 0) (.trigger h)
  | 8 => orReserved (fld x 0 7 == 0) (.launch h (.ofNat (fld x 7 5)))
  | 9 => .ok (.trap h (BitVec.ofNat 12 (fld x 0 12)))
  | 10 => .ok (.svc h (BitVec.ofNat 12 (fld x 0 12)))
  | 11 => orReserved (fld x 0 12 == 0) (.rft h)
  | 12 => orReserved (fld x 0 12 == 0) (.commit h)
  | 13 => orReserved (fld x 3 9 == 0) (.settile h (Fin.ofNat 8 (fld x 0 3)))
  | 14 => orReserved (fld x 4 8 == 0) (.elect h (Fin.ofNat 16 (fld x 0 4)))
  | 15 => .ok (.getsr h (.ofNat (fld x 7 5)) (Fin.ofNat 128 (fld x 0 7)))
  | 16 => .ok (.setsr h (.ofNat (fld x 7 5)) (Fin.ofNat 128 (fld x 0 7)))
  | 17 => orReserved (fld x 0 2 == 0) (.sget h (Fin.ofNat 32 (fld x 7 5)) (.ofNat (fld x 2 5)))
  | 18 => orReserved (fld x 0 2 == 0) (.smov h (Fin.ofNat 32 (fld x 7 5)) (Fin.ofNat 32 (fld x 2 5)))
  | 19 => orReserved (fld x 0 2 == 0) (.sadd h (Fin.ofNat 32 (fld x 7 5)) (Fin.ofNat 32 (fld x 2 5)))
  | 20 => orReserved (fld x 2 2 == 0) (.pjoin h (Fin.ofNat 16 (fld x 8 4)) (Fin.ofNat 16 (fld x 4 4)) (Fin.ofNat 4 (fld x 0 2)))
  | 21 => orReserved (fld x 0 3 == 0) (.pmask h (.ofNat (fld x 7 5)) (Fin.ofNat 16 (fld x 3 4)))
  | 22 => .ok (.peers h (.ofNat (fld x 7 5)) (.ofNat (fld x 2 5)) (Fin.ofNat 4 (fld x 0 2)))
  | 23 => orReserved (fld x 0 3 == 0) (.movsa h (.ofNat (fld x 7 5)) (Fin.ofNat 16 (fld x 3 4)))
  | 24 => orReserved (fld x 0 7 == 0) (.rdecl h (.ofNat (fld x 7 5)))
  | 25 => orReserved (fld x 0 3 == 0) (.kset h (Fin.ofNat 16 (fld x 8 4)) (.ofNat (fld x 3 5)))
  | 26 => orReserved (fld x 0 3 == 0) (.kwait h (Fin.ofNat 16 (fld x 8 4)) (.ofNat (fld x 3 5)))
  | 27 => orReserved (fld x 0 8 == 0) (.krel h (Fin.ofNat 16 (fld x 8 4)))
  | 28 => orReserved (fld x 0 8 == 0) (.kprod h (Fin.ofNat 16 (fld x 8 4)))
  | 29 => orReserved (fld x 0 3 == 0) (.kroom h (Fin.ofNat 16 (fld x 8 4)) (.ofNat (fld x 3 5)))
  | 30 => orReserved (fld x 5 7 == 0) (.qfence h (BitVec.ofNat 5 (fld x 0 5)))
  | 31 => orReserved (fld x 5 7 == 0) (.drain h (BitVec.ofNat 5 (fld x 0 5)))
  | 32 => orReserved (fld x 0 9 == 0) (.mbegin h (Fin.ofNat 8 (fld x 9 3)))
  | 33 => orReserved (fld x 0 9 == 0) (.mend h (Fin.ofNat 8 (fld x 9 3)))
  | 34 => .ok (.mma h (Fin.ofNat 8 (fld x 9 3)) (Fin.ofNat 8 (fld x 6 3)) (Fin.ofNat 8 (fld x 3 3)) (Fin.ofNat 8 (fld x 0 3)))
  | 35 => .ok (.mmas h (Fin.ofNat 8 (fld x 9 3)) (Fin.ofNat 8 (fld x 6 3)) (Fin.ofNat 8 (fld x 3 3)) (Fin.ofNat 8 (fld x 0 3)))
  | 36 => orReserved (fld x 0 9 == 0) (.mzero h (Fin.ofNat 8 (fld x 9 3)))
  | 37 => orReserved (fld x 0 1 == 0) (.mst h (Fin.ofNat 8 (fld x 9 3)) (Fin.ofNat 4 (fld x 7 2)) ((fld x 6 1) == 1) (.ofNat (fld x 1 5)))
  | 38 => orReserved (fld x 0 1 == 0 && fld x 6 3 == 0) (.mld h (Fin.ofNat 8 (fld x 9 3)) (.ofNat (fld x 1 5)))
  | 39 => orReserved (fld x 0 1 == 0) (.mcontrib h (Fin.ofNat 8 (fld x 9 3)) (Fin.ofNat 8 (fld x 6 3)) (.ofNat (fld x 1 5)))
  | 40 => orReserved (fld x 0 4 == 0) (.itset h (Fin.ofNat 8 (fld x 9 3)) (.ofNat (fld x 4 5)))
  | 41 => orReserved (fld x 9 3 != 0 || fld x 0 3 == 0) (.sweep h (Fin.ofNat 8 (fld x 9 3)) (Fin.ofNat 8 (fld x 6 3)) (Fin.ofNat 8 (fld x 3 3)) (Fin.ofNat 8 (fld x 0 3)))
  | 42 => orReserved (fld x 0 2 == 0) (.waitcnt h (.ofNat (fld x 7 5)) (.ofNat (fld x 2 5)))
  | 43 => .ok (.pref h (.ofNat (fld x 7 5)) (Fin.ofNat 32 (fld x 2 5)) (Fin.ofNat 4 (fld x 0 2)))
  | 44 => orReserved (fld x 0 2 == 0) (.salloc h (.ofNat (fld x 7 5)) (.ofNat (fld x 2 5)))
  | 45 => orReserved (fld x 0 7 == 0) (.sfree h (.ofNat (fld x 7 5)))
  | 46 => .ok (.atomIadd h (.ofNat (fld x 7 5)) (Fin.ofNat 16 (fld x 3 4)) (Fin.ofNat 8 (fld x 0 3)))
  | 47 => .ok (.atomImin h (.ofNat (fld x 7 5)) (Fin.ofNat 16 (fld x 3 4)) (Fin.ofNat 8 (fld x 0 3)))
  | 48 => .ok (.atomImax h (.ofNat (fld x 7 5)) (Fin.ofNat 16 (fld x 3 4)) (Fin.ofNat 8 (fld x 0 3)))
  | 49 => .ok (.atomLogic h (.ofNat (fld x 7 5)) (Fin.ofNat 16 (fld x 3 4)) (Fin.ofNat 8 (fld x 0 3)))
  | 50 => .ok (.atomXchg h (.ofNat (fld x 7 5)) (Fin.ofNat 16 (fld x 3 4)) (Fin.ofNat 8 (fld x 0 3)))
  | 51 => .ok (.atomFmin h (.ofNat (fld x 7 5)) (Fin.ofNat 16 (fld x 3 4)) (Fin.ofNat 8 (fld x 0 3)))
  | 52 => .ok (.atomFmax h (.ofNat (fld x 7 5)) (Fin.ofNat 16 (fld x 3 4)) (Fin.ofNat 8 (fld x 0 3)))
  | 53 => .ok (.cas h (.ofNat (fld x 7 5)) (Fin.ofNat 16 (fld x 3 4)) (Fin.ofNat 8 (fld x 0 3)))
  | 54 => orReserved (fld x 0 2 == 0) (.gemvn h (.ofNat (fld x 7 5)) (.ofNat (fld x 2 5)))
  | 55 => orReserved (fld x 0 2 == 0) (.coll h (.ofNat (fld x 7 5)) (.ofNat (fld x 2 5)))
  | 56 => .ok (.snap h (BitVec.ofNat 12 (fld x 0 12)))
  | _ => .error .unassigned

/-- The payload's format (R103) and the instruction of a payload under header `h`. -/
def decodePayload (h : Hdr) (p : Nat) (rest : List Word) : Except DecodeError Instr :=
  if p < 0x400000 then decodeA h (fld p 15 7) (fld p 0 15)
  else if p < 0x600000 then decodeV h (fld p 17 4) (fld p 0 17)
  else if p < 0x700000 then decodeM h (fld p 16 4) (fld p 0 16)
  else if p < 0x780000 then decodeI h (fld p 16 3) (fld p 0 16) rest
  else if p < 0x7C0000 then decodeB h (fld p 14 4) (fld p 0 14)
  else decodeE h (fld p 12 6) (fld p 0 12)

/-- The instruction of the first word of `ws`; the words after it in its packet follow in the list (R108). -/
def decode : List Word → Except DecodeError Instr
  | [] => .error .noWord
  | w :: rest =>
    match decodeHdr (fld w.toNat 23 9) with
    | .error e => .error e
    | .ok h => decodePayload h (fld w.toNat 0 23) rest

/-- Little-endian words of a byte string (R3, R104); a tail shorter than a word is dropped. -/
def wordsOfBytes : List Byte → List Word
  | b0 :: b1 :: b2 :: b3 :: rest => (b3 ++ b2 ++ b1 ++ b0) :: wordsOfBytes rest
  | _ => []

/-- The instruction at the start of a byte string. -/
def decodeBytes (bs : List Byte) : Except DecodeError Instr := decode (wordsOfBytes bs)

/-- The low `n` bytes of `x`, least significant first. -/
def leBytes : Nat → Nat → List Byte
  | 0, _ => []
  | n + 1, x => BitVec.ofNat 8 x :: leBytes n (x / 256)

/-- What the decoder reads from an instruction whose bits are `w`, numbered from the first word up. The longest
instruction is three words (LIT2). -/
def decodeTableWord (nbits w : Nat) : Option Instr :=
  match decodeBytes (leBytes 12 (w % 2 ^ nbits)) with
  | .ok i => some i
  | .error _ => none

/-- The payload with fixed bits `base` and each value `v` of `fields` placed at bit `lo`. -/
def payloadBits (base : Nat) (fields : List (Nat × Nat)) : Nat :=
  fields.foldl (fun acc f => acc + f.2 * 2 ^ f.1) base

/-- A word under header `h` (R100) with fixed payload bits `base` and operand fields `fields`. -/
def mkWord (h : Hdr) (base : Nat) (fields : List (Nat × Nat)) : Word :=
  BitVec.ofNat 32 (h.bits * 2 ^ 23 + payloadBits base fields)

/-- The words of an instruction (R100 to R122); a step that is no word has none. -/
def encode : Instr → List Word
  | .faddF32 h d a b => [mkWord h 0x0 [(10, d.toNat), (5, a.toNat), (0, b.toNat)]]
  | .fsubF32 h d a b => [mkWord h 0x8000 [(10, d.toNat), (5, a.toNat), (0, b.toNat)]]
  | .fmulF32 h d a b => [mkWord h 0x10000 [(10, d.toNat), (5, a.toNat), (0, b.toNat)]]
  | .ffmaF32 h d a b => [mkWord h 0x18000 [(10, d.toNat), (5, a.toNat), (0, b.toNat)]]
  | .fminF32 h d a b => [mkWord h 0x20000 [(10, d.toNat), (5, a.toNat), (0, b.toNat)]]
  | .fmaxF32 h d a b => [mkWord h 0x28000 [(10, d.toNat), (5, a.toNat), (0, b.toNat)]]
  | .fabsF32 h d a => [mkWord h 0x30000 [(10, d.toNat), (5, a.toNat)]]
  | .fnegF32 h d a => [mkWord h 0x38000 [(10, d.toNat), (5, a.toNat)]]
  | .frndF32 h d a b => [mkWord h 0x40000 [(10, d.toNat), (5, a.toNat), (0, b.toNat)]]
  | .fscaleF32 h d a b => [mkWord h 0x48000 [(10, d.toNat), (5, a.toNat), (0, b.toNat)]]
  | .frcpF32 h d a => [mkWord h 0x50000 [(10, d.toNat), (5, a.toNat)]]
  | .frsqF32 h d a => [mkWord h 0x58000 [(10, d.toNat), (5, a.toNat)]]
  | .fsqrtF32 h d a => [mkWord h 0x60000 [(10, d.toNat), (5, a.toNat)]]
  | .fex2F32 h d a => [mkWord h 0x68000 [(10, d.toNat), (5, a.toNat)]]
  | .flg2F32 h d a => [mkWord h 0x70000 [(10, d.toNat), (5, a.toNat)]]
  | .fclassF32 h d a => [mkWord h 0x78000 [(10, d.toNat), (5, a.toNat)]]
  | .faddF16x2 h d a b => [mkWord h 0x80000 [(10, d.toNat), (5, a.toNat), (0, b.toNat)]]
  | .fsubF16x2 h d a b => [mkWord h 0x88000 [(10, d.toNat), (5, a.toNat), (0, b.toNat)]]
  | .fmulF16x2 h d a b => [mkWord h 0x90000 [(10, d.toNat), (5, a.toNat), (0, b.toNat)]]
  | .ffmaF16x2 h d a b => [mkWord h 0x98000 [(10, d.toNat), (5, a.toNat), (0, b.toNat)]]
  | .fminF16x2 h d a b => [mkWord h 0xa0000 [(10, d.toNat), (5, a.toNat), (0, b.toNat)]]
  | .fmaxF16x2 h d a b => [mkWord h 0xa8000 [(10, d.toNat), (5, a.toNat), (0, b.toNat)]]
  | .fdot2F16x2 h d a b => [mkWord h 0xb0000 [(10, d.toNat), (5, a.toNat), (0, b.toNat)]]
  | .faddBf16x2 h d a b => [mkWord h 0xc0000 [(10, d.toNat), (5, a.toNat), (0, b.toNat)]]
  | .fsubBf16x2 h d a b => [mkWord h 0xc8000 [(10, d.toNat), (5, a.toNat), (0, b.toNat)]]
  | .fmulBf16x2 h d a b => [mkWord h 0xd0000 [(10, d.toNat), (5, a.toNat), (0, b.toNat)]]
  | .ffmaBf16x2 h d a b => [mkWord h 0xd8000 [(10, d.toNat), (5, a.toNat), (0, b.toNat)]]
  | .fminBf16x2 h d a b => [mkWord h 0xe0000 [(10, d.toNat), (5, a.toNat), (0, b.toNat)]]
  | .fmaxBf16x2 h d a b => [mkWord h 0xe8000 [(10, d.toNat), (5, a.toNat), (0, b.toNat)]]
  | .fdot2Bf16x2 h d a b => [mkWord h 0xf0000 [(10, d.toNat), (5, a.toNat), (0, b.toNat)]]
  | .faddF64 h d a b => [mkWord h 0x100000 [(10, d.toNat), (5, a.toNat), (0, b.toNat)]]
  | .fsubF64 h d a b => [mkWord h 0x108000 [(10, d.toNat), (5, a.toNat), (0, b.toNat)]]
  | .fmulF64 h d a b => [mkWord h 0x110000 [(10, d.toNat), (5, a.toNat), (0, b.toNat)]]
  | .ffmaF64 h d a b => [mkWord h 0x118000 [(10, d.toNat), (5, a.toNat), (0, b.toNat)]]
  | .fminF64 h d a b => [mkWord h 0x120000 [(10, d.toNat), (5, a.toNat), (0, b.toNat)]]
  | .fmaxF64 h d a b => [mkWord h 0x128000 [(10, d.toNat), (5, a.toNat), (0, b.toNat)]]
  | .fcmpLtF64 h acc pd a b => [mkWord h 0x130000 [(14, (if acc then 1 else 0)), (10, pd.val), (5, a.toNat), (0, b.toNat)]]
  | .fcmpEqF64 h acc pd a b => [mkWord h 0x138000 [(14, (if acc then 1 else 0)), (10, pd.val), (5, a.toNat), (0, b.toNat)]]
  | .fcvt h d a code => [mkWord h 0x140000 [(10, d.toNat), (5, a.toNat), (0, code.val)]]
  | .fcvtd h d a code => [mkWord h 0x148000 [(10, d.toNat), (5, a.toNat), (0, code.val)]]
  | .cpy h d a b => [mkWord h 0x150000 [(10, d.toNat), (5, a.toNat), (0, b.toNat)]]
  | .gath h d a b => [mkWord h 0x158000 [(10, d.toNat), (5, a.toNat), (0, b.toNat)]]
  | .scat h d a b => [mkWord h 0x160000 [(10, d.toNat), (5, a.toNat), (0, b.toNat)]]
  | .cpym h d a b => [mkWord h 0x168000 [(10, d.toNat), (5, a.toNat), (0, b.toNat)]]
  | .xfer h d => [mkWord h 0x170000 [(10, d.toNat)]]
  | .xmc h d => [mkWord h 0x178000 [(10, d.toNat)]]
  | .fcmpEqF32 h acc pd a b => [mkWord h 0x180000 [(14, (if acc then 1 else 0)), (10, pd.val), (5, a.toNat), (0, b.toNat)]]
  | .fcmpNeF32 h acc pd a b => [mkWord h 0x188000 [(14, (if acc then 1 else 0)), (10, pd.val), (5, a.toNat), (0, b.toNat)]]
  | .fcmpLtF32 h acc pd a b => [mkWord h 0x190000 [(14, (if acc then 1 else 0)), (10, pd.val), (5, a.toNat), (0, b.toNat)]]
  | .fcmpLeF32 h acc pd a b => [mkWord h 0x198000 [(14, (if acc then 1 else 0)), (10, pd.val), (5, a.toNat), (0, b.toNat)]]
  | .fcmpGtF32 h acc pd a b => [mkWord h 0x1a0000 [(14, (if acc then 1 else 0)), (10, pd.val), (5, a.toNat), (0, b.toNat)]]
  | .fcmpGeF32 h acc pd a b => [mkWord h 0x1a8000 [(14, (if acc then 1 else 0)), (10, pd.val), (5, a.toNat), (0, b.toNat)]]
  | .icmpEqI32 h acc pd a b => [mkWord h 0x1b0000 [(14, (if acc then 1 else 0)), (10, pd.val), (5, a.toNat), (0, b.toNat)]]
  | .icmpNeI32 h acc pd a b => [mkWord h 0x1b8000 [(14, (if acc then 1 else 0)), (10, pd.val), (5, a.toNat), (0, b.toNat)]]
  | .icmpLtI32 h acc pd a b => [mkWord h 0x1c0000 [(14, (if acc then 1 else 0)), (10, pd.val), (5, a.toNat), (0, b.toNat)]]
  | .icmpLeI32 h acc pd a b => [mkWord h 0x1c8000 [(14, (if acc then 1 else 0)), (10, pd.val), (5, a.toNat), (0, b.toNat)]]
  | .icmpGtI32 h acc pd a b => [mkWord h 0x1d0000 [(14, (if acc then 1 else 0)), (10, pd.val), (5, a.toNat), (0, b.toNat)]]
  | .icmpGeI32 h acc pd a b => [mkWord h 0x1d8000 [(14, (if acc then 1 else 0)), (10, pd.val), (5, a.toNat), (0, b.toNat)]]
  | .icmpLtN32 h acc pd a b => [mkWord h 0x1e0000 [(14, (if acc then 1 else 0)), (10, pd.val), (5, a.toNat), (0, b.toNat)]]
  | .icmpLeN32 h acc pd a b => [mkWord h 0x1e8000 [(14, (if acc then 1 else 0)), (10, pd.val), (5, a.toNat), (0, b.toNat)]]
  | .icmpGtN32 h acc pd a b => [mkWord h 0x1f0000 [(14, (if acc then 1 else 0)), (10, pd.val), (5, a.toNat), (0, b.toNat)]]
  | .icmpGeN32 h acc pd a b => [mkWord h 0x1f8000 [(14, (if acc then 1 else 0)), (10, pd.val), (5, a.toNat), (0, b.toNat)]]
  | .iadd h d a b => [mkWord h 0x200000 [(10, d.toNat), (5, a.toNat), (0, b.toNat)]]
  | .isub h d a b => [mkWord h 0x208000 [(10, d.toNat), (5, a.toNat), (0, b.toNat)]]
  | .imul h d a b => [mkWord h 0x210000 [(10, d.toNat), (5, a.toNat), (0, b.toNat)]]
  | .imulhI32 h d a b => [mkWord h 0x218000 [(10, d.toNat), (5, a.toNat), (0, b.toNat)]]
  | .imulhN32 h d a b => [mkWord h 0x220000 [(10, d.toNat), (5, a.toNat), (0, b.toNat)]]
  | .imad h d a b => [mkWord h 0x228000 [(10, d.toNat), (5, a.toNat), (0, b.toNat)]]
  | .iminI32 h d a b => [mkWord h 0x230000 [(10, d.toNat), (5, a.toNat), (0, b.toNat)]]
  | .iminN32 h d a b => [mkWord h 0x238000 [(10, d.toNat), (5, a.toNat), (0, b.toNat)]]
  | .imaxI32 h d a b => [mkWord h 0x240000 [(10, d.toNat), (5, a.toNat), (0, b.toNat)]]
  | .imaxN32 h d a b => [mkWord h 0x248000 [(10, d.toNat), (5, a.toNat), (0, b.toNat)]]
  | .iabs h d a => [mkWord h 0x250000 [(10, d.toNat), (5, a.toNat)]]
  | .and h d a b => [mkWord h 0x258000 [(10, d.toNat), (5, a.toNat), (0, b.toNat)]]
  | .or h d a b => [mkWord h 0x260000 [(10, d.toNat), (5, a.toNat), (0, b.toNat)]]
  | .xor h d a b => [mkWord h 0x268000 [(10, d.toNat), (5, a.toNat), (0, b.toNat)]]
  | .andn h d a b => [mkWord h 0x270000 [(10, d.toNat), (5, a.toNat), (0, b.toNat)]]
  | .shl h d a b => [mkWord h 0x278000 [(10, d.toNat), (5, a.toNat), (0, b.toNat)]]
  | .shr h d a b => [mkWord h 0x280000 [(10, d.toNat), (5, a.toNat), (0, b.toNat)]]
  | .sar h d a b => [mkWord h 0x288000 [(10, d.toNat), (5, a.toNat), (0, b.toNat)]]
  | .rotl h d a b => [mkWord h 0x290000 [(10, d.toNat), (5, a.toNat), (0, b.toNat)]]
  | .bfe h d a b => [mkWord h 0x298000 [(10, d.toNat), (5, a.toNat), (0, b.toNat)]]
  | .bfi h d a b => [mkWord h 0x2a0000 [(10, d.toNat), (5, a.toNat), (0, b.toNat)]]
  | .clz h d a => [mkWord h 0x2a8000 [(10, d.toNat), (5, a.toNat)]]
  | .popc h d a => [mkWord h 0x2b0000 [(10, d.toNat), (5, a.toNat)]]
  | .brev h d a => [mkWord h 0x2b8000 [(10, d.toNat), (5, a.toNat)]]
  | .sel h d a b => [mkWord h 0x2c0000 [(10, d.toNat), (5, a.toNat), (0, b.toNat)]]
  | .mov h d a => [mkWord h 0x2c8000 [(10, d.toNat), (5, a.toNat)]]
  | .bmix h d a b => [mkWord h 0x2d0000 [(10, d.toNat), (5, a.toNat), (0, b.toNat)]]
  | .leaS2 h d a b => [mkWord h 0x2d8000 [(10, d.toNat), (5, a.toNat), (0, b.toNat)]]
  | .leaS3 h d a b => [mkWord h 0x2e0000 [(10, d.toNat), (5, a.toNat), (0, b.toNat)]]
  | .iadd64 h d a b => [mkWord h 0x2e8000 [(10, d.toNat), (5, a.toNat), (0, b.toNat)]]
  | .sataddI32 h d a b => [mkWord h 0x2f0000 [(10, d.toNat), (5, a.toNat), (0, b.toNat)]]
  | .satsubI32 h d a b => [mkWord h 0x2f8000 [(10, d.toNat), (5, a.toNat), (0, b.toNat)]]
  | .iaddI16x2 h d a b => [mkWord h 0x300000 [(10, d.toNat), (5, a.toNat), (0, b.toNat)]]
  | .isubI16x2 h d a b => [mkWord h 0x308000 [(10, d.toNat), (5, a.toNat), (0, b.toNat)]]
  | .iminI16x2 h d a b => [mkWord h 0x310000 [(10, d.toNat), (5, a.toNat), (0, b.toNat)]]
  | .imaxI16x2 h d a b => [mkWord h 0x318000 [(10, d.toNat), (5, a.toNat), (0, b.toNat)]]
  | .pdot2I16x2 h d a b => [mkWord h 0x320000 [(10, d.toNat), (5, a.toNat), (0, b.toNat)]]
  | .pdot2sI16x2 h d a b => [mkWord h 0x328000 [(10, d.toNat), (5, a.toNat), (0, b.toNat)]]
  | .pdot4I8x4 h d a b => [mkWord h 0x330000 [(10, d.toNat), (5, a.toNat), (0, b.toNat)]]
  | .pdot4sI8x4 h d a b => [mkWord h 0x338000 [(10, d.toNat), (5, a.toNat), (0, b.toNat)]]
  | .shrrI32 h d a b => [mkWord h 0x340000 [(10, d.toNat), (5, a.toNat), (0, b.toNat)]]
  | .shrrsI16 h d a b => [mkWord h 0x348000 [(10, d.toNat), (5, a.toNat), (0, b.toNat)]]
  | .packB16 h d a b => [mkWord h 0x350000 [(10, d.toNat), (5, a.toNat), (0, b.toNat)]]
  | .unpklI16 h d a => [mkWord h 0x358000 [(10, d.toNat), (5, a.toNat)]]
  | .unpkhI16 h d a => [mkWord h 0x360000 [(10, d.toNat), (5, a.toNat)]]
  | .sataddI16x2 h d a b => [mkWord h 0x368000 [(10, d.toNat), (5, a.toNat), (0, b.toNat)]]
  | .xlaneGet h d a b => [mkWord h 0x380000 [(10, d.toNat), (5, a.toNat), (0, b.toNat)]]
  | .xlaneShift h d a b => [mkWord h 0x388000 [(10, d.toNat), (5, a.toNat), (0, b.toNat)]]
  | .xlaneRot h d a b => [mkWord h 0x390000 [(10, d.toNat), (5, a.toNat), (0, b.toNat)]]
  | .xlaneBfly h d a b => [mkWord h 0x398000 [(10, d.toNat), (5, a.toNat), (0, b.toNat)]]
  | .push h d a b => [mkWord h 0x3a0000 [(10, d.toNat), (5, a.toNat), (0, b.toNat)]]
  | .slideUp h d a b => [mkWord h 0x3a8000 [(10, d.toNat), (5, a.toNat), (0, b.toNat)]]
  | .slideDown h d a b => [mkWord h 0x3b0000 [(10, d.toNat), (5, a.toNat), (0, b.toNat)]]
  | .wredIadd h d a => [mkWord h 0x3b8000 [(10, d.toNat), (5, a.toNat)]]
  | .wredImin h d a => [mkWord h 0x3c0000 [(10, d.toNat), (5, a.toNat)]]
  | .wredImax h d a => [mkWord h 0x3c8000 [(10, d.toNat), (5, a.toNat)]]
  | .wredFadd h d a => [mkWord h 0x3d0000 [(10, d.toNat), (5, a.toNat)]]
  | .scanIadd h d a => [mkWord h 0x3d8000 [(10, d.toNat), (5, a.toNat)]]
  | .plopAnd h pd pa pb => [mkWord h 0x3e0000 [(10, pd.val), (5, pa.val), (0, pb.val)]]
  | .plopOr h pd pa pb => [mkWord h 0x3e8000 [(10, pd.val), (5, pa.val), (0, pb.val)]]
  | .plopXor h pd pa pb => [mkWord h 0x3f0000 [(10, pd.val), (5, pa.val), (0, pb.val)]]
  | .plopAndn h pd pa pb => [mkWord h 0x3f8000 [(10, pd.val), (5, pa.val), (0, pb.val)]]
  | .get h v a => [mkWord h 0x400000 [(10, v.val), (5, a.toNat)]]
  | .put h v a => [mkWord h 0x420000 [(10, v.val), (5, a.toNat)]]
  | .get2 h v a => [mkWord h 0x440000 [(10, v.val), (5, a.toNat)]]
  | .put2 h v a => [mkWord h 0x460000 [(10, v.val), (5, a.toNat)]]
  | .vfmaF32 h v a b => [mkWord h 0x480000 [(10, v.val), (5, a.toNat), (0, b.toNat)]]
  | .vaddF32 h v a => [mkWord h 0x4a0000 [(10, v.val), (5, a.toNat)]]
  | .vaddI32 h v a => [mkWord h 0x4c0000 [(10, v.val), (5, a.toNat)]]
  | .vswap h v a => [mkWord h 0x4e0000 [(10, v.val), (5, a.toNat)]]
  | .ldB32 h d base off => [mkWord h 0x600000 [(11, d.toNat), (6, base.toNat), (0, off.toNat)]]
  | .ldB64 h d base off => [mkWord h 0x610000 [(11, d.toNat), (6, base.toNat), (0, off.toNat)]]
  | .ldB128 h d base off => [mkWord h 0x620000 [(11, d.toNat), (6, base.toNat), (0, off.toNat)]]
  | .ldB16 h d base off => [mkWord h 0x630000 [(11, d.toNat), (6, base.toNat), (0, off.toNat)]]
  | .ldB8 h d base off => [mkWord h 0x640000 [(11, d.toNat), (6, base.toNat), (0, off.toNat)]]
  | .stB32 h d base off => [mkWord h 0x650000 [(11, d.toNat), (6, base.toNat), (0, off.toNat)]]
  | .stB64 h d base off => [mkWord h 0x660000 [(11, d.toNat), (6, base.toNat), (0, off.toNat)]]
  | .stB128 h d base off => [mkWord h 0x670000 [(11, d.toNat), (6, base.toNat), (0, off.toNat)]]
  | .stB16 h d base off => [mkWord h 0x680000 [(11, d.toNat), (6, base.toNat), (0, off.toNat)]]
  | .stB8 h d base off => [mkWord h 0x690000 [(11, d.toNat), (6, base.toNat), (0, off.toNat)]]
  | .ldsB32 h d base off => [mkWord h 0x6a0000 [(11, d.toNat), (6, base.toNat), (0, off.toNat)]]
  | .ldsB64 h d base off => [mkWord h 0x6b0000 [(11, d.toNat), (6, base.toNat), (0, off.toNat)]]
  | .stsB32 h d base off => [mkWord h 0x6c0000 [(11, d.toNat), (6, base.toNat), (0, off.toNat)]]
  | .stsB64 h d base off => [mkWord h 0x6d0000 [(11, d.toNat), (6, base.toNat), (0, off.toNat)]]
  | .ldnB32 h d base off => [mkWord h 0x6e0000 [(11, d.toNat), (6, base.toNat), (0, off.toNat)]]
  | .contribF32 h d base flag lab => [mkWord h 0x6f0000 [(11, d.toNat), (6, base.toNat), (5, (if flag then 1 else 0)), (0, lab.toNat)]]
  | .movi h d imm => [mkWord h 0x700000 [(11, d.toNat), (0, imm.toNat)]]
  | .addi h d imm => [mkWord h 0x710000 [(11, d.toNat), (0, imm.toNat)]]
  | .andi h d imm => [mkWord h 0x720000 [(11, d.toNat), (0, imm.toNat)]]
  | .ori h d imm => [mkWord h 0x730000 [(11, d.toNat), (0, imm.toNat)]]
  | .shli h d n => [mkWord h 0x740000 [(11, d.toNat), (0, n.val)]]
  | .shri h d n => [mkWord h 0x750000 [(11, d.toNat), (0, n.val)]]
  | .lit h d value => mkWord h 0x760000 [(11, d.toNat)] :: [value]
  | .lit2 h d value => mkWord h 0x770000 [(11, d.toNat)] :: [value.setWidth 32, (value >>> 32).setWidth 32]
  | .bra h off => [mkWord h 0x780000 [(0, off.toNat)]]
  | .call h off => [mkWord h 0x784000 [(0, off.toNat)]]
  | .loop h sc len => [mkWord h 0x788000 [(11, sc.val), (4, len.val)]]
  | .bhead h peer off => [mkWord h 0x78c000 [(10, peer.val), (0, off.toNat)]]
  | .nop h => [mkWord h 0x7c0000 []]
  | .exit h => [mkWord h 0x7c1000 []]
  | .ret h => [mkWord h 0x7c2000 []]
  | .brx h a => [mkWord h 0x7c3000 [(7, a.toNat)]]
  | .breakLevel h => [mkWord h 0x7c4000 []]
  | .yield h => [mkWord h 0x7c5000 []]
  | .bar h level s mode => [mkWord h 0x7c6000 [(9, level.val), (4, s.val), (0, mode.val)]]
  | .trigger h => [mkWord h 0x7c7000 []]
  | .launch h a => [mkWord h 0x7c8000 [(7, a.toNat)]]
  | .trap h code => [mkWord h 0x7c9000 [(0, code.toNat)]]
  | .svc h code => [mkWord h 0x7ca000 [(0, code.toNat)]]
  | .rft h => [mkWord h 0x7cb000 []]
  | .commit h => [mkWord h 0x7cc000 []]
  | .settile h size => [mkWord h 0x7cd000 [(0, size.val)]]
  | .elect h pd => [mkWord h 0x7ce000 [(0, pd.val)]]
  | .getsr h d num => [mkWord h 0x7cf000 [(7, d.toNat), (0, num.val)]]
  | .setsr h a num => [mkWord h 0x7d0000 [(7, a.toNat), (0, num.val)]]
  | .sget h sd a => [mkWord h 0x7d1000 [(7, sd.val), (2, a.toNat)]]
  | .smov h sd ss => [mkWord h 0x7d2000 [(7, sd.val), (2, ss.val)]]
  | .sadd h sd ss => [mkWord h 0x7d3000 [(7, sd.val), (2, ss.val)]]
  | .pjoin h pd pa mode => [mkWord h 0x7d4000 [(8, pd.val), (4, pa.val), (0, mode.val)]]
  | .pmask h d pa => [mkWord h 0x7d5000 [(7, d.toNat), (3, pa.val)]]
  | .peers h d a mode => [mkWord h 0x7d6000 [(7, d.toNat), (2, a.toNat), (0, mode.val)]]
  | .movsa h d peer => [mkWord h 0x7d7000 [(7, d.toNat), (3, peer.val)]]
  | .rdecl h a => [mkWord h 0x7d8000 [(7, a.toNat)]]
  | .kset h k a => [mkWord h 0x7d9000 [(8, k.val), (3, a.toNat)]]
  | .kwait h k d => [mkWord h 0x7da000 [(8, k.val), (3, d.toNat)]]
  | .krel h k => [mkWord h 0x7db000 [(8, k.val)]]
  | .kprod h k => [mkWord h 0x7dc000 [(8, k.val)]]
  | .kroom h k d => [mkWord h 0x7dd000 [(8, k.val), (3, d.toNat)]]
  | .qfence h mask => [mkWord h 0x7de000 [(0, mask.toNat)]]
  | .drain h mask => [mkWord h 0x7df000 [(0, mask.toNat)]]
  | .mbegin h acc => [mkWord h 0x7e0000 [(9, acc.val)]]
  | .mend h acc => [mkWord h 0x7e1000 [(9, acc.val)]]
  | .mma h acc t qa qb => [mkWord h 0x7e2000 [(9, acc.val), (6, t.val), (3, qa.val), (0, qb.val)]]
  | .mmas h acc t qa qb => [mkWord h 0x7e3000 [(9, acc.val), (6, t.val), (3, qa.val), (0, qb.val)]]
  | .mzero h acc => [mkWord h 0x7e4000 [(9, acc.val)]]
  | .mst h acc sty dith a => [mkWord h 0x7e5000 [(9, acc.val), (7, sty.val), (6, (if dith then 1 else 0)), (1, a.toNat)]]
  | .mld h acc a => [mkWord h 0x7e6000 [(9, acc.val), (1, a.toNat)]]
  | .mcontrib h acc qpair lab => [mkWord h 0x7e7000 [(9, acc.val), (6, qpair.val), (1, lab.toNat)]]
  | .itset h it a => [mkWord h 0x7e8000 [(9, it.val), (4, a.toNat)]]
  | .sweep h op itd ita itb => [mkWord h 0x7e9000 [(9, op.val), (6, itd.val), (3, ita.val), (0, itb.val)]]
  | .waitcnt h d a => [mkWord h 0x7ea000 [(7, d.toNat), (2, a.toNat)]]
  | .pref h a count hint => [mkWord h 0x7eb000 [(7, a.toNat), (2, count.val), (0, hint.val)]]
  | .salloc h d a => [mkWord h 0x7ec000 [(7, d.toNat), (2, a.toNat)]]
  | .sfree h a => [mkWord h 0x7ed000 [(7, a.toNat)]]
  | .atomIadd h d a m => [mkWord h 0x7ee000 [(7, d.toNat), (3, a.val), (0, m.val)]]
  | .atomImin h d a m => [mkWord h 0x7ef000 [(7, d.toNat), (3, a.val), (0, m.val)]]
  | .atomImax h d a m => [mkWord h 0x7f0000 [(7, d.toNat), (3, a.val), (0, m.val)]]
  | .atomLogic h d a m => [mkWord h 0x7f1000 [(7, d.toNat), (3, a.val), (0, m.val)]]
  | .atomXchg h d a m => [mkWord h 0x7f2000 [(7, d.toNat), (3, a.val), (0, m.val)]]
  | .atomFmin h d a m => [mkWord h 0x7f3000 [(7, d.toNat), (3, a.val), (0, m.val)]]
  | .atomFmax h d a m => [mkWord h 0x7f4000 [(7, d.toNat), (3, a.val), (0, m.val)]]
  | .cas h d a m => [mkWord h 0x7f5000 [(7, d.toNat), (3, a.val), (0, m.val)]]
  | .gemvn h d a => [mkWord h 0x7f6000 [(7, d.toNat), (2, a.toNat)]]
  | .coll h d a => [mkWord h 0x7f7000 [(7, d.toNat), (2, a.toNat)]]
  | .snap h code => [mkWord h 0x7f8000 [(0, code.toNat)]]
  | .loadDataReturn .. => []
  | .waitcntRelease .. => []
  | .kroomGrant .. => []
  | .kwaitGrant .. => []
  | .barrierComplete .. => []
  | .windowCommit .. => []
  | .bundleRegroup .. => []
  | .counterPromotion .. => []
  | .warpUrgent .. => []
  | .copyEntryStart .. => []
  | .cpymDelivery .. => []
  | .engineElementFault .. => []
  | .engineCompletion .. => []
  | .matrixPassStart .. => []
  | .kStepFinish .. => []
  | .gemvnStart .. => []
  | .collInstanceStart .. => []
  | .workEntryFire .. => []
  | .collComplete .. => []
  | .lullArrival .. => []
  | .lineDone .. => []
  | .launchStart .. => []
  | .blockPlacement .. => []
  | .launchComplete .. => []
  | .registerWrite .. => []
  | .engineFaultEntry .. => []
  | .softErrorTrap .. => []
  | .rollback .. => []
  | .softErrorEvent .. => []
  | .lullForwardTimeout .. => []
  | .flitTransmit .. => []
  | .controlFlitSend .. => []
  | .controlFlit .. => []
  | .requestFlit .. => []
  | .responseFlit .. => []
  | .bulkWriteFlit .. => []
  | .multicastFlit .. => []
  | .lullEntryFlit .. => []
  | .planWriteFlit .. => []
  | .keySwitchMarker .. => []
  | .reservedKindFlit .. => []
  | .replayTimeout .. => []
  | .keySwitch .. => []
  | .deviceLost .. => []
  | .allowanceRegrant .. => []
  | .grantReturn .. => []
  | .becalmedWake .. => []
  | .uePacketReceive .. => []
  | .uePeerUnreachable .. => []
  | .queueTailWrite .. => []
  | .carveOutWrite .. => []
  | .carveOutDone .. => []
  | .pmCoreWrite .. => []
  | .tlbInvalidate .. => []
  | .tlbInvalidateDone .. => []
  | .spillAreaMove .. => []
  | .preemptRequest .. => []
  | .contextSave .. => []
  | .contextRestore .. => []
  | .preemptComplete .. => []
  | .engineFaultResume .. => []
  | .engineFaultAbandon .. => []
  | .efCfgWrite .. => []
  | .efHeadWrite .. => []
  | .directoryRequest .. => []
  | .syncUpdate .. => []
  | .syncUpdateAck .. => []
  | .pageRequest .. => []
  | .pageRecall .. => []
  | .recallAck .. => []
  | .driverRecall .. => []
  | .hostMemRequest .. => []
  | .hostSnoop .. => []
  | .backInvalidateResponse .. => []
  | .hostLinkDown .. => []
  | .hxCtlWrite .. => []
  | .functionReady .. => []
  | .dxpCtlWrite .. => []
  | .keyLoad .. => []
  | .keyErase .. => []
  | .securityAlarm .. => []
  | .snapshotHostTrigger .. => []
  | .snapshotTrigger .. => []
  | .snapshotLatch .. => []
  | .snapshotDistributionEnd .. => []
  | .snapshotDone .. => []
  | .planLoad .. => []
  | .planUnload .. => []
  | .precopyPass .. => []
  | .precopyPassEnd .. => []
  | .precopyRecordReceive .. => []
  | .lifetimeDump .. => []
  | .lifetimeCommit .. => []
  | .orderlyPowerDown .. => []
  | .reset .. => []
  | .fetchFault .. => []
  | .illegalEncoding .. => []
  | .powerManagerLimit .. => []
  | .powerLoss .. => []
  | .doeRequest .. => []
  | .cxlCacheResponse .. => []
  | .unauthenticatedFlit .. => []

/-- The instructions that words encode: `SEL` guarded (R33), `LOOP` bodies of 1 to 86 packets (R117), a `SWEEP` that
moves naming iterator 0 as its unused source (R236); and no step that is not a word. -/
def Instr.encodable (i : Instr) : Bool :=
  match i with
  | .sel h _ _ _ => h.guard.isSome
  | .loop _ _ len => 1 ≤ len.val && len.val ≤ 86
  | .sweep _ op _ _ itb => op.val != 0 || itb.val == 0
  | i => i.hdr?.isSome

end Sys2Proof
end

