-- ==== Sys2Proof/Machine/Cells.lean ====
section
/-! DEFINITION. The operations of the plain containers: lanes of a warp, sparse tables, byte memories. -/
namespace Sys2Proof

/-- The lane-indexed value `f`. -/
def Lanes.ofFn {α : Type} (f : Fin 32 → α) : Lanes α := ⟨⟨List.ofFn f⟩, by simp⟩

/-- The same value in every lane. -/
def Lanes.all {α : Type} (x : α) : Lanes α := Lanes.ofFn fun _ => x

/-- The lanes in ascending order (R80). -/
def lanesUp : List (Fin 32) := List.finRange 32

/-- `f` in the lanes of `m`, `old` elsewhere: the write rule of R12 and R156. -/
def Lanes.write {α : Type} (old : Lanes α) (m : LaneSet) (f : Fin 32 → α) : Lanes α :=
  Lanes.ofFn fun l => if m[l] then f l else old[l]

/-- The lanes of a set, ascending. -/
def LaneSet.list (m : LaneSet) : List (Fin 32) := lanesUp.filter fun l => m[l]

/-- The lowest lane of a set. -/
def LaneSet.lowest (m : LaneSet) : Option (Fin 32) := lanesUp.find? fun l => m[l]

/-- At least one lane. -/
def LaneSet.any (m : LaneSet) : Bool := lanesUp.any fun l => m[l]

/-- The number of lanes. -/
def LaneSet.count (m : LaneSet) : Nat := (LaneSet.list m).length

/-- Lanes of both sets. -/
def LaneSet.inter (a b : LaneSet) : LaneSet := Lanes.ofFn fun l => a[l] && b[l]

/-- Lanes of either set. -/
def LaneSet.union (a b : LaneSet) : LaneSet := Lanes.ofFn fun l => a[l] || b[l]

/-- Lanes of the first set outside the second. -/
def LaneSet.diff (a b : LaneSet) : LaneSet := Lanes.ofFn fun l => a[l] && !b[l]

/-- The 32-bit image of a lane set: bit l for lane l (R3). -/
def LaneSet.mask (m : LaneSet) : LaneMask :=
  BitVec.ofNat 32 (lanesUp.foldl (fun acc l => acc + if m[l] then 2 ^ l.val else 0) 0)

/-- The lane set of a 32-bit image. -/
def LaneSet.ofMask (x : LaneMask) : LaneSet := Lanes.ofFn fun l => x.getLsbD l.val

/-- What a sparse table lists under `k`. -/
def SMap.get? {α : Type} : SMap α → Nat → Option α
  | [], _ => none
  | (k', v) :: t, k => if k = k' then some v else SMap.get? t k

/-- The value under `k`, or `d` where nothing is listed. -/
def SMap.getD {α : Type} (m : SMap α) (k : Nat) (d : α) : α := (SMap.get? m k).getD d

/-- Lists `v` under `k`, keys kept rising. -/
def SMap.put {α : Type} : SMap α → Nat → α → SMap α
  | [], k, v => [(k, v)]
  | (k', v') :: t, k, v =>
    if k = k' then (k, v) :: t
    else if k < k' then (k, v) :: (k', v') :: t
    else (k', v') :: SMap.put t k v

/-- Lists nothing under `k`. -/
def SMap.del {α : Type} (m : SMap α) (k : Nat) : SMap α := m.filter fun e => e.1 != k

/-- The smallest key from `n` up, among `fuel` candidates, that the table does not list. -/
def SMap.freeKey {α : Type} (m : SMap α) : Nat → Nat → Nat
  | 0, n => n
  | fuel + 1, n => if (SMap.get? m n).isSome then SMap.freeKey m fuel (n + 1) else n

/-- A key that the table does not list. -/
def SMap.fresh {α : Type} (m : SMap α) : Nat := SMap.freeKey m m.length 0

/-- The byte at `a`; an unlisted address reads zero. -/
def Memory.read : Memory → Nat → Byte
  | [], _ => 0
  | (a', b) :: t, a => if a = a' then b else Memory.read t a

/-- The nonzero bytes of a string laid out from `a` up. -/
def Memory.cells : Nat → List Byte → Memory
  | _, [] => []
  | a, b :: t => if b = 0 then Memory.cells (a + 1) t else (a, b) :: Memory.cells (a + 1) t

/-- Replaces the bytes of [`a`, `a + bs.length`) by `bs`; the canonical form is kept. -/
def Memory.write (m : Memory) (a : Nat) (bs : List Byte) : Memory :=
  m.filter (fun c => c.1 < a) ++ Memory.cells a bs ++ m.filter (fun c => a + bs.length ≤ c.1)

/-- The `n` bytes from `a` up. -/
def Memory.readN (m : Memory) : Nat → Nat → List Byte
  | _, 0 => []
  | a, n + 1 => Memory.read m a :: Memory.readN m (a + 1) n

/-- Strictly rising addresses, no zero byte listed: the canonical form. -/
def Memory.wf : Memory → Bool
  | [] => true
  | [c] => c.2 != 0
  | c :: d :: t => c.2 != 0 && c.1 < d.1 && Memory.wf (d :: t)

/-- The little-endian value of a byte string (R3). -/
def leNat : List Byte → Nat
  | [] => 0
  | b :: t => b.toNat + 256 * leNat t

/-- The low `n` bytes of `x`, least significant first (R3). -/
def bytesLE : Nat → Nat → List Byte
  | 0, _ => []
  | n + 1, x => BitVec.ofNat 8 x :: bytesLE n (x / 256)

/-- Bits [lo + w - 1 : lo] of a number. -/
def bits (x lo w : Nat) : Nat := x / 2 ^ lo % 2 ^ w

/-- Replaces bits [lo + w - 1 : lo] of a number. -/
def setBits (x lo w v : Nat) : Nat :=
  x - bits x lo w * 2 ^ lo + v % 2 ^ w * 2 ^ lo

/-- Rounds up to a multiple of `k`. -/
def roundUp (n k : Nat) : Nat := (n + k - 1) / k * k

/-- The signed value of the low `w` bits (R6 `sext`). -/
def sextNat (x w : Nat) : Int :=
  let y := x % 2 ^ w
  if y < 2 ^ (w - 1) then (y : Int) else (y : Int) - 2 ^ w

end Sys2Proof
end

