-- ==== Sys2Proof/Machine/State.lean ====
section
/-! DEFINITION. The state of one KX6 device: everything the manual gives the machine, as plain data, and the machine
right after reset. Peers, the host and time act on it through the steps of the table that are not words. -/
namespace Sys2Proof.Machine

/-! ### Threads, registers and windows of a warp -/

/-- A program counter packet.word (R104). -/
structure Pc where
  packet : Word
  word : Nat
deriving DecidableEq, Repr

/-- A thread: its program counter, and whether it has not executed `EXIT` (R12). -/
structure Thread where
  pc : Pc
  live : Bool
deriving DecidableEq, Repr

/-- An open loop level: start packet, end packet, remaining count (R135). -/
structure Loop where
  start : Word
  stop : Word
  count : Word
deriving DecidableEq, Repr

/-- A value that was shifted into `y` of one lane (R18, R31): the value, the clock from which it is there, the load that
still owes it, and whether the checking scoreboard marks it. -/
structure YPos where
  val : DWord
  due : Nat
  load : Option Nat
  chk : Bool
deriving DecidableEq, Repr

/-- Flags and saturation bits that a word sets at the end of its latency (R153, R133). -/
structure Sticky where
  due : Nat
  sat : LaneMask
  fflags : Word
deriving DecidableEq, Repr

/-- The open chain of an accumulator (R228): its type once a step fixed it, and each quarter's count of steps. -/
structure Chain where
  ty : Option Nat
  steps : List Nat
deriving DecidableEq, Repr

/-- The restorable state of a warp (R17, R23, R319). `y` lists each lane's shifted values, the newest first: position `n` is
the `n`-th, and those behind the four positions are kept while an early read can still return them (R31). `q` and `p` rows, `s` registers and iterator records that are
not listed hold their launch values. `iters` lists the valid records in the layout of R234; `sup2` the threads that
issue the first word of a pair alone after an `RFT` (R399). -/
structure Regs where
  threads : Lanes Thread
  q : Rows
  y : Lanes (List YPos)
  s : SMap Word
  p : SMap LaneSet
  loops : List Loop
  iters : SMap (BitVec 512)
  tile : Nat
  sat : LaneMask
  fflags : Word
  rc : Word
  mshift : Word
  phase : Word
  sticky : List Sticky
  chains : SMap Chain
  sup2 : LaneSet
deriving DecidableEq, Repr

/-- A register whose latest result is still in flight (R361): `q`, `v` and `p` rows and `s` registers. -/
inductive MarkDst where
  | q (n : Nat)
  | v (n : Nat)
  | p (n : Nat)
  | s (n : Nat)
deriving DecidableEq, Repr

/-- A result in flight: where it goes, in which lanes, from which clock it is there, what the register held before its
word, whether the checking scoreboard marks it, and the word's window (R327, R361, R362). -/
structure Mark where
  dst : MarkDst
  lanes : LaneSet
  due : Nat
  old : Lanes Word
  chk : Bool
  win : Nat
deriving DecidableEq, Repr

/-- Where a translated address leads (R72, R74): a byte of device memory at a 52-bit physical address, of a core's
array, of host memory, of the device's own registers, of a host MMIO page. -/
inductive Loc where
  | mem (pa : Nat)
  | scratch (core off : Nat)
  | host (pa : Nat)
  | mmio (off : Nat)
  | hostMmio (pa : Nat)
deriving DecidableEq, Repr

/-- A buffered store of an uncommitted window (R185): where, what, and the virtual address it was made at. -/
structure StoreEv where
  loc : Loc
  data : List Byte
  va : Nat
  sync : Bool
deriving DecidableEq, Repr

/-- A slot that a window reserved or took, so that a rollback can return it (R216). -/
structure RingOp where
  handle : Nat
  slot : Nat
  taken : Bool
deriving DecidableEq, Repr

/-- A recorded guard touch (R76): scratchpad bank, byte offset, count. -/
structure GuardTouch where
  bank : Nat
  offset : Nat
  count : Nat
deriving DecidableEq, Repr

/-- An uncommitted window (R316 to R322): its serial number, the checkpoint, the shadow of `v` registers, the distinct `v`
registers written and the other counts of R318, the read set and the pages it was read through, the buffered stores, slots
taken, entries made, touches. -/
structure Window where
  serial : Nat
  ck : Regs
  vOld : Rows
  vregs : List Nat
  isClosed : Bool
  accesses : Nat
  words : Nat
  reads : List Gran
  pages : List Nat
  stores : List StoreEv
  ringOps : List RingOp
  entries : List Nat
  touch : Option GuardTouch
  streak : Nat
  steady : Bool
  updates : List (Nat × List Nat)
deriving DecidableEq, Repr

/-- One lane of an atomic word (R193 to R196): where it acts, its operation code and m, its operands. -/
structure AtomReq where
  lane : Nat
  va : Nat
  loc : Loc
  code : Nat
  m : Nat
  x : Nat
  y : Nat
deriving DecidableEq, Repr

/-- What a load-scoreboard mark waits for (R182, R205, R213, R276). A `WAITCNT` keeps how many buffered stores of its window
precede it, an atomic word its lanes that have not acted: those at a peer with their number `away`, and those to come (R80). -/
inductive LoadKind where
  | data
  | hostMmio (size : Nat)
  | waitcnt (target : Word) (off stores : Nat)
  | slot (handle : Nat) (room : Bool)
  | status (remaining : Nat)
  | remote (size away : Nat) (rest : List AtomReq)
deriving DecidableEq, Repr

/-- A load-scoreboard mark: the `q` registers it holds for the whole warp, the lanes it will write, the window of the
word, what it waits for, the clock before which its values cannot be there (R186), and the registers that the second word of
its pair wrote, with the lanes in which its own value is discarded (R32). -/
structure PendLoad where
  id : Nat
  regs : List Nat
  lanes : LaneSet
  win : Nat
  kind : LoadKind
  due : Nat
  lost : List (Nat × LaneSet)
deriving DecidableEq, Repr

/-- The traps of R394. -/
inductive TrapKind where
  | illegalInstruction | illegalOperand | illegalPairing | stallShort | snanUse | misaligned | pageFault | protection
  | barrierMask | barrierLevel | atomicEmulate | labelRange | bufferMisuse | loopNest | software | svc
  | guardTouch | softError | engineFault
deriving DecidableEq, Repr

/-- A raised trap with its cause fields (R394, R395, R397). With `table` it is none: the word waits for that line of a page table
(R403). -/
structure Trap where
  kind : TrapKind
  aux : Nat := 0
  w2 : Bool := false
  eng : Bool := false
  lane : Nat := 0
  amask : LaneMask := 0
  va : DWord := 0
  pattern : Word := 0
  akind : Nat := 0
  queue : Nat := 0
  reason : Nat := 0
  count : Nat := 0
  fid : Nat := 0
  elem : Nat := 0
  poison : Word := 0
  table : Option Nat := none
deriving DecidableEq, Repr

/-- Why a live warp does not issue (R11). A `commit`, `line` or `becalmed` word issues again when the wait ends, and so
does the word of a `drain` that has not acted; a `slot` word has acted. In a `pair` the first word has issued and the irrevocable second word
acts when their window commits (R107, R329); it reads the registers as they stood `before` the pair (R32). -/
inductive Wait where
  | commit
  | pair (pc : Pc) (lanes : LaneSet) (before : Regs)
  | line (g : Gran)
  | becalmed (dev : Nat)
  | slot (load : Nat)
  | drain (entries : List Nat)
deriving DecidableEq, Repr

/-- What a member's `.arrive` at a level left for its `.wait` (R207, R208): the instance it joined while that is open, or
how the instance ended. -/
inductive BarMark where
  | joined (inst : Nat)
  | completed
  | poisoned
deriving DecidableEq, Repr

/-- Lanes of a warp that wait in a `BAR` (R207): the instance, none once it has completed; the word where they stand; the mode of the
warp; the issue cycle of their `BAR`, and the word at which the first lanes of that issue went on, whose crossing counts for them
all (R136). The warp's other lanes run on. -/
structure BarWait where
  inst : Option Nat
  level : Nat
  pc : Pc
  lanes : LaneSet
  super : Bool
  issue : Nat
  next : Option Pc
deriving DecidableEq, Repr

/-- Why a warp is stopped for good or for a save (R398, R408, R453). -/
inductive Halt where
  | doubleFault | abort | preempt
deriving DecidableEq, Repr

/-- A node of a row's tree stack (R255): level, index, and its value in each of the 16 columns, none where absent. -/
structure TreeNode where
  level : Nat
  index : Nat
  cols : List (Option DWord)
deriving DecidableEq, Repr

/-- A warp in its slot. Identity (R22), counters that rollback keeps (R327), the `v` file and the accumulators,
results in flight, the load scoreboard, windows, and why it does not issue. In the handler, `wasLive` are the threads that
were live at its entry and `late` the results (`q` register, lane, value) that arrived since. `arrivals` are the clocks before
which a word cannot have a loaded `q` register, with the load's window (R186), `crossed` the start packets of long loops that wait for fetch (R367). -/
structure Warp where
  launch : Nat
  block : Nat
  index : Nat
  age : Nat
  ctx : Nat
  code : DWord
  regCount : Nat
  regs : Regs
  v : Rows
  acc : Rows
  trees : SMap (List TreeNode)
  sbchk : Bool
  super : Bool
  trapinfo : Word
  rollbacks : Word
  clk : Nat
  start : Nat
  fFree : Nat
  marks : List Mark
  loads : List PendLoad
  nextLoad : Nat
  windows : List Window
  nextWindow : Nat
  streak : Nat
  nextSteady : Bool
  guard : Option GuardTouch
  pending : Option Trap
  wait : Option Wait
  halt : Option Halt
  pop : Lanes Nat
  since : Lanes Nat
  issues : Nat
  regrouped : Bool
  promoted : LaneSet
  yielded : LaneSet
  waits : Nat
  urgent : Bool
  yieldClock : Bool
  triggered : LaneSet
  arrived : SMap BarMark
  laneArrived : SMap BarMark
  barred : List BarWait
  wasLive : LaneSet
  late : List (Nat × Nat × Word)
  arrivals : List (Nat × Nat × Nat)
  crossed : List (Pc × Nat)
  soft : Option (Nat × Word)
  declares : Nat := 0
deriving DecidableEq, Repr

/-! ### Blocks, rings, barriers, launches -/

/-- One slot of a ring (R216): free (all false), reserved by `owner`, published, filled; `returned` marks a free slot
behind the producer pointer; the takers that took it and those that released it. An owner or taker is a warp
(core × 64 + slot) or an engine entry (2 ^ 20 + entry number). -/
structure Slot where
  reserved : Bool
  published : Bool
  filled : Bool
  returned : Bool
  owner : Nat
  takers : List Nat
  released : List Nat
  order : Nat
deriving DecidableEq, Repr

/-- A configured buffer handle of a block (R214 to R216): `fill` is the next slot to become filled, `seq` numbers the
reservations and fillings of its slots. -/
structure Ring where
  base : Nat
  size : Nat
  rel : Nat
  prod : Nat
  cons : Nat
  fill : Nat
  slots : List Slot
  seq : Nat
deriving DecidableEq, Repr

/-- A resident or ended block (R8, R141): its place, its scratchpad range in the core's array, its allocations (R189),
its rings, the `CPYM` deliveries held for it (R221), the warps that have exited. `ended` once its resources are free, `away` while it is
saved and holds no room on its core. -/
structure Block where
  launch : Nat
  index : Nat
  core : Nat
  base : Nat
  size : Nat
  hstatic : Nat
  warps : Nat
  allocs : List (Nat × Nat)
  rings : SMap Ring
  exited : List Nat
  inbound : List Nat
  triggers : Nat
  ended : Bool
  away : Bool
deriving DecidableEq, Repr

/-- An open barrier instance (R206 to R208): level, group (a warp, a block, or a group of units), launch, membership
mask, and the members that have arrived, in order (lanes at level 1, warp indices at level 2, warps of blocks above). -/
structure BarInst where
  level : Nat
  group : Nat
  launch : Nat
  mask : Nat
  arrived : List Nat
deriving DecidableEq, Repr

/-- A scheduler access that waits on an outstanding fault, or a status or counter write to come (R452, R379). -/
inductive SchedWrite where
  | status (value : Nat)
  | counter (va : DWord)
deriving DecidableEq, Repr

/-- A launch whose record the scheduler has read (R377 to R386): the record's address and its 128 bytes, its placement
entries, its context, its queue, whether it started, which blocks are placed (those on other devices with device and core) or
have ended, the blocks on other devices whose threads have triggered, whether its trigger count was added, writes still owed and
the fault that holds them. Where the scheduler of another device placed blocks here, `home` names it and its launch. -/
structure Launch where
  va : DWord
  record : BitVec 1024
  ctx : Nat
  queue : Nat
  startable : Bool
  started : Bool
  placed : List Nat
  remotePlaced : List (Nat × Nat)
  ended : List Nat
  remoteTriggered : List Nat
  home : Option (Nat × Nat)
  places : List Nat
  tcounted : Bool
  writes : List SchedWrite
  owedFault : Option Nat
  complete : Bool
deriving DecidableEq, Repr

/-- A fault of the scheduler that waits for its resolution (R452): the fault number, what was accessed, and for a placement
table the record that names it (its address, context and contents). -/
structure QueueHold where
  fid : Nat
  what : Nat
  record : Option (DWord × Nat × BitVec 1024)
deriving DecidableEq, Repr

/-- A launch queue (R380): head and tail counts, the records a device queue holds (record address, context, record as
read when it was submitted), the launch at the head once its record is read, an outstanding fault of the head. -/
structure Queue where
  head : Word
  tail : Word
  records : List (DWord × Nat × BitVec 1024)
  current : Option Nat
  hold : Option QueueHold
deriving DecidableEq, Repr

/-- A line's tag in a core's L1: its read count (R77), its weathervane (R197), whether the line is held, of a line whose 64-byte
sectors are held each on its own the sectors that are not there (R423, R424: bit 0, bit 1), and whether it leaves as soon as no window
pins it (R322). -/
structure L1Tag where
  readCount : Nat
  vane : Nat
  valid : Bool
  lacks : Nat
  leaving : Bool
deriving DecidableEq, Repr

/-- The engine operations and queue markers of R81. -/
inductive EngKind where
  | cpy | gath | scat | cpym | fence
  | mzero | mbegin | mend | mma | mmas | mld | mst
  | xfer | xmc | gemvn | coll
deriving DecidableEq, Repr

/-- An entry of an engine queue (R81, R218 to R230, R278): who issued it, its operands as read at issue, its window while
uncommitted, how far it has come, and what its status word will report (R213). `issuedAt` counts the buffered stores of its window
that precede it, `seen` holds what it read before its first element's step (R55, R83), `fed` the blocks that a `CPYM` has served
(R221). Entry numbers rise in issue order. -/
structure Entry where
  kind : EngKind
  queue : Nat
  core : Nat
  slot : Nat
  bound : Bool
  block : Nat
  launch : Nat
  ctx : Nat
  super : Bool
  lane : Nat
  lanes : LaneSet
  acc : Nat
  ty : Nat
  mode : Nat
  addr : DWord
  opA : Lanes Word
  opB : Lanes Word
  args : List Nat
  dst : Nat
  load : Nat
  win : Option Nat
  started : Bool
  elem : Nat
  slotIx : Option Nat
  todo : List Nat
  owed : Nat
  outcome : Nat
  sat : Bool
  guard : Bool
  absent : Bool
  exited : Bool
  skipped : Nat
  fid : Option Nat
  issuedAt : Nat
  seen : List (Loc × List Byte)
  fed : List Nat
  giving : List (Nat × Nat × Nat) := []
deriving DecidableEq, Repr

/-- A core (R9): supply step and its limits (R390, R391), scratchpad ways and a pending change (R387), allowance toward
each device and the regrants that have passed since the core last showed interest in it (R349), the launch that last shifted its step, the slot that each
partition's matrix engine served last (R252). -/
structure Core where
  step : Nat
  lo : Nat
  hi : Nat
  ways : Nat
  newWays : Option Nat
  sa : SMap Nat
  interest : SMap Nat
  shiftedBy : Option Nat
  nextAge : Nat
  served : SMap Nat
deriving DecidableEq, Repr

/-- How the word being executed ended: done, raised a trap, or waits and will issue again; a wait for the line at `pa` of a page table
asks for it as the issue ends (R403). -/
inductive IssueEnd where
  | done | trapped | waits
  | table (pa : Nat)
deriving DecidableEq, Repr

/-- The issue under way (R12, R13): the warp, the word's program counter, the threads that issue it, the warp as it
stood at the start of the clock (R133), whether the word is second of a pair, how it ended, and whether it stands in slot B (R13). -/
structure Cur where
  core : Nat
  slot : Nat
  pc : Pc
  lanes : LaneSet
  before : Warp
  second : Bool
  ended : IssueEnd
  slotB : Bool := false
deriving DecidableEq, Repr

/-- A word's access to host MMIO as it leaves for the host (R91): address, size, the value of a store, who loads. -/
structure HostIo where
  pa : Nat
  size : Nat
  store : Option DWord
  core : Nat
  slot : Nat
  load : Nat
  lane : Nat
deriving DecidableEq, Repr

/-- What happens next: a step of another agent, or an issue cycle of a warp after `delay` further clocks, the
transport's acknowledgement of an Ultra Ethernet packet of a work entry (R310), a flit of a fabric entry (R242), a new try of what waited for a line,
a store of lanes that follows a register write of their word (R184), an early read of a tentative copy entry (R83), an eviction
from a full set of a directory (R412), an eviction of a host sector (R421), a step of a pre-copy pass and the acknowledgement of one of its records (R442), a second of a
core's time in a temperature band (R448). -/
inductive Move where
  | event (i : Instr)
  | lane (key : Nat) (stores : List (Loc × List Byte)) (sync : Bool)
  | host (io : HostIo)
  | issue (core slot delay : Nat)
  | ueAck (inst index : Nat)
  | fabric (entry : Nat)
  | early (entry : Nat)
  | evict
  | pass
  | hostEvict (sector : Nat)
  | passAck (index : Nat)
  | second (core band : Nat)
  | retry
deriving DecidableEq, Repr

/-- A cached translation (R403): the core or unit that holds it, its context, first virtual address, log2 of the page
size, and the leaf. -/
structure TlbEntry where
  unit : Nat
  ctx : Nat
  va : Nat
  lgsz : Nat
  leaf : Nat
deriving DecidableEq, Repr

/-! ### Deterministic sums (R281 to R315) -/

/-- The declaration fields of an object (R201), or those a plan instance declares (R309). -/
structure Decl where
  target : Nat
  leaves : Nat
  elems : Nat
  counter : Nat
  hist : Nat
  corebp : Nat
  slicebp : Nat
deriving DecidableEq, Repr

/-- A reduction object (R281). `status` is the status field, `statusVa` its address and `statusAt` the device and place to which
that led at the declaration (none for a shard),
`bins` the histogram accumulator, `spills` its spill records in use, `home` its home device, `domain` a domain object
(R300), `inst` the plan instance of this device that declared it, `instOf` one of another device (device, instance), `core` and
`slot` the warp that declared it. -/
structure Obj where
  decl : Decl
  ctx : Nat
  super : Bool
  home : Nat
  domain : Bool
  core : Nat
  slot : Nat
  statusVa : Option Nat
  statusAt : Option (Nat × Loc)
  inst : Option Nat
  status : Nat
  live : Bool
  lines : Nat
  wrote : List Nat
  bins : List Nat
  spilled : Bool
  spills : Nat
  block : Option Nat := none
  instOf : Option (Nat × Nat) := none
deriving DecidableEq, Repr

/-- A lull entry (R283): context, virtual address of the root line, the object (none: undeclared), the label (level,
index), presence, partials and residues, the block and core it was made on, whether it arrived as a root collection,
whether its element lies beyond the object of its word (R204), the port that withholds a credit for it (R302), and its place in
the order in which entries reached the lulls. -/
structure LullEntry where
  ctx : Nat
  line : Nat
  obj : Option Nat
  level : Nat
  index : Nat
  present : LaneMask
  vals : Lanes Word
  res : Lanes (BitVec 3)
  core : Nat
  block : Nat
  rootc : Bool
  apart : Bool
  credit : Option Nat
  seq : Nat
deriving DecidableEq, Repr

/-- A lull: entries it keeps, oldest first; arrivals it has not processed, oldest first; whether a full spill area or a
move stops it for a context (R292, R393). -/
structure Lull where
  kept : List LullEntry
  inbox : List LullEntry
  stopped : List Nat
deriving DecidableEq, Repr

/-- A line-done report on its way to the object home slice (R294), the fault that holds it (R202), and how far its handling has
come (R295): 0 not begun, 1 the histogram is to be written, 2 the counter is to be raised. -/
structure LineDone where
  obj : Nat
  incr : List Nat
  fault : Option Nat
  stage : Nat
deriving DecidableEq, Repr

/-- A plan in plan memory (R305 to R307): header fields and the work entries as 256-bit records. -/
structure Plan where
  base : Nat
  sig : DWord
  planid : Word
  nctr : Nat
  members : BitVec 16
  self : Nat
  elems : Nat
  leaves : Nat
  fctr : Nat
  fthr : Word
  peers : List (BitVec 96)
  work : List (BitVec 256)
deriving DecidableEq, Repr

/-- A running plan instance (R309 to R311): its queue entry, its start record's fields, counters, what the work entries that fire have
read so far, which of them fired, and the packets each of them still waits for. -/
structure Inst where
  plan : Plan
  tag : Word
  entry : Nat
  ctx : Nat
  super : Bool
  src : Nat
  dst : Nat
  counter : Nat
  hist : Nat
  obj : Option Nat
  ctrs : List Word
  got : SMap (List Byte)
  fired : List Nat
  owed : SMap Nat
deriving DecidableEq, Repr

/-- A delivered data flit that is not acknowledged yet (R341): its port, slot and ctr, the class of the credit it took, and the slot and
ctr of the route flit of its pair (R351). -/
structure RxRef where
  port : Nat
  slot : Nat
  ctr : Nat
  cls : Option Nat
  route : Option (Nat × Nat)
deriving DecidableEq, Repr

/-- Where an arrival that waits for its instance is held (R302, R313): at its port, in its port lull, or in a spill record. -/
inductive HeldPlace where
  | port | lull | spilled
deriving DecidableEq, Repr

/-- A plan write, or with a label, a presence mask and residues a reduce entry, that waits for its instance (R313): the line address
and context that its flit names (R339), the port whose credit it keeps, the flit to be acknowledged, or the work entry of this device
that sent it. `put` marks bytes on their way to a peer's memory; `seq` is its place in the order of arrival. -/
structure HeldWrite where
  planid : Word
  tag : Word
  sig : Nat
  doff : Nat
  data : List Byte
  label : Option (Word × Word × Nat)
  line : Nat
  ctx : Nat
  credit : Option Nat
  rx : Option RxRef
  work : Option (Nat × Nat)
  put : Bool
  place : HeldPlace := .port
  seq : Nat := 0
deriving DecidableEq, Repr

/-! ### The fabric (R336 to R357) -/

/-- For whom the device stores: an engine entry, an object, a launch. -/
inductive Owner where
  | entry (n : Nat)
  | obj (n : Nat)
  | launch (n : Nat)
deriving DecidableEq, Repr

/-- What waits for the acknowledgement of a sent flit: a fabric entry, a work entry, the first hop of a detour or of a list, a
write to a line of a peer's memory, for a unit of the device that made it, the warp whose `RDECL` other devices learn of. -/
inductive AckTo where
  | none
  | entry (n : Nat)
  | store (o : Option Owner) (line : Option Nat)
  | work (inst index : Nat)
  | relay (rx : RxRef)
  | declare (core slot : Nat)
deriving DecidableEq, Repr

/-- A request or answer between devices (R415 to R419, R197, R200), whose layout in a flit is not in the manual; `bulk`,
`pair` and `entry` are what flits of kinds 3, 4 and 5 bring (R346, R351, R301). A home slice that accepts a store to a line says so with the
line's bytes (`accepted`), and may ask for the line back (`revoke`); a `commit` performs the accepted stores or updates of a
line, an `update` of no stores gives them up. A scheduler that places a block on another device says so (`place`), and hears when its
threads have triggered and when it has ended (R89, R379); `barOpen` tells of a level-6 barrier instance, `barPoison` that one is
poisoned (R208), `barDone` that one has completed; `poke` stores a status for an object in another device's scratchpad or
through its host link (R201); `runs` tells that a context has blocks on the sender, `lost` that it had some on a device that is lost (R314);
`rootLine` counts a root line for the sender's plan instance (R309). A `store` or an `atomic` says whether its page is a sync page. -/
inductive PeerMsg where
  | read (line : Nat)
  | write (line : Nat)
  | writeBack (line : Nat) (data : List Byte)
  | store (pa : Nat) (data : List Byte) (sync : Bool)
  | atomic (size : Nat) (lanes : List AtomReq) (core slot load : Nat) (sync : Bool)
  | update (line : Nat) (stores : List (Nat × List Byte))
  | commit (line : Nat) (stores : List (Nat × List Byte))
  | revoke (line : Nat)
  | recall (page : Nat)
  | recallAck (page : Nat)
  | data (line : Nat) (grant : CxlState) (bytes : List Byte)
  | accepted (line : Nat) (bytes : List Byte)
  | old (line core slot load : Nat) (values : List (Nat × Nat))
  | updateAck (line : Nat)
  | place (launch : Nat) (va : DWord) (record : BitVec 1024) (ctx block core : Nat)
  | ended (launch block : Nat)
  | triggered (launch block : Nat)
  | lost (ctx : Nat)
  | barOpen (home launch mask : Nat)
  | barPoison (home launch mask : Nat)
  | barDone (home launch mask : Nat)
  | declare (ctx : Nat) (d : Decl) (home : Nat) (statusVa : Option Nat) (statusAt : Option (Nat × Loc)) (inst : Option Nat)
  | rootLine (inst : Nat)
  | runs (ctx : Nat)
  | poke (loc : Loc) (data : List Byte)
  | retire (ctx target : Nat)
  | bulk (pa : Nat) (data : List Byte) (core cnt : Nat) (nc : Bool)
  | pair (route : Flit) (data : List Byte)
  | entry (e : LullEntry)
deriving DecidableEq, Repr

/-- A message of a peer that waits for a line or a page here (R414): its origin, and the flit to be acknowledged. -/
structure PeerHold where
  src : Nat
  msg : PeerMsg
  rx : Option RxRef
deriving DecidableEq, Repr

/-- A flit that waits in the hub's queue toward a device (R348, R349): the core whose allowance it draws (192: the
collective engine), whether the draw is still to be made, and who waits for it. -/
structure OutFlit where
  flit : Flit
  core : Nat
  draw : Bool
  ack : AckTo
deriving DecidableEq, Repr

/-- A flit in a replay buffer (R341, R342): its 256 bytes as sealed (R338, R343), how often it was sent, the device whose pool its credit is of, and
what its acknowledgement releases. -/
structure Replay where
  flit : Flit
  image : List Byte
  sends : Nat
  credit : Option Nat
  ack : AckTo
deriving DecidableEq, Repr

/-- A key slot (R432, R433): the key, its link identity, whether no flit was sealed under it yet. -/
structure KeySlot where
  key : BitVec 256
  lid : Nat
  fresh : Bool
deriving DecidableEq, Repr

/-- One direction pair of a Dallixa port (R336 to R345, R357). `link`: 0 down, 1 training, 2 up. `retiring` is the old
send slot after a switch; `rxSlot`, `rxNext` the next flit expected in order; `early` the flits held beyond it; `unacked`
delivered flits whose effect is not complete, as (slot, ctr); `nakOwed` a missing flit is to be reported; `lent` the credits that its flits hold, as (class, device);
`route` a route flit whose data flit is to come (R351), `sentCtl` the last control flit sent. A control flit's credit fields count modulo
256 (R342): `credSent` as sent last, `credSeen` as received last; `told` are the refusals that it repeats. -/
structure Port where
  en : Bool
  pv : Bool
  peer : Nat
  link : Nat
  txSlot : Nat
  txCtr : Nat
  ctlCtr : Nat
  retiring : Bool
  rxSlot : Nat
  rxNext : Nat
  early : List Flit
  ctlSeen : List (Option Nat)
  replay : List Replay
  ackOwed : Bool
  nakOwed : Bool
  credOwed : List Nat
  credSent : List Nat
  credSeen : List Nat
  refusals : List (Nat × Nat)
  told : List (Nat × Nat)
  unacked : List (Nat × Nat)
  lent : List (Nat × Nat)
  route : Option Flit
  sentCtl : Option (Flit × List Byte)
  peerUp : BitVec 16
  txData : DWord
  rxData : DWord
  retx : Word
  authf : Word
  ksw : Word
  relayed : Word
  perr : Word
deriving DecidableEq, Repr

/-- The pool of credits toward a device (R348): credits outstanding, the becalmed warps in order, those that woke with their counts of
issue cycles (R355), the port that carried the latest flit (R337). -/
structure Pool where
  outstanding : Nat
  becalmed : List Nat
  woken : List (Nat × Nat)
  last : Option Nat
deriving DecidableEq, Repr

/-! ### Coherence, the page protocol, the host (R411 to R427) -/

/-- A directory entry of a home slice (R412): the line's state, its holders, cores 0 to 191 and 192 the hub, and the way of its
set; one from 16 on waits for an eviction. -/
structure DirLine where
  st : CxlState
  holders : List Nat
  way : Nat
deriving DecidableEq, Repr

/-- A page that is not Local (R416). -/
inductive PageState where
  | shared (xs : List Nat)
  | lent (d : Nat)
deriving DecidableEq, Repr

/-- An entry of the page-state cache (R416): the state, and a stamp of its latest use. -/
structure Page where
  state : PageState
  used : Nat
deriving DecidableEq, Repr

/-- A recall under way (R419): the devices recalled, those whose acknowledgement is owed, and the request that waits behind it. -/
structure Recall where
  page : Nat
  devs : List Nat
  owed : List Nat
  then_ : Option (Nat × PageReq)
  driver : Bool
deriving DecidableEq, Repr

/-- A line in service for a store: a write-update (R415), or, with `hold`, a peer's store that its home slice has accepted
(R417, R418); `hold` says whether the line was asked back. The warp whose window sent it (core 256 + d: device d; 255: an atomic
that has acted), the sharers that have not acknowledged (192: the hub, 256 + d: device d), and the stores where they are not a
window's own. A word outside a window has window 0. -/
structure SyncUpd where
  core : Nat
  slot : Nat
  win : Nat
  owed : List Nat
  data : List (Nat × List Byte)
  hold : Option Bool
deriving DecidableEq, Repr

/-! ### Faults of engines and the scheduler, pre-emption (R405 to R410, R452, R453) -/

/-- What an outstanding engine fault suspends. -/
inductive Suspended where
  | entry (n : Nat)
  | spill (lull : Nat) (e : LullEntry)
  | root (lull ctx line : Nat)
  | report (obj : Nat)
  | queue (q : Nat) (what : Nat)
  | counter (launch : Nat) (which : Nat)
  | write (launch : Nat)
  | work (inst index : Nat)
deriving DecidableEq, Repr

/-- An outstanding engine fault (R405): the fields of its record, whether a ring record was written or a handler entry
holds it, and what it suspends. -/
structure EFault where
  va : DWord
  elem : Nat
  ctx : Nat
  core : Nat
  slot : Nat
  queue : Nat
  cause : Nat
  kind : Nat
  recorded : Bool
  handler : Bool
  entered : Bool
  what : Suspended
  block : Option Nat := none
deriving DecidableEq, Repr

/-- A pre-emption under way (R408): the launches it names, whether it takes the whole context, its context. -/
structure Preempt where
  launches : List Nat
  whole : Bool
  ctx : Nat
deriving DecidableEq, Repr

/-- A record of a context record (R409). Warps, blocks and entries are named by the address of their launch's record and
the block's index; a warp by its core and slot; its arrivals are the instances it has joined (number, level, mask). -/
inductive Saved where
  | context (ctx : Nat) (entry : BitVec 512) (dev : Nat) (sig : DWord) (whole : Bool)
  | warp (rec_ : DWord) (bindex core slot : Nat) (w : Warp) (arrivals : List (Nat × Nat × Nat))
  | block (rec_ : DWord) (b : Block) (pad : List Byte)
  | object (n : Nat) (o : Obj) (reports : List LineDone)
  | entry (rec_ : DWord) (bindex n : Nat) (e : Entry)
  | status (rec_ : DWord) (bindex core slot load lane value : Nat)
  | inst (n : Nat) (running : Bool) (i : Inst)
  | last
deriving DecidableEq, Repr

/-! ### Snapshots, pre-copy, soft errors -/

/-- A snapshot trigger being distributed (R437): its number, source, tag and core, and the blocks that have latched. -/
structure Snap where
  seq : Word
  src : Nat
  tag : Nat
  core : Nat
  latched : List Nat
  spread : Bool
deriving DecidableEq, Repr

/-- A pre-copy pass under way (R442): the value that started it, the range and the bitmap word at which its exchange stands, the
halves of pages that are read and sent next (range, half of the range), the sealed records that have left for the receiver (R443) and
are not acknowledged. -/
structure PassRun where
  ctl : Nat
  pos : Nat × Nat
  halves : List (Nat × Nat)
  records : List PrecopyRecord
deriving DecidableEq, Repr


/-! ### The device -/

/-- One KX6 device. `agenda` lists the steps the environment and time take next; where it is empty the device's own
policy chooses (R11, R13). `left` keeps the accumulators of exited warps whose matrix entries still run. `clk` counts
are per warp; `free` is the model's own counter of free values; `stale` keeps the bytes that stores replaced while a launch ran, oldest
first, as (launch, address, bytes), for the fetches of R109; `turn` is the queue that placed the latest block of each class (R382); `revoked` the peers' lines that were asked back before their store was
accepted here, `owedStatus` the object statuses to be written (object, device, place, value), `lullSeq` numbers the arrivals at lulls,
`nextInst` numbers the plan instances, `ctxDevs` says which contexts had blocks on which other device, as (device, context) (R314);
`storesOut` for whom stores to peers' memory are still to be performed, `away` the peers' lines to which a store or an atomic of this
device is under way; `lendFor` the warps for whose request a page was lent, with their counts of issue cycles (R419); `voided` the lines
whose answer under way is not kept, since their page was recalled before it came (R419); `prefs` the lines that a `PREF` asked for,
with the core and whether to be written (R188); `farBars` the level-6 instances open on other devices, as (device, home and number of
the launch, mask); `ueOut` the Ultra Ethernet packets that have left and
are not acknowledged: instance, work entry, peer, packet (R315). -/
structure State where
  cur : Option Cur
  agenda : List Move
  free : Nat
  self : Nat
  present : BitVec 16
  mem : Memory
  stale : List (Nat × Nat × List Byte)
  scratch : Memory
  warps : SMap Warp
  left : SMap Warp
  cores : SMap Core
  blocks : SMap Block
  bars : SMap BarInst
  launches : SMap Launch
  queues : SMap Queue
  turn : SMap Nat
  entries : SMap Entry
  nextEntry : Nat
  l1 : SMap L1Tag
  tlb : List TlbEntry
  ctxs : SMap (BitVec 512)
  spbase : DWord
  held : SMap CxlState
  wanted : List (Nat × Bool)
  hostIo : List HostIo
  mmio : SMap DWord
  msix : List Nat
  objs : SMap Obj
  lulls : SMap Lull
  reports : List LineDone
  owedStatus : List (Nat × Nat × Loc × Nat)
  lullSeq : Nat
  plans : SMap Plan
  insts : SMap Inst
  nextInst : Nat
  ctxDevs : List (Nat × Nat)
  heldWrites : List HeldWrite
  ports : SMap Port
  hubq : SMap (List OutFlit)
  pools : SMap Pool
  dir : SMap DirLine
  hostSec : SMap CxlState
  backInv : List (Nat × Bool)
  pages : SMap Page
  recalls : List Recall
  updates : SMap SyncUpd
  revoked : List Nat
  storesOut : List Owner
  away : List Nat
  lendFor : List (Nat × Nat × Nat)
  voided : List Nat
  prefs : List (Loc × Nat × Bool)
  farBars : List (Nat × Nat × Nat × Nat)
  loans : SMap Bool
  peerWait : List PeerHold
  efaults : List (Nat × EFault)
  nextFid : Nat
  inval : Option (Nat × Nat × Nat × Nat)
  aborts : List Nat
  preempt : Option Preempt
  saved : List (Nat × Saved)
  waiting : List Saved
  keys : SMap KeySlot
  kek : Option (BitVec 256)
  ide : Bool × Bool
  spdm : Nat × Bool
  snap : Option Snap
  pass : Option PassRun
  pcSeen : List (Nat × DWord)
  pcCtr : SMap DWord
  life : SMap DWord
  flash : SMap DWord
  commits : DWord
  poison : SMap Nat
  softKills : SMap Nat
  issued : SMap DWord
  ueCount : SMap DWord
  ueOut : List (Nat × Nat × BitVec 96 × UePacket)
deriving DecidableEq, Repr

/-- Why the machine stops with a fault. -/
inductive Fault where
  /-- A word is executed while no warp issues: raised by the shared issue check. Safe: no run of `step` reaches it. -/
  | noIssue
deriving DecidableEq, Repr

/-- Why an instruction has no meaning here. -/
inductive Refusal where
  /-- The instruction is not modelled yet. Raised by `exec` alone. Safe: the model stops. -/
  | notModelled (mnemonic : String)
deriving DecidableEq, Repr

/-- A core right after reset (R387, R391): step 16, limits 0 and 32, eight scratchpad ways, no allowance. -/
def Core.reset : Core :=
  { step := 16, lo := 0, hi := 32, ways := 8, newWays := none, sa := [], interest := [], shiftedBy := none, nextAge := 0,
    served := [] }

/-- The machine right after reset (R428 to R431). -/
def State.reset : State :=
  { cur := none, agenda := [], free := 0, self := 0, present := 1, mem := [], stale := [], scratch := []
    warps := [], left := [], cores := [], blocks := [], bars := [], launches := [], queues := [], turn := []
    entries := [], nextEntry := 0, l1 := [], tlb := [], ctxs := [], spbase := 0x01FFFFFFFFF00000, held := [], wanted := []
    hostIo := [], mmio := [], msix := [], objs := [], lulls := [], reports := [], owedStatus := [], lullSeq := 0
    plans := [], insts := [], nextInst := 0, ctxDevs := [], heldWrites := [], ports := [], hubq := [], pools := []
    dir := [], hostSec := [], backInv := [], pages := [], recalls := [], updates := [], revoked := [], storesOut := []
    away := [], lendFor := [], voided := [], prefs := [], farBars := [], loans := [], peerWait := [], efaults := []
    nextFid := 0, inval := none, aborts := [], preempt := none, saved := [], waiting := [], keys := [], kek := none
    ide := (false, false), spdm := (0, false), snap := none, pass := none, pcSeen := [], pcCtr := [], life := [], flash := []
    commits := 0, poison := [], softKills := [], issued := [], ueCount := [], ueOut := [] }

end Sys2Proof.Machine
end

