-- ==== Sys2Proof/Machine/Operands.lean ====
section
/-! DEFINITION. Every operand form: near operands with their early reads (R31, R110, R111, R361), wide operands (R112),
predicates and guards (R6), main-file registers (R179), and the writes with their latencies and `y` shifts (R18). -/
namespace Sys2Proof.Machine

/-- The element type an entry gives an operand; it chooses the column of R111. -/
inductive ElemTy where
  | int | f32 | i16x2 | f16x2 | bf16x2 | i8x4
deriving DecidableEq, Repr

/-- The constants of R111, selectors 28 to 31. -/
def constant (ty : ElemTy) (n : Fin 4) : Word :=
  match ty, n.val with
  | _, 0 => 0
  | .int, 1 => 1 | .f32, 1 => 0x3F800000 | .i16x2, 1 => 0x00010001
  | .f16x2, 1 => 0x3C003C00 | .bf16x2, 1 => 0x3F803F80 | .i8x4, 1 => 0x01010101
  | .int, 2 => 0xFFFFFFFF | .f32, 2 => 0xBF800000 | .i16x2, 2 => 0xFFFFFFFF
  | .f16x2, 2 => 0xBC00BC00 | .bf16x2, 2 => 0xBF80BF80 | .i8x4, 2 => 0xFFFFFFFF
  | .int, _ => 0x80000000 | .f32, _ => 0x3F000000 | .i16x2, _ => 0x80008000
  | .f16x2, _ => 0x38003800 | .bf16x2, _ => 0x3F003F00 | .i8x4, _ => 0x80808080

/-! ### The register files -/

/-- Register `q`n in every lane; its launch marker where nothing was written (R24). -/
def Regs.qRow (r : Regs) (n : Nat) : Lanes Word :=
  SMap.getD r.q n (Lanes.all (BitVec.ofNat 32 (0x7FA00080 + n)))

/-- Register `v`n in every lane; its launch marker where nothing was written (R24). -/
def Warp.vRow (w : Warp) (n : Nat) : Lanes Word :=
  SMap.getD w.v n (Lanes.all (BitVec.ofNat 32 (0x7FA00000 + n)))

/-- Uniform register `s`n; 0 where nothing was written (R21). -/
def Regs.sReg (r : Regs) (n : Nat) : Word := SMap.getD r.s n 0

/-- Predicate `p`n in every lane; false where nothing was written (R17). -/
def Regs.pRow (r : Regs) (n : Nat) : LaneSet := SMap.getD r.p n (Lanes.all false)

/-- Predicate bits as register bits, for the record of an older value. -/
def predWord (b : Bool) : Word := if b then 1 else 0

/-- The marks issued after the latest-issued one that has arrived by `clk` (R361). -/
def unarrived (clk : Nat) (ms : List Mark) : List Mark :=
  ms.foldl (fun acc m => if m.due ≤ clk then [] else acc ++ [m]) []

/-- What a read of `dst` in lane `l` returns at the warp's clock (R361), where `final` is the value once every result
has arrived. -/
def Warp.earlyRead (w : Warp) (dst : MarkDst) (l : Fin 32) (final : Word) : Word :=
  match unarrived w.clk (w.marks.filter fun m => m.dst == dst && m.lanes[l]) with
  | [] => final
  | m :: _ => m.old[l]

/-- `q`n of lane `l` as a word that issues now reads it. -/
def Warp.readQ (w : Warp) (n : Nat) (l : Fin 32) : Word := w.earlyRead (.q n) l (w.regs.qRow n)[l]

/-- `v`n of lane `l` as a word that issues now reads it. -/
def Warp.readV (w : Warp) (n : Nat) (l : Fin 32) : Word := w.earlyRead (.v n) l (w.vRow n)[l]

/-- `s`n as a word that issues now reads it. -/
def Warp.readS (w : Warp) (n : Nat) : Word := w.earlyRead (.s n) 0 (w.regs.sReg n)

/-- `p`n of lane `l` as a word that issues now reads it. -/
def Warp.readP (w : Warp) (n : Nat) (l : Fin 32) : Bool :=
  w.earlyRead (.p n) l (predWord (w.regs.pRow n)[l]) != 0

/-- A value of `y` that is there. -/
def yKnown (val : DWord) : YPos := { val := val, due := 0, load := none, chk := false }

/-- A `y` stack at launch: four zeros (R17). -/
def yLaunch : List YPos := List.replicate 4 (yKnown 0)

/-- The value of a position has arrived (R31): its latency has passed and its load, if any, was released. -/
def Warp.yArrived (w : Warp) (e : YPos) : Bool :=
  e.due ≤ w.clk && match e.load with
    | none => true
    | some id => !w.loads.any fun ld => ld.id == id

/-- What position `n` holds as a word that issues now reads it, where `ys` begins with the value that stands there (R31): that
value once it has arrived, until then what the position held before its producer issued, which is `n` + 1 values older. -/
def Warp.yAt (w : Warp) (n : Nat) : Nat → List YPos → DWord
  | 0, _ => 0
  | fuel + 1, ys =>
    match ys with
    | [] => 0
    | e :: rest => if w.yArrived e then e.val else w.yAt n fuel (rest.drop n)

/-- Position `n` of lane `l` (R31, R361). -/
def Warp.readY (w : Warp) (n : Nat) (l : Fin 32) : DWord :=
  let ys := (w.regs.y[l]).drop n
  w.yAt n ys.length ys

/-- A 32-bit near operand of type `ty` in lane `l` (R110, R111). -/
def Warp.read32 (w : Warp) (ty : ElemTy) : Near → Fin 32 → Word
  | .q n, l => w.readQ n.val l
  | .y n, l => (w.readY n.val l).setWidth 32
  | .s n, _ => w.readS n.val
  | .k n, _ => constant ty n

/-- Register `k` places above a near operand's own number, for wide operands (R112). -/
def Warp.readAt (w : Warp) (n : Near) (k : Nat) (l : Fin 32) : Word :=
  match n with
  | .q m => w.readQ (m.val + k) l
  | .s m => w.readS (m.val + k)
  | n => w.read32 .int n l

/-- A 64-bit operand: the even register is the low word (R44). -/
def Warp.read64 (w : Warp) (n : Near) (l : Fin 32) : DWord := w.readAt n 1 l ++ w.readAt n 0 l

/-- A 128-bit operand. -/
def Warp.read128 (w : Warp) (n : Near) (l : Fin 32) : BitVec 128 :=
  w.readAt n 3 l ++ w.readAt n 2 l ++ (w.readAt n 1 l ++ w.readAt n 0 l)

/-- Lane `l`'s guard passes (R6). -/
def Warp.guardPasses (w : Warp) (h : Hdr) (l : Fin 32) : Bool :=
  match h.guard with
  | none => true
  | some (g, neg) => w.readP g.val l != neg

/-- `active` (R6): the issuing lanes whose guard passes. -/
def Warp.active (w : Warp) (h : Hdr) (issuing : LaneSet) : LaneSet :=
  Lanes.ofFn fun l => issuing[l] && w.guardPasses h l

/-! ### Writes -/

/-- The serial number of the open window; 0 where none is open. -/
def Warp.winNow (w : Warp) : Nat := (w.windows.find? fun x => !x.isClosed).elim 0 (·.serial)

/-- Adds the record of a result in flight (R361). -/
def Warp.mark (w : Warp) (dst : MarkDst) (m : LaneSet) (lat : Nat) (old : Lanes Word) : Warp :=
  { w with marks := w.marks ++ [{ dst := dst, lanes := m, due := w.clk + lat, old := old, chk := w.sbchk, win := w.winNow }] }

/-- `q`n := `f` in the lanes of `m`; the result is there `lat` clocks from now. -/
def Warp.setQ (w : Warp) (n : Nat) (m : LaneSet) (f : Fin 32 → Word) (lat : Nat) : Warp :=
  let old := w.regs.qRow n
  let w := w.mark (.q n) m lat old
  { w with regs := { w.regs with q := SMap.put w.regs.q n (Lanes.write old m f) } }

/-- A window keeps the old row of a `v` register that it writes for the first time, and counts it (R318, R320). -/
def Window.shadow (x : Window) (n : Nat) (old : Lanes Word) : Window :=
  { x with
    vOld := if (SMap.get? x.vOld n).isSome then x.vOld else SMap.put x.vOld n old
    vregs := if x.vregs.contains n then x.vregs else x.vregs ++ [n] }

/-- `v`n := `f` in the lanes of `m`. The window's shadow keeps the old row (R320). -/
def Warp.setV (w : Warp) (n : Nat) (m : LaneSet) (f : Fin 32 → Word) (lat : Nat) : Warp :=
  let old := w.vRow n
  let w := w.mark (.v n) m lat old
  { w with
    v := SMap.put w.v n (Lanes.write old m f)
    windows := match w.windows.reverse with
      | [] => []
      | win :: rest => if win.isClosed then w.windows else (win.shadow n old :: rest).reverse }

/-- `p`n := `f` in the lanes of `m`. -/
def Warp.setP (w : Warp) (n : Nat) (m : LaneSet) (f : Fin 32 → Bool) (lat : Nat) : Warp :=
  let old := w.regs.pRow n
  let w := w.mark (.p n) m lat (Lanes.ofFn fun l => predWord old[l])
  { w with regs := { w.regs with p := SMap.put w.regs.p n (Lanes.write old m f) } }

/-- `s`n := `x` for the warp. -/
def Warp.setS (w : Warp) (n : Nat) (x : Word) (lat : Nat) : Warp :=
  let old := w.regs.sReg n
  let w := w.mark (.s n) (Lanes.all true) lat (Lanes.all old)
  { w with regs := { w.regs with s := SMap.put w.regs.s n x } }

/-- The `y` stack with a value shifted in (R18, R31). -/
def yPush (old : List YPos) (val : DWord) (due : Nat) (load : Option Nat) (chk : Bool) : List YPos :=
  { val := val, due := due, load := load, chk := chk } :: old

/-- How many values of a `y` stack can still be read: the four positions, and the four behind the oldest value that has not
arrived (R31). -/
def Warp.yDepth (w : Warp) (ys : List YPos) : Nat :=
  ys.zipIdx.foldl (fun n e => if w.yArrived e.1 then n else max n (e.2 + 5)) 4

/-- The `y` stacks without the values that no read can return any more. -/
def Warp.trimY (w : Warp) : Warp :=
  { w with regs := { w.regs with y := Lanes.ofFn fun l => (w.regs.y[l]).take (w.yDepth w.regs.y[l]) } }

/-- Shifts `f` into `y` in the lanes of `m` (R18), arriving after `lat` clocks, or with load `load`. -/
def Warp.shiftY (w : Warp) (m : LaneSet) (f : Fin 32 → DWord) (lat : Nat) (load : Option Nat := none) : Warp :=
  { w with regs := { w.regs with
      y := Lanes.write w.regs.y m fun l => yPush w.regs.y[l] (f l) (w.clk + lat) load w.sbchk } }

/-- The destination register of a near operand; a selector that is no `q` register names none (R112). -/
def nearReg : Near → Nat
  | .q n => n.val
  | _ => 16

/-- A 32-bit result: d and the zero-extended shift into `y` (R18). -/
def Warp.put32 (w : Warp) (d : Near) (m : LaneSet) (f : Fin 32 → Word) (lat : Nat) : Warp :=
  (w.setQ (nearReg d) m f lat).shiftY m (fun l => (f l).setWidth 64) lat

/-- A 64-bit result: the pair d, d + 1 and one shift of the whole value (R18). -/
def Warp.put64 (w : Warp) (d : Near) (m : LaneSet) (f : Fin 32 → DWord) (lat : Nat) : Warp :=
  ((w.setQ (nearReg d) m (fun l => (f l).setWidth 32) lat).setQ (nearReg d + 1) m
    (fun l => (f l >>> 32).setWidth 32) lat).shiftY m f lat

/-! ### What a word reads, for the scoreboards -/

/-- A register or position a word reads, with its code in `sr.trapinfo` (R395). -/
inductive Src where
  | reg (dst : MarkDst) (code : Nat)
  | y (n : Nat)
deriving DecidableEq, Repr

/-- The registers of a near operand of `k` registers. -/
def nearSrcs (n : Near) (k : Nat) : List Src :=
  (List.range k).filterMap fun j =>
    match n with
    | .q m => some (.reg (.q (m.val + j)) (m.val + j))
    | .s m => some (.reg (.s (m.val + j)) (20 + m.val + j))
    | .y m => some (.y m.val)
    | .k _ => none

/-- What an operand reads (R362). -/
def opndSrcs : Opnd → List Src
  | .src32 n | .rw32 n => nearSrcs n 1
  | .src64 n | .rw64 n => nearSrcs n 2
  | .src128 n | .rw128 n => nearSrcs n 4
  | .rw256 n => nearSrcs n 8
  | .rdP p => [.reg (.p p.val) (0x400 + p.val)]
  | .rdV v => [.reg (.v v) (0x800 + v)]
  | .rdS s => [.reg (.s s) (0x200 + s)]
  | .dst32 _ | .dst64 _ | .dst128 _ | .wrP _ | .wrV _ | .wrS _ => []

/-- What a word reads: its guard, then its operands in field order. -/
def instrSrcs (i : Instr) : List Src :=
  (match i.hdr? with
   | some { guard := some (g, _), .. } => [Src.reg (.p g.val) (0x400 + g.val)]
   | _ => []) ++ i.operands.flatMap opndSrcs

/-- The lowest lane of `issuing` in which the checking scoreboard marks a register or position (R362). -/
def Warp.marked (w : Warp) (issuing : LaneSet) : Src → Option (Fin 32)
  | .reg dst _ => (LaneSet.list issuing).find? fun l => w.marks.any fun m => m.chk && m.dst == dst && w.clk < m.due && m.lanes[l]
  | .y n => (LaneSet.list issuing).find? fun l =>
      match (w.regs.y[l])[n]? with
      | none => false
      | some e => e.chk && !w.yArrived e

/-- The code in `sr.trapinfo` of a source (R395). -/
def Src.code : Src → Nat
  | .reg _ c => c
  | .y n => 16 + n

/-- Item 5 of R124: the first source that the word would read early although the checking scoreboard marks it, which it does
for words issued under `sr.sbchk` = 1 (R155, R362): its code, and the lowest lane that reads it early (R394). -/
def Warp.stallShort (w : Warp) (i : Instr) (issuing : LaneSet) : Option (Nat × Nat) :=
  (instrSrcs i).findSome? fun x => (w.marked issuing x).map fun l => (x.code, l.val)

/-- The `q` registers a word names as source or destination (R182, R361). -/
def opndQRegs : Opnd → List Nat
  | .dst32 (.q n) | .src32 (.q n) | .rw32 (.q n) => [n.val]
  | .dst64 (.q n) | .src64 (.q n) | .rw64 (.q n) => [n.val, n.val + 1]
  | .dst128 (.q n) | .src128 (.q n) | .rw128 (.q n) => [n.val, n.val + 1, n.val + 2, n.val + 3]
  | .rw256 (.q n) => (List.range 8).map (n.val + ·)
  | _ => []

/-- The load scoreboard holds an operand of the word (R11, R182, R361). -/
def Warp.heldByLoad (w : Warp) (i : Instr) : Bool :=
  let named := i.operands.flatMap opndQRegs
  w.loads.any fun ld => ld.regs.any named.contains

/-! ### Late values (R182, R361) -/

/-- The lanes of `m` in which a late value still reaches register `q`n: not those where the second word of the load's pair wrote
it (R32). -/
def PendLoad.reach (ld : PendLoad) (n : Nat) (m : LaneSet) : LaneSet :=
  ld.lost.foldl (fun m e => if e.1 = n then LaneSet.diff m e.2 else m) m

/-- A late value of a load in the lanes of `m`: its registers take its 32-bit parts, its `y` position the whole. -/
def Regs.deliver (r : Regs) (ld : PendLoad) (m : LaneSet) (f : Fin 32 → Nat) : Regs :=
  let q := ld.regs.zipIdx.foldl (fun q e =>
    SMap.put q e.1 (Lanes.write (SMap.getD q e.1 (r.qRow e.1)) (ld.reach e.1 m) fun l => BitVec.ofNat 32 (f l / 2 ^ (32 * e.2)))) r.q
  let y := Lanes.write r.y m fun l => r.y[l].map fun p =>
    if p.load = some ld.id then { p with val := BitVec.ofNat 64 (f l) } else p
  { r with q := q, y := y }

/-- The `q` registers, lanes and values that a late value of a load gives. -/
def PendLoad.late (ld : PendLoad) (m : LaneSet) (f : Fin 32 → Nat) : List (Nat × Nat × Word) :=
  ld.regs.zipIdx.flatMap fun e => (LaneSet.list (ld.reach e.1 m)).map fun l => (e.1, l.val, BitVec.ofNat 32 (f l / 2 ^ (32 * e.2)))

/-- A late value of a load: it reaches the registers, and the checkpoints of the windows that opened after the load. What
arrives while the handler runs also reaches the registers that `RFT` reloads. -/
def Warp.deliver (w : Warp) (ld : PendLoad) (m : LaneSet) (f : Fin 32 → Nat) : Warp :=
  let fix := fun (r : Regs) => r.deliver ld m f
  let win := fun (x : Window) => if ld.win < x.serial then { x with ck := fix x.ck } else x
  { w with regs := fix w.regs, windows := w.windows.map win, late := if w.super then w.late ++ ld.late m f else w.late }

/-- The mark of a load is released. -/
def Warp.release (w : Warp) (id : Nat) : Warp := { w with loads := w.loads.filter fun ld => ld.id != id }

/-- The values of a load have arrived in the model; a word that names its registers issues no earlier than R186 allows. -/
def Warp.arrive (w : Warp) (ld : PendLoad) : Warp :=
  { w.release ld.id with
    arrivals := if w.clk < ld.due then ld.regs.map (fun r => (r, ld.due, ld.win)) ++ w.arrivals else w.arrivals }

/-- The load of a number. -/
def Warp.load? (w : Warp) (id : Nat) : Option PendLoad := w.loads.find? fun ld => ld.id = id

/-! ### Where the threads go next -/

/-- The effect of a crossing of packet `e` on the loop levels, innermost first, and the packet it redirects to (R136). -/
def crossLoops (e : Word) : List Loop → List Loop × Option Word
  | [] => ([], none)
  | lv :: rest =>
    if lv.stop = e then
      if 1 < lv.count.toNat then ({ lv with count := lv.count - 1 } :: rest, some lv.start)
      else crossLoops e rest
    else (lv :: rest, none)

/-- Sets the program counters of the live threads of `m`. -/
def Warp.setPcs (w : Warp) (m : LaneSet) (f : Fin 32 → Pc) : Warp :=
  { w with regs := { w.regs with
      threads := Lanes.write w.regs.threads m fun l => { (w.regs.threads[l]) with pc := f l } } }

/-- The threads of `m` pass from the word at `pc` to the next one, skipping `lits` literal words (R106, R108); from
word 2 they cross the packet (R136). A crossing back to the start of a body of 86 packets or more costs 4 clocks (R367). After
the last packet comes packet 0 (DESIGN CHOICE, log 80). -/
def Warp.advance (w : Warp) (pc : Pc) (m : LaneSet) (lits : Nat) : Warp :=
  if pc.word + lits < 2 then w.setPcs m fun _ => { pc with word := pc.word + 1 + lits }
  else if LaneSet.any m then
    let (loops, dest) := crossLoops pc.packet w.regs.loops
    let far : Bool := dest.elim false fun d => 86 ≤ pc.packet.toNat - d.toNat + 1
    let next : Pc := { packet := dest.getD (pc.packet + 1), word := 0 }
    let w := { w with regs := { w.regs with loops := loops }
                      crossed := if far then (next, w.clk + 5) :: w.crossed else w.crossed }
    w.setPcs m fun _ => next
  else w

end Sys2Proof.Machine
end

