-- ==== Sys2Proof/Config.lean ====
section
/-! DEFINITION. What an implementation fixes and the manual leaves open: constants with no body, so that no proof
can see what they are. Every claim about them holds whatever they are. -/
namespace Sys2Proof.Config

/-- The fused supply table of R390: millivolts of core `c` at step `s` (the part's own table, not in the manual). -/
opaque fusedMv : Nat → Nat → BitVec 10

/-- The fused device serial number of R448. -/
opaque deviceSerial : DWord

/-- The register count that a launch declares (R179), by its record, in which the manual gives it no field. -/
opaque launchRegs : BitVec 1024 → Nat

/-- Functions fused off or failed at test, the layout of `BU_FAIL` (R429). -/
opaque fusedOff : DWord

/-- Byte `k` of the AES-256 counter stream of a key and an IV, as GCM of NIST SP 800-38D makes it (R343): the cipher is outside the manual. -/
opaque gcmStream : BitVec 256 → BitVec 96 → Nat → Byte

/-- The 128-bit GCM tag of a key, an IV, additional data and a ciphertext. -/
opaque gcmTag : BitVec 256 → BitVec 96 → List Byte → List Byte → BitVec 128

/-- AES key unwrap of RFC 3394 (R432): key-wrapping key and 40 wrapped bytes to a key, `none` when the check fails. -/
opaque keyUnwrap : BitVec 256 → BitVec 320 → Option (BitVec 256)

/-- A value the manual leaves open, fresh for each argument. -/
opaque freeValue : Nat → DWord

/-- What an uncorrected soft error leaves in word `k` of the structure that it hits (R400), the `n`-th time: the manual does not say. -/
opaque softWord : Nat → Nat → Word

/-- Which of the values that a code word has had since its launch's start a fetch takes (R109): of a core's warp by its age, at a
clock of it, after a count of free values, at an address. -/
opaque staleFetch : Nat → Nat → Nat → Nat → Nat → Nat

end Sys2Proof.Config
end

