-- ==== Sys2Proof/Machine/Translate.lean ====
section
/-! DEFINITION. Contexts (R392) and translation (R402, R403): the table walk, the access checks, the targets. -/
namespace Sys2Proof.Machine

/-- The kinds of access, numbered as R397's kind field. -/
inductive Access where
  | read | write | rmw | fetch
deriving DecidableEq, Repr

/-- The number of an access kind (R397). -/
def Access.code : Access → Nat
  | .read => 0 | .write => 1 | .rmw => 2 | .fetch => 3

/-- Why an access faults: the trap of R394 it raises and the protection reason of R397; `poison`: an engine read a poisoned
line (R449). `table`: no fault; the line at `pa` of a page table is not here, and the access waits for it (R403). -/
inductive Cause where
  | misaligned
  | pageFault
  | protection (reason : Nat)
  | poison
  | table (pa : Nat)
deriving DecidableEq, Repr

/-- The register of the device's own map at an offset of the BAR, and its reset value where nothing was written. -/
def State.reg (s : State) (off : Nat) (d : DWord) : DWord := SMap.getD s.mmio off d

/-- `n` bytes of device memory as a little-endian number. -/
def State.memNat (s : State) (pa n : Nat) : Nat := leNat (Memory.readN s.mem pa n)

/-- The entry of a context as the table in memory holds it now (R392). -/
def State.tableEntry (s : State) (ctx : Nat) : Nat := s.memNat ((s.reg 0x2000 0).toNat / 4096 * 4096 + 64 * ctx) 64

/-- The entry of a context (R392): as read when a launch of the context last started, else as memory holds it. -/
def State.ctxEntry (s : State) (ctx : Nat) : Nat :=
  match SMap.get? s.ctxs ctx with
  | some e => e.toNat
  | none => s.tableEntry ctx

/-- Bit [0] valid, [63:12] root, [191:128] spill, [255:192] locks, [319:256] hcode, [351:320] spillrec,
[383:352] hentry, [447:384] frame (R392). -/
def ctxField (e lo w : Nat) : Nat := bits e lo w

/-- A leaf and the log2 of its page size, or why the walk faults (R402). -/
abbrev Walked := Except Cause (Nat × Nat)

/-- One level of the walk (R402): a leaf answers, a table names the next one. -/
def walkEntry (e level : Nat) : Except Cause (Sum (Nat × Nat) Nat) :=
  let leaf := bits e 3 1 = 1
  let lgsz := if level = 0 && bits e 9 1 = 1 then 16 else 12 + 9 * level
  if bits e 0 1 = 0 then .error .pageFault
  else if bits e 52 12 ≠ 0 || bits e 1 2 ≠ 0 then .error (.protection 5)
  else if leaf then
    if 3 ≤ level || bits e 12 (lgsz - 12) ≠ 0 then .error (.protection 5)
    else .ok (.inl (e, lgsz))
  else if level = 0 then .error (.protection 5)
  else .ok (.inr (bits e 12 40 * 4096))

/-- Which of the entries of a 64 KiB group that disagree translates an access to an address: any may (R402). -/
opaque Config.groupEntry : Nat → Nat

/-- The level-0 entry that translates an access (R402): the one VA[20:12] names; in a 64 KiB group that disagrees, any one of those
that have c64 set. -/
def lastEntry (m : Memory) (va table : Nat) : Nat :=
  let entry := fun (k : Nat) => leNat (Memory.readN m (table + 8 * k) 8)
  let own := entry (bits va 12 9)
  let wide := ((List.range 16).map fun k => entry (bits va 16 5 * 16 + k)).filter fun e => bits e 0 1 = 1 && bits e 3 1 = 1 && bits e 9 1 = 1
  if wide.all (· = own) then own else wide.getD (Config.groupEntry va % wide.length) own

/-- The walk from `level` down (R402): VA[20 + 9 level : 12 + 9 level] indexes the table at `table`. -/
def walk (m : Memory) (va : Nat) : Nat → Nat → Walked
  | 0, table =>
    match walkEntry (lastEntry m va table) 0 with
    | .error c => .error c
    | .ok (.inl r) => .ok r
    | .ok (.inr _) => .error (.protection 5)
  | level + 1, table =>
    match walkEntry (leNat (Memory.readN m (table + 8 * bits va (21 + 9 * level) 9) 8)) (level + 1) with
    | .error c => .error c
    | .ok (.inl r) => .ok r
    | .ok (.inr next) => walk m va level next

/-- The state in which the host holds the 64-byte sector of a local address (R424). -/
def State.hostHolds (s : State) (pa : Nat) : CxlState := SMap.getD s.hostSec (pa % 2 ^ 48 / 64) .i

/-- The key of a remote or host line in `held`: device lines by line number, host sectors above them. -/
def heldKey : Loc → Nat
  | .mem pa => pa / 128
  | .host pa => 2 ^ 46 + pa / 64
  | _ => 0

/-- The state in which the device holds a remote line or a host sector. -/
def State.heldState (s : State) (loc : Loc) : CxlState := SMap.getD s.held (heldKey loc) .i

/-- A line that takes no new request now (R414): an update or an accepted store is in service, a back-invalidate of one of its sectors
is outstanding (R425), its page is under recall (R419), or a write of this device to it is under way to its home. -/
def State.busyLine (s : State) (line : Nat) : Bool :=
  (SMap.get? s.updates line).isSome ||
    if line / 2 ^ 41 = s.self then
      (s.backInv.any fun r => r.1 / 2 = line % 2 ^ 41) || s.recalls.any fun r => r.page = line % 2 ^ 41 / 32
    else s.away.contains line || s.recalls.any fun r => r.page = 2 ^ 40 + line / 32

/-- The state of a local page (R416); none: Local. -/
def State.pageState (s : State) (pa : Nat) : Option PageState := (SMap.get? s.pages (pa % 2 ^ 48 / 4096)).map (·.state)

/-- A location whose bytes the device may read now. -/
def State.readable (s : State) (loc : Loc) : Bool :=
  match loc with
  | .mem pa =>
    !s.busyLine (pa / 128) &&
      if pa / 2 ^ 48 = s.self then
        (match s.hostHolds pa with | .e | .m => false | _ => true) &&
          (match s.pageState pa with | some (.lent _) => s.heldState loc != .i | _ => true)
      else s.heldState loc != .i
  | .host _ => s.heldState loc != .i
  | _ => true

/-- The line of a page table that a walk of `va` from `level` down reads and that is not here (R403). -/
def State.walkAway (s : State) (va : Nat) : Nat → Nat → Option Nat
  | 0, table =>
    let pa := table + 8 * bits va 12 9
    if s.readable (.mem pa) then none else some pa
  | level + 1, table =>
    let pa := table + 8 * bits va (21 + 9 * level) 9
    if !s.readable (.mem pa) then some pa
    else match walkEntry (leNat (Memory.readN s.mem pa 8)) (level + 1) with
      | .ok (.inr next) => s.walkAway va level next
      | _ => none

/-- A cached translation covers an address (R403). -/
def TlbEntry.covers (t : TlbEntry) (unit ctx va : Nat) : Bool :=
  t.unit == unit && t.ctx == ctx && t.va == va / 2 ^ t.lgsz * 2 ^ t.lgsz

/-- The TLBs in which a unit of the device finds translations (R403), its own first: a core's misses go to the TLB of its slice. -/
def tlbsOf (unit : Nat) : List Nat := if unit < 192 then [unit, 1024 + unit / 4] else [unit]

/-- The top page table of a context (R392). -/
def State.rootOf (s : State) (ctx : Nat) : Nat := bits (s.ctxEntry ctx) 12 52 * 4096

/-- The cached translation of `va` for a unit of the device (R403). -/
def State.cachedLeaf (s : State) (unit ctx va : Nat) : Option TlbEntry :=
  (tlbsOf unit).findSome? fun u => s.tlb.find? fun t => t.covers u ctx va

/-- The leaf that maps `va` for a unit of the device: a cached one, else the walk's, as the tables stand in memory here. -/
def State.leafNow (s : State) (unit ctx va : Nat) : Walked :=
  match s.cachedLeaf unit ctx va with
  | some t => .ok (t.leaf, t.lgsz)
  | none => walk s.mem va 4 (s.rootOf ctx)

/-- The leaf that maps `va` for a unit of the device. A walk's reads are load events (R403): a line of a table that is not here is
waited for. -/
def State.leafOf (s : State) (unit ctx va : Nat) : Walked :=
  match (if (s.cachedLeaf unit ctx va).isSome then none else s.walkAway va 4 (s.rootOf ctx)) with
  | some pa => .error (.table pa)
  | none => s.leafNow unit ctx va

/-- Device memory that exists (R402): 36 GB in each local HBM stack, 1,024 GB of second tier. -/
def paExists (pa : Nat) : Bool :=
  let a := pa % 2 ^ 48
  (a / 2 ^ 36 < 12 && a % 2 ^ 36 < 36000000000) || (0x010000000000 ≤ a && a < 0x010000000000 + 1024000000000)

/-- The unit of local memory at an address is ready (R431): its stack, or the second tier. -/
def State.paReady (s : State) (pa : Nat) : Bool :=
  let a := pa % 2 ^ 48
  (s.reg 0x30000 0).getLsbD (if 0x010000000000 ≤ a then 41 else a / 2 ^ 36)

/-- Where a leaf leads for a virtual address (R402, R428). -/
def leafLoc (leaf lgsz va : Nat) : Loc :=
  let pa := bits leaf 12 40 * 4096 + va % 2 ^ lgsz
  match bits leaf 10 2 with
  | 0 => .mem pa
  | 1 => .host pa
  | 2 => .mmio pa
  | _ => .hostMmio pa

/-- The page allows the access in the given mode (R402): r, w, x and type 0 for a fetch, sup. -/
def leafAllows (leaf : Nat) (k : Access) (super : Bool) : Bool :=
  (super || bits leaf 7 1 = 0) &&
    match k with
    | .read => bits leaf 4 1 = 1
    | .write | .rmw => bits leaf 5 1 = 1
    | .fetch => bits leaf 6 1 = 1 && bits leaf 10 2 = 0

/-- The page is a SYNC page. -/
def leafSync (leaf : Nat) : Bool := bits leaf 8 1 = 1

/-- Target classes an instruction accepts (R184, R198, R201, R222). -/
structure Accepts where
  mmio : Bool
  host : Bool

/-- The target class of a location is accepted and reachable now (R184, R198, R423, R428, R431). -/
def State.reaches (s : State) (acc : Accepts) (loc : Loc) : Bool :=
  match loc with
  | .mem pa => paExists pa && (pa / 2 ^ 48 != s.self || s.paReady pa)
  | .host _ => acc.host && (s.reg 0x2500 0).getLsbD 31
  | .mmio pa => acc.mmio && pa / 2 ^ 48 == s.self && 0x020000000000 ≤ pa % 2 ^ 48 && pa % 2 ^ 48 < 0x020000000000 + 2 ^ 20
  | .hostMmio _ => acc.mmio && (s.reg 0x30000 0).getLsbD 39
  | .scratch _ _ => true

/-- A register's location is named by its offset in the BAR (R428). -/
def Loc.inBar : Loc → Loc
  | .mmio pa => .mmio (pa % 2 ^ 20)
  | loc => loc

/-- Checks made on a translation (R181 item 4, R72): device present, class accepted, page rights. -/
def State.judge (s : State) (acc : Accepts) (leaf lgsz va : Nat) (k : Access) (super : Bool) : Except Cause Loc :=
  let loc := leafLoc leaf lgsz va
  let absent := match loc with
    | .mem pa => !s.present.getLsbD (pa / 2 ^ 48)
    | _ => false
  if absent then .error (.protection 4)
  else if !s.reaches acc loc then .error (.protection 2)
  else if leafAllows leaf k super then .ok loc.inBar else .error (.protection 3)

/-- Translates one access by a unit in a context (R402, items 3 and 4 of R181). -/
def State.translate (s : State) (unit ctx va : Nat) (acc : Accepts) (k : Access) (super : Bool) : Except Cause Loc :=
  match s.leafOf unit ctx va with
  | .error c => .error c
  | .ok (leaf, lgsz) => s.judge acc leaf lgsz va k super

/-- A translation by the tables as they stand in memory here: for trap frames and for what a restore finds (log 97). -/
def State.translateNow (s : State) (unit ctx va : Nat) (acc : Accepts) (k : Access) (super : Bool) : Except Cause Loc :=
  match s.leafNow unit ctx va with
  | .error c => .error c
  | .ok (leaf, lgsz) => s.judge acc leaf lgsz va k super

/-- A translation enters a TLB (R403), the newest first: 256 entries for a core, 4,096 for a slice. -/
def State.keepLeaf (s : State) (t : TlbEntry) : State :=
  let room := if t.unit < 1024 then 255 else 4095
  let others := s.tlb.filter fun x => x.unit != t.unit
  { s with tlb := t :: (s.tlb.filter fun x => x.unit == t.unit).take room ++ others }

/-- Keeps the translation of `va` in the unit's TLBs (R403). -/
def State.cacheLeaf (s : State) (unit ctx va : Nat) : State :=
  (tlbsOf unit).foldl (fun s u =>
    if s.tlb.any fun t => t.covers u ctx va then s
    else match s.leafOf unit ctx va with
      | .error _ => s
      | .ok (leaf, lgsz) => s.keepLeaf { unit := u, ctx := ctx, va := va / 2 ^ lgsz * 2 ^ lgsz, lgsz := lgsz, leaf := leaf }) s

end Sys2Proof.Machine
end

