-- ==== Sys2Proof/Machine/Log.lean ====
section
/-! DEFINITION. What the device tells the outside: interrupt vectors, lifetime counters (R448), snapshot triggers
(R437). -/
namespace Sys2Proof.Machine

/-- Raises an interrupt vector: the vectors raised so far, oldest first. -/
def State.interrupt (s : State) (vector : Nat) : State := { s with msix := s.msix ++ [vector] }

/-- Counter `i` of the lifetime records rises by `n` and saturates at 2^64 - 1 (R448). -/
def State.countLife (s : State) (i : Nat) (n : Nat := 1) : State :=
  { s with life := SMap.put s.life i (BitVec.ofNat 64 (min (2 ^ 64 - 1) ((SMap.getD s.life i 0).toNat + n))) }

/-- Every record of a snapshot has been written (R439): `SN_DONE`, MSI-X vector 7. -/
def State.snapDone (s : State) (seq : Word) : State :=
  if (s.reg 0x5001C 0).toNat = seq.toNat then s
  else State.interrupt { s with mmio := SMap.put s.mmio 0x5001C (seq.setWidth 64) } 7

/-- A snapshot trigger reaches the root (R437): from a source that `SN_CTL` enables it takes the next sequence number; one
that comes while another is being distributed joins it. -/
def State.snapTrigger (s : State) (src tag core : Nat) : State :=
  if !((s.reg 0x50000 0x3F).getLsbD src) || s.snap.any (·.spread) then s
  else
    let s := match s.snap with
      | none => s
      | some p => s.snapDone p.seq
    let seq : Word := BitVec.ofNat 32 ((s.reg 0x50018 0).toNat + 1)
    { s with
      snap := some { seq := seq, src := src, tag := tag, core := core, latched := [], spread := true }
      mmio := SMap.put s.mmio 0x50018 (seq.setWidth 64) }

end Sys2Proof.Machine
end

