-- ==== Sys2Proof/Machine/Post.lean ====
section
/-! DEFINITION. Messages toward peers (R339), the warps that wait for a line, and the write-updates of sync pages that a
rollback or a commit ends (R415). -/
namespace Sys2Proof.Machine

/-- Bytes with the counter stream added: encryption, and decryption as well. -/
def gcmCrypt (key : BitVec 256) (iv : BitVec 96) (bs : List Byte) : List Byte := bs.zipIdx.map fun x => x.1 ^^^ Config.gcmStream key iv x.2

/-- The 16 bytes of a tag. -/
def gcmTagBytes (key : BitVec 256) (iv : BitVec 96) (aad cipher : List Byte) : List Byte :=
  (List.range 16).map fun k => (Config.gcmTag key iv aad cipher).extractLsb' (8 * k) 8

/-- AES-256-GCM sealing (R343, R443): key, IV, additional data, plaintext to ciphertext and 16-byte tag. -/
def gcmSeal (key : BitVec 256) (iv : BitVec 96) (aad plain : List Byte) : List Byte × List Byte :=
  let cipher := gcmCrypt key iv plain
  (cipher, gcmTagBytes key iv aad cipher)

/-- AES-256-GCM opening: key, IV, additional data, ciphertext, tag to the plaintext, `none` when the tag fails. -/
def gcmOpen (key : BitVec 256) (iv : BitVec 96) (aad cipher tag : List Byte) : Option (List Byte) :=
  if tag = gcmTagBytes key iv aad cipher then some (gcmCrypt key iv cipher) else none

/-! ### Messages toward peers -/

/-- How a message between devices is laid out in a flit of kind 1 or 2 (R339): the manual does not give it. -/
opaque Config.encodeMsg : PeerMsg → BitVec 80 × List Byte

/-- The message a flit of kind 1 or 2 carries; the layout is not in the manual. -/
opaque Config.decodeMsg : BitVec 80 → List Byte → Option PeerMsg

/-- The 128-bit header of a flit (R338). -/
def flitHeader (f : Flit) : BitVec 128 :=
  BitVec.ofNat 128 (f.kind % 16 * 2 ^ 124 + f.src % 16 * 2 ^ 120 + f.dst % 16 * 2 ^ 116 + (if f.relay then 2 ^ 115 else 0) +
    (if f.slot then 2 ^ 114 else 0) + f.cls % 4 * 2 ^ 112 + f.ctr % 2 ^ 32 * 2 ^ 80 + f.spec.toNat)

/-- The IV of a flit (R343): the link identity of its key, the sending device and port, 1 for a control flit, the ctr. -/
def flitIv (lid device port : Nat) (f : Flit) : BitVec 96 :=
  BitVec.ofNat 96 (lid % 2 ^ 24 * 2 ^ 72 + device % 16 * 2 ^ 68 + port % 16 * 2 ^ 64 + (if f.kind = 0 then 2 ^ 32 else 0) + f.ctr % 2 ^ 32)

/-- The 256 bytes of a flit on its link (R338, R343): the header, authenticated and in the clear; the payload encrypted; the tag. -/
def flitImage (k : KeySlot) (device port : Nat) (f : Flit) : List Byte :=
  let head := bytesLE 16 (flitHeader f).toNat
  let x := gcmSeal k.key (flitIv k.lid device port f) head f.payload
  head ++ x.1 ++ x.2

/-- A flit joins the hub's queue toward its device (R349). -/
def State.enqueue (s : State) (dev : Nat) (f : OutFlit) : State :=
  { s with hubq := SMap.put s.hubq dev (SMap.getD s.hubq dev [] ++ [f]) }

/-- The header of a flit of this device that is not sealed yet (R338): a port gives slot and ctr. -/
def State.newFlit (s : State) (kind dst cls : Nat) (spec : BitVec 80) (payload : List Byte) : Flit :=
  { kind := kind, src := s.self, dst := dst, relay := false, slot := false, cls := cls, ctr := 0, spec := spec,
    payload := payload }

/-- Sends a message to a peer: a request (kind 1, class 0) or an answer (kind 2, class 1). -/
def State.sendMsg (s : State) (core dev : Nat) (answer draw : Bool) (m : PeerMsg) : State :=
  let e := Config.encodeMsg m
  s.enqueue dev { flit := s.newFlit (if answer then 2 else 1) dev (if answer then 1 else 0) e.1 e.2,
                  core := core, draw := draw, ack := .none }

/-- The devices that hold a page. -/
def PageState.holders : PageState → List Nat
  | .shared xs => xs
  | .lent d => [d]

/-- The warps that wait for a line go on. -/
def State.wakeLine (s : State) (g : Gran) : State :=
  { s with warps := s.warps.map fun e => if e.2.wait == some (.line g) then (e.1, { e.2 with wait := none }) else e }

/-- The bytes of a line as this device has them. -/
def State.lineBytes (s : State) (line : Nat) : List Byte := Memory.readN s.mem (line * 128) 128

/-- Where an update of this device waits at its home, while the line is in service here for another one (R415): above the line
numbers. -/
def queuedKey (line : Nat) : Nat := 2 ^ 60 + line

/-- The service of a line ends: an update of this device that waits at the home is the line's again. -/
def State.freeLine (s : State) (line : Nat) : State :=
  match SMap.get? s.updates (queuedKey line) with
  | none => { s with updates := SMap.del s.updates line }
  | some u => { s with updates := SMap.put (SMap.del s.updates (queuedKey line)) line u }

/-- An update of a sync line ends here, released or cancelled (R415): sharer devices of a local line install the bytes that
stand there now, and waiting reads go on. -/
def State.endUpdate (s : State) (line : Nat) : State :=
  let s := s.freeLine line
  let s := if line / 2 ^ 41 = s.self then
      match s.pageState (line * 128) with
      | some p => p.holders.foldl (fun s d => s.sendMsg 192 d true false (.data line .s (s.lineBytes line))) s
      | none => s
    else s
  s.wakeLine (.line line)

/-- The updates that windows of a warp from serial number `from_` on have sent are cancelled (R415). -/
def State.cancelUpdates (s : State) (core slot from_ : Nat) : State :=
  let mine := s.updates.filter fun u => u.2.core = core && u.2.slot = slot && from_ ≤ u.2.win
  mine.foldl (fun s u =>
    let line := u.1 % 2 ^ 60
    let s := if line / 2 ^ 41 = s.self then s else s.sendMsg 192 (line / 2 ^ 41) false true (.update line [])
    if u.1 = line then s.endUpdate line else { s with updates := SMap.del s.updates u.1 }) s

end Sys2Proof.Machine
end

