-- ==== Sys2Proof/Machine/Ops.lean ====
section
/-! DEFINITION. The shared operations of the words: warps and issue (R12, R124), windows and rollback (R316 to R335),
write events and the rollbacks they trigger (R325), taking a trap (R396) and its frame (R397). -/
namespace Sys2Proof.Machine

/-- What one step answers. -/
abbrev Res := Host.Outcome State Fault Refusal

/-- A step that is named while it is not due does not come about: nothing changes. -/
def notDue (s : State) : Res := .next s

/-- The number of a warp slot in the device (R396). -/
def warpKey (core slot : Nat) : Nat := core * 64 + slot

/-- The warp in a slot. -/
def State.warp (s : State) (core slot : Nat) : Option Warp := SMap.get? s.warps (warpKey core slot)

/-- Puts a warp's new state into its slot. -/
def State.setWarp (s : State) (core slot : Nat) (w : Warp) : State :=
  { s with warps := SMap.put s.warps (warpKey core slot) w }

/-- A core; one that nothing has changed is as after reset. -/
def State.core (s : State) (c : Nat) : Core := SMap.getD s.cores c Core.reset

/-- Sets a core. -/
def State.setCore (s : State) (c : Nat) (x : Core) : State := { s with cores := SMap.put s.cores c x }

/-- The next free value (Config): advances the counter. -/
def State.fresh (s : State) : State := { s with free := s.free + 1 }

/-! ### Locations and granules -/

/-- The granule of the read and write sets that holds a location (R321); registers have none. -/
def Loc.gran : Loc → Option Gran
  | .mem pa => some (.line (pa / 128))
  | .host pa => some (.host (pa / 128))
  | .scratch core off => some (.scratch core (off / 32))
  | .mmio _ | .hostMmio _ => none

/-- The granules of `n` bytes from a location. -/
def Loc.grans (loc : Loc) (n : Nat) : List Gran :=
  match loc with
  | .mem pa => (List.range ((pa + n - 1) / 128 - pa / 128 + 1)).map fun k => .line (pa / 128 + k)
  | .host pa => (List.range ((pa + n - 1) / 128 - pa / 128 + 1)).map fun k => .host (pa / 128 + k)
  | .scratch c off => (List.range ((off + n - 1) / 32 - off / 32 + 1)).map fun k => .scratch c (off / 32 + k)
  | .mmio _ | .hostMmio _ => []

/-- Each core's array in the scratchpad memory. -/
def scratchKey (core off : Nat) : Nat := core * 2 ^ 20 + off

/-! ### Windows -/

/-- The open window. -/
def Warp.openWin (w : Warp) : Option Window := w.windows.find? fun x => !x.isClosed

/-- Changes the open window. -/
def Warp.mapOpen (w : Warp) (f : Window → Window) : Warp :=
  { w with windows := w.windows.map fun x => if x.isClosed then x else f x }

/-- Closes the open window (R317). -/
def Warp.closeOpen (w : Warp) : Warp := w.mapOpen fun x => { x with isClosed := true }

/-- Opens a window at the warp's present state (R316, R319). -/
def Warp.newWindow (w : Warp) : Warp :=
  let win : Window :=
    { serial := w.nextWindow, ck := w.regs, vOld := [], vregs := [], isClosed := false, accesses := 0, words := 0, reads := [],
      pages := [], stores := [], ringOps := [], entries := [], touch := none, streak := w.streak,
      steady := w.nextSteady, updates := [] }
  { w with windows := w.windows ++ [win], nextWindow := w.nextWindow + 1, streak := 0, nextSteady := false }

/-- The limits of R317: 64 accesses, 32 distinct `v` registers, 256 words. -/
def Window.full (x : Window) : Bool := 64 ≤ x.accesses || 32 ≤ x.vregs.length || 256 ≤ x.words

/-- A word writing `vs` would carry the window past 32 `v` registers (R317). -/
def Window.tooMany (x : Window) (vs : List Nat) : Bool :=
  32 < x.vregs.length + (vs.filter fun n => !x.vregs.contains n).length

/-- The warp in an open window that can take a word of `acc` accesses writing `vs` (R316 to R318), the word counted; none
while both checkpoint slots are held. The second word of a pair stays in the first one's window (R366). -/
def Warp.inWindow (w : Warp) (second : Bool) (acc : Nat) (vs : List Nat) : Option Warp :=
  let w := match w.openWin with
    | some x => if !second && x.tooMany vs then w.closeOpen else w
    | none => w
  let count := fun (w : Warp) => w.mapOpen fun x => { x with words := x.words + 1, accesses := x.accesses + acc }
  match w.openWin with
  | some _ => some (count w)
  | none => if w.windows.length < 2 then some (count w.newWindow) else none

/-! ### Rings of a block and rollback -/

/-- Returns one slot of a rolled-back window (R216): a taking is undone, a reservation is left returned. -/
def Ring.giveBack (r : Ring) (by_ : Nat) (op : RingOp) : Ring :=
  match r.slots[op.slot]? with
  | none => r
  | some x =>
    let x := if op.taken then { x with takers := x.takers.erase by_ }
      else { x with reserved := false, published := false, returned := true }
    { r with slots := r.slots.set op.slot x }

/-- Returns the slots that a warp's discarded windows reserved or took. -/
def State.giveBack (s : State) (block by_ : Nat) (ops : List RingOp) : State :=
  match SMap.get? s.blocks block with
  | none => s
  | some b =>
    let rings := ops.foldl (fun rs op =>
      match SMap.get? rs op.handle with
      | none => rs
      | some r => SMap.put rs op.handle (r.giveBack by_ op)) b.rings
    { s with blocks := SMap.put s.blocks block { b with rings := rings } }

/-- Writes the shadow of a discarded window back (R320). -/
def restoreShadow (v : Rows) (vOld : Rows) : Rows := vOld.foldl (fun acc e => SMap.put acc e.1 e.2) v

/-- Sets the marks of a level for the lanes of `act`. -/
def Warp.setMarks (w : Warp) (level : Nat) (act : LaneSet) (x : BarMark) : Warp :=
  if level = 1 then { w with laneArrived := (LaneSet.list act).foldl (fun m l => SMap.put m l.val x) w.laneArrived }
  else { w with arrived := SMap.put w.arrived level x }

/-- A warp whose pending trap goes with a rollback. Only a `BARRIER_MASK` of lanes that waited can have come before the windows
(R334): it is not lost, since its lanes find the poison when they issue their `BAR` again. -/
def Warp.dropPending (w : Warp) : Warp :=
  match w.pending with
  | some { kind := .barrierMask, aux := level, amask := m, .. } =>
    { w.setMarks level (Lanes.ofFn fun l => m.getLsbD l.val) .poisoned with pending := none }
  | _ => { w with pending := none }

/-- Discards the windows of a warp from serial number `from_` on and restores that window's checkpoint (R326, R327).
`trigger` says that the rollback counts toward the streak (R331). -/
def State.rollbackTo (s : State) (core slot : Nat) (from_ : Nat) (trigger : Bool) : State :=
  match s.warp core slot with
  | none => s
  | some w =>
    match w.windows.find? fun x => x.serial == from_ with
    | none => s
    | some victim =>
      let gone := w.windows.filter fun x => from_ ≤ x.serial
      let v := gone.reverse.foldl (fun acc x => restoreShadow acc x.vOld) w.v
      let shadowed := gone.foldl (fun n x => n + x.vOld.length) 0
      let third := trigger && victim.streak + 1 == 3
      let clk := w.clk + 8 + (shadowed + 3) / 4
      let w' : Warp :=
        { w.dropPending with
          regs := victim.ck, v := v, windows := w.windows.filter fun x => x.serial < from_
          marks := w.marks.filter (·.win < from_), arrivals := w.arrivals.filter fun a => a.2.2 < from_, crossed := []
          loads := w.loads.filter fun ld => ld.win < from_
          rollbacks := w.rollbacks + 1, clk := clk, wait := none
          streak := if third then 0 else if trigger then victim.streak + 1 else victim.streak
          nextSteady := third || (victim.steady && !trigger) }
      let s := (s.giveBack w.block (warpKey core slot) (gone.flatMap fun x => x.ringOps)).cancelUpdates core slot from_
      let s := { s with entries := s.entries.filter fun e =>
        !(e.2.core == core && e.2.slot == slot && e.2.bound &&
          match e.2.win with
          | none => false
          | some n => from_ ≤ n) }
      (s.setWarp core slot w').countLife 64

/-- The oldest uncommitted window of a warp that read a granule. -/
def Warp.victim (w : Warp) (g : Gran) : Option Nat :=
  (w.windows.find? fun x => x.reads.contains g).map (·.serial)

/-- A trigger reaches one warp (R325, R326). -/
def State.triggerWarp (s : State) (key : Nat) (g : Gran) : State :=
  match SMap.get? s.warps key with
  | none => s
  | some w =>
    match w.victim g with
    | none => s
    | some n => s.rollbackTo (key / 64) (key % 64) n true

/-- A trigger reaches every warp whose read set holds the granule, but for the warp it comes from (R325). -/
def State.trigger (s : State) (from_ : Option Nat) (g : Gran) : State :=
  (s.warps.map (·.1)).foldl (fun s key => if some key == from_ then s else s.triggerWarp key g) s

/-! ### Bytes of a location -/

/-- The `n` bytes at a location as every party sees them. -/
def State.bytesAt (s : State) (loc : Loc) (n : Nat) : List Byte :=
  match loc with
  | .mem pa => Memory.readN s.mem pa n
  | .host pa => Memory.readN s.mem (2 ^ 53 + pa) n
  | .scratch core off => Memory.readN s.scratch (scratchKey core off) n
  | .mmio _ | .hostMmio _ => List.replicate n 0

/-- The bytes that a store of `n` bytes at an address replaces, for every launch that runs (R109). -/
def State.staleAfter (s : State) (a n : Nat) : List (Nat × Nat × List Byte) :=
  let runs := fun (e : Nat × Launch) => e.2.started && !e.2.complete
  s.stale.filter (fun x => s.launches.any fun e => e.1 = x.1 && runs e) ++
    (s.launches.filter runs).map fun e => (e.1, a, Memory.readN s.mem a n)

/-- Stores bytes at a location, with no other effect. -/
def State.putBytes (s : State) (loc : Loc) (bs : List Byte) : State :=
  match loc with
  | .mem pa => { s with mem := Memory.write s.mem pa bs, stale := s.staleAfter pa bs.length }
  | .host pa => { s with mem := Memory.write s.mem (2 ^ 53 + pa) bs, stale := s.staleAfter (2 ^ 53 + pa) bs.length }
  | .scratch core off => { s with scratch := Memory.write s.scratch (scratchKey core off) bs }
  | .mmio _ | .hostMmio _ => s

/-! ### Taking a trap (R394 to R399) -/

/-- The code of a trap (R394). -/
def TrapKind.code : TrapKind → Nat
  | .illegalInstruction => 0x01 | .illegalOperand => 0x02 | .illegalPairing => 0x03 | .stallShort => 0x04
  | .snanUse => 0x05 | .misaligned => 0x06 | .pageFault => 0x07 | .protection => 0x08 | .barrierMask => 0x09
  | .barrierLevel => 0x0A | .atomicEmulate => 0x0B | .labelRange => 0x0C | .bufferMisuse => 0x0D
  | .loopNest => 0x0E | .software => 0x0F | .svc => 0x10 | .guardTouch => 0x20 | .softError => 0x21
  | .engineFault => 0x30

/-- Causes that roll the word's window back before entry (R334). -/
def TrapKind.rollsBack : TrapKind → Bool
  | .pageFault | .protection | .misaligned => true
  | _ => false

/-- `sr.trapinfo` (R395). -/
def Trap.info (t : Trap) : Word :=
  BitVec.ofNat 32 (t.aux % 4096 * 2 ^ 20 + (if t.w2 then 2 ^ 19 else 0) + (if t.eng then 2 ^ 18 else 0) +
    t.lane % 32 * 2 ^ 13 + t.kind.code)

/-- The detail word of the frame (R397). -/
def Trap.detail (t : Trap) : Nat :=
  t.akind % 4 + t.queue % 8 * 2 ^ 4 + t.reason % 8 * 2 ^ 8 + t.count % 256 * 2 ^ 16

/-- The valid bits of the iterator records (R397). -/
def Regs.itValid (r : Regs) : Nat := r.iters.foldl (fun n e => n + 2 ^ e.1) 0

/-- The flags register as a word that issues at `clk` reads it: what arrived by then is ORed in (R153). -/
def Regs.flagsAt (r : Regs) (clk : Nat) : Word :=
  r.sticky.foldl (fun x e => if e.due ≤ clk then x ||| e.fflags else x) r.fflags

/-- The saturation mask as a word that issues at `clk` reads it. -/
def Regs.satAt (r : Regs) (clk : Nat) : Word :=
  r.sticky.foldl (fun x e => if e.due ≤ clk then x ||| e.sat else x) r.sat

/-- The flags once every word in flight has ended. -/
def Regs.flagsAll (r : Regs) : Word := r.sticky.foldl (fun x e => x ||| e.fflags) r.fflags

/-- The saturation mask once every word in flight has ended. -/
def Regs.satAll (r : Regs) : Word := r.sticky.foldl (fun x e => x ||| e.sat) r.sat

/-- `sr.cycles`: clocks since the warp's launch (R22). -/
def Warp.cycles (w : Warp) : Word := BitVec.ofNat 32 (w.clk - w.start)

/-- The 4 bytes of a word. -/
def w4 (x : Word) : List Byte := bytesLE 4 x.toNat

/-- The bytes of a row, lane 0 first. -/
def rowBytes (r : Lanes Word) : List Byte := lanesUp.flatMap fun l => w4 r[l]

/-- Bytes 64 to 4,207 of the frame (R397): the restorable state. -/
def Warp.frameState (w : Warp) : List Byte :=
  let r := w.regs
  (lanesUp.flatMap fun l =>
    let t := r.threads[l]
    bytesLE 8 (t.pc.packet.toNat + t.pc.word % 4 * 2 ^ 32 + if t.live then 2 ^ 34 else 0)) ++
  ((List.range 16).flatMap fun n => rowBytes (r.qRow n)) ++
  ((List.range 4).flatMap fun n => lanesUp.flatMap fun l =>
    bytesLE 8 ((r.y[l])[n]?.elim 0 fun e => e.val.toNat)) ++
  ((List.range 32).flatMap fun n => w4 (r.sReg n)) ++
  ((List.range 16).flatMap fun n => w4 (LaneSet.mask (r.pRow n))) ++
  ((List.range 3).flatMap fun j =>
    match r.loops.reverse[j]? with
    | none => List.replicate 16 0
    | some lv => w4 lv.start ++ w4 lv.stop ++ w4 lv.count ++ w4 1) ++
  ((List.range 8).flatMap fun n => bytesLE 64 (SMap.getD r.iters n 0).toNat) ++
  (w4 r.satAll ++ w4 r.flagsAll ++ w4 r.rc ++ w4 r.mshift ++ w4 r.phase ++ w4 (predWord w.sbchk) ++
    w4 (BitVec.ofNat 32 r.tile) ++ w4 (BitVec.ofNat 32 r.itValid) ++ w4 w.rollbacks ++ w4 w.cycles ++
    List.replicate 24 0)

/-- The frame of a trapped warp, bytes 0 to 4,207 (R397). -/
def Warp.frame (w : Warp) (t : Trap) : List Byte :=
  w4 t.info ++ w4 t.amask ++ bytesLE 8 t.va.toNat ++ w4 t.pattern ++ bytesLE 4 t.detail ++
    bytesLE 4 t.fid ++ bytesLE 4 t.elem ++ bytesLE 4 0 ++ w4 t.poison ++ List.replicate 24 0 ++ w.frameState

/-- Virtual address of a slot's trap frame (R396): frame + (core × 64 + slot) × 8 KiB. -/
def State.frameVa (s : State) (core slot ctx : Nat) : Nat :=
  ctxField (s.ctxEntry ctx) 384 64 + warpKey core slot * 8192

/-- Writes bytes at a virtual address with supervisor rights, page by page; none when a page refuses, with what was
written before it kept (R396). -/
def State.superWrite (s : State) (unit ctx : Nat) : Nat → List Byte → Nat → State × Bool
  | 0, _, _ => (s, true)
  | fuel + 1, bs, va =>
    match bs with
    | [] => (s, true)
    | _ =>
      match s.translateNow unit ctx va { mmio := false, host := false } .write true with
      | .error _ => (s, false)
      | .ok loc =>
        let n := 4096 - va % 4096
        (s.putBytes loc (bs.take n)).superWrite unit ctx fuel (bs.drop n) (va + n)

/-- The warp once every fixed-latency result in flight has arrived (R396): its registers hold the final values. -/
def Warp.landed (w : Warp) : Warp :=
  { w with
    regs := { w.regs with y := Lanes.ofFn fun l => (w.regs.y[l]).map fun e => { e with due := 0 } }
    marks := [] }

/-- A double fault (R398): the warp stops, its bit of `SV_DBL` is set, vector 1 is raised; it counts (R448) and triggers
a snapshot (R437). -/
def State.doubleFault (s : State) (core slot : Nat) (w : Warp) : State :=
  let s := s.setWarp core slot { w with halt := some .doubleFault, pending := none }
  let off := 0x3000 + 8 * core
  let s := { s with mmio := SMap.put s.mmio off (s.reg off 0 ||| BitVec.ofNat 64 (2 ^ slot)) }
  ((s.interrupt 1).countLife 71).snapTrigger 4 0 0

/-- TAKING A TRAP (R396): writes the frame, then starts the handler in the warp's slot, whose registers keep the values that
the frame holds. A trap in supervisor mode, or a frame write that faults, is a double fault (R398). The handler's first window
is at a checkpoint of its own, so it starts with a streak of 0 and runs ahead (R331). -/
def State.enterSupervisor (s : State) (core slot : Nat) (w : Warp) (t : Trap) : State :=
  if w.super then s.doubleFault core slot w
  else
    let va := s.frameVa core slot w.ctx
    let (s, ok) := s.superWrite core w.ctx 3 (w.frame t) va
    if !ok then s.doubleFault core slot w
    else
      let e := s.ctxEntry w.ctx
      let pc : Pc := { packet := BitVec.ofNat 32 (ctxField e 352 32), word := 0 }
      let locks := ctxField e 192 64
      let sregs := SMap.put (SMap.put (SMap.put (SMap.put w.regs.s 0 (BitVec.ofNat 32 va)) 1
        (BitVec.ofNat 32 (va / 2 ^ 32))) 2 (BitVec.ofNat 32 locks)) 3 (BitVec.ofNat 32 (locks / 2 ^ 32))
      let w := w.landed
      s.setWarp core slot
        { w with
          regs := { w.regs with
            threads := Lanes.all { pc := pc, live := true }, s := sregs, tile := 32, loops := [], sup2 := Lanes.all false }
          wasLive := Lanes.ofFn fun l => w.regs.threads[l].live, late := [], streak := 0, nextSteady := false
          sbchk := false, super := true, trapinfo := t.info, pending := none, wait := none }

/-- Another warp traps while it waits: `lanes` is its `active` set (R208). -/
def State.trapWaiting (s : State) (core slot : Nat) (lanes : LaneSet) (t : Trap) : State :=
  match s.warp core slot with
  | none => s
  | some w => s.enterSupervisor core slot { w with wait := none } { t with amask := LaneSet.mask lanes }

/-- Raises a trap of the word under way (R124, R334): a fault of an access rolls the open window back, unless that is steady;
the warp enters the handler at once when it holds no uncommitted window, else after they commit. -/
def State.raise (s : State) (cur : Cur) (act : LaneSet) (t : Trap) (roll : Bool := t.kind.rollsBack) : State :=
  match t.table with
  | some pa => { s with cur := some { cur with ended := .table pa } }
  | none =>
  let t := { t with amask := LaneSet.mask act, w2 := cur.second }
  match s.warp cur.core cur.slot with
  | none => s
  | some w =>
    let s := match roll, w.openWin with
      | true, some x => if x.steady then s.setWarp cur.core cur.slot w.closeOpen
          else s.rollbackTo cur.core cur.slot x.serial false
      | _, _ => s.setWarp cur.core cur.slot w.closeOpen
    let s := { s with cur := some { cur with ended := .trapped } }
    match s.warp cur.core cur.slot with
    | none => s
    | some w =>
      if w.windows.isEmpty then s.enterSupervisor cur.core cur.slot w t
      else s.setWarp cur.core cur.slot { w with pending := some t }

/-! ### The issue of one word -/

/-- The lane a trap of the whole word reports: the lowest of `active` (R394). -/
def lowLane (act : LaneSet) : Nat := match LaneSet.lowest act with
  | none => 0
  | some l => l.val

/-- A word that reads the status of an entry of the open window closes that window before it waits, so that the entry can
start (R38, R83, R84); DEDUCED: R317 does not list it, and R38's program ends only so. -/
def Warp.closeForStatus (w : Warp) (i : Instr) : Warp :=
  let named := i.operands.flatMap opndQRegs
  let ofOpen := fun (ld : PendLoad) => match ld.kind with
    | .status _ => (w.openWin).elim false fun x => x.serial == ld.win
    | _ => false
  if w.loads.any fun ld => ofOpen ld && ld.regs.any named.contains then w.closeOpen else w

/-- The word waits: nothing of it takes effect, and it issues again when the wait ends. -/
def State.holdWord (s : State) (cur : Cur) (w : Warp) (why : Option Wait) : State :=
  { s.setWarp cur.core cur.slot { w with wait := why } with cur := some { cur with ended := .waits } }

/-- A word names a main-file register the launch has not declared (R179). -/
def beyondFile (i : Instr) (n : Nat) : Bool :=
  i.operands.any fun o => match o with
    | .rdV v | .wrV v => n ≤ v
    | _ => false

/-- Words that read other lanes' registers whether or not those lanes issue (R173). -/
def crossLane : Instr → Bool
  | .xlaneGet .. | .xlaneShift .. | .xlaneRot .. | .xlaneBfly .. | .slideUp .. | .slideDown .. => true
  | _ => false

/-- The checks of items 4 and 5 of R124 and the load scoreboard (R182) for the word under way; `k` gets the warp, the
issue and `active`. A word that the load scoreboard holds cannot issue (R11), so it reads nothing early. -/
def withWord (i : Instr) (h : Hdr) (s : State) (k : Warp → Cur → LaneSet → Res) : Res :=
  match s.cur with
  | none => .fault .noIssue
  | some cur =>
    match s.warp cur.core cur.slot with
    | none => .fault .noIssue
    | some w =>
      let act := cur.before.active h cur.lanes
      if !i.wellFormed || beyondFile i w.regCount then
        .next (s.raise cur act { kind := .illegalOperand, lane := lowLane act })
      else if cur.before.heldByLoad i then .next (s.holdWord cur (w.closeForStatus i) w.wait)
      else match cur.before.stallShort i (if crossLane i then Lanes.all true else cur.lanes) with
        | some (code, lane) => .next (s.raise cur act { kind := .stallShort, aux := code, lane := lane })
        | none => k w cur act

/-- An ordinary or tentative word (R93): it issues in the open window, or opens one, or waits for a checkpoint slot. -/
def ordinary (i : Instr) (h : Hdr) (acc : Nat) (vs : List Nat) (s : State) (k : Warp → Cur → LaneSet → Res) : Res :=
  withWord i h s fun w cur act =>
    match w.inWindow cur.second acc vs with
    | none => .next (s.holdWord cur w w.wait)
    | some w => k w cur act

/-- The word is done: `w` is the warp after it. -/
def finish (s : State) (cur : Cur) (w : Warp) : Res := .next (s.setWarp cur.core cur.slot w)

/-- A register-only word: `f` changes the warp, whose operands are read from the start of the clock (R133); then the
issuing threads pass to the next word. -/
def regWord (i : Instr) (h : Hdr) (s : State) (vs : List Nat := []) (lits : Nat := 0)
    (f : (before : Warp) → (act : LaneSet) → Warp → Warp) : Res :=
  ordinary i h 0 vs s fun w cur act => finish s cur ((f cur.before act w).advance cur.pc cur.lanes lits)

/-- A register-only word that may trap: `f` answers the trap or the changed warp. -/
def regWordT (i : Instr) (h : Hdr) (s : State) (vs : List Nat)
    (f : Cur → LaneSet → Warp → Except Trap Warp) : Res :=
  ordinary i h 0 vs s fun w cur act =>
    match f cur act w with
    | .error t => .next ((s.setWarp cur.core cur.slot w).raise cur act t)
    | .ok w => finish s cur (w.advance cur.pc cur.lanes 0)

/-- An atomic word of the warp has lanes that have not been performed, or its `RDECL` is not known to every device yet. -/
def Warp.atomsOut (w : Warp) : Bool := w.declares != 0 || w.loads.any fun ld => match ld.kind with
  | .remote .. => true
  | _ => false

/-- The commit point (R93, R329): no window is uncommitted, and every atomic that the warp sent to a peer has been performed, since it
precedes the word (R95), as an `RDECL` does (R303). -/
def Warp.atCommit (w : Warp) : Bool := w.windows.isEmpty && !w.atomsOut

/-- An irrevocable word (R93, R329): with no lane of `active` it has no effect; else it closes the window, waits for the commit
point, and acts. -/
def irrevocable (i : Instr) (h : Hdr) (s : State) (k : Warp → Cur → LaneSet → Res) : Res :=
  withWord i h s fun w cur act =>
    if !LaneSet.any act then
      match w.inWindow cur.second 0 [] with
      | none => .next (s.holdWord cur w w.wait)
      | some w => finish s cur (w.advance cur.pc cur.lanes 0)
    else if w.atCommit then k w cur act
    else .next (s.holdWord cur w.closeOpen (some .commit))

end Sys2Proof.Machine
end

