-- ==== Sys2Proof/Machine/Integer.lean ====
section
/-! DEFINITION. Compares, predicate logic, moves and immediates, uniform scalars, integer arithmetic and bit
manipulation (R33, R145 to R152). -/
namespace Sys2Proof.Machine

/-- A two-source X-pipe word with result `f` (R149): latency 2, d and one shift into `y`. -/
def alu2 (i : Instr) (h : Hdr) (d a b : Near) (f : Word → Word → Word) (s : State) : Res :=
  regWord i h s (f := fun before act w =>
    w.put32 d act (fun l => f (before.read32 .int a l) (before.read32 .int b l)) 2)

/-- A one-source X-pipe word with result `f`. -/
def alu1 (i : Instr) (h : Hdr) (d a : Near) (f : Word → Word) (s : State) : Res :=
  regWord i h s (f := fun before act w => w.put32 d act (fun l => f (before.read32 .int a l)) 2)

/-- An X-pipe word that also reads d; `f` gets d, a, b. -/
def alu3 (i : Instr) (h : Hdr) (d a b : Near) (f : Word → Word → Word → Word) (s : State) : Res :=
  regWord i h s (f := fun before act w =>
    w.put32 d act (fun l => f (before.read32 .int d l) (before.read32 .int a l) (before.read32 .int b l)) 2)

/-- An immediate word: `f` gets d (R147). -/
def aluImm (i : Instr) (h : Hdr) (d : Near) (f : Word → Word) (s : State) : Res :=
  regWord i h s (f := fun before act w => w.put32 d act (fun l => f (before.read32 .int d l)) 2)

/-- The high word of a 64-bit product (R149). -/
def mulHigh (x : Int) : Word := BitVec.ofInt 32 (x / 2 ^ 32)

/-- Leading zero bits, 0 to 32 (R150). -/
def clz32 (x : Word) : Word := BitVec.ofNat 32 (if x.toNat = 0 then 32 else 31 - Nat.log2 x.toNat)

/-- One bits, 0 to 32 (R150). -/
def popc32 (x : Word) : Word := BitVec.ofNat 32 ((List.range 32).foldl (fun n j => n + bits x.toNat j 1) 0)

/-- Bit j moved to bit 31 - j (R150). -/
def brev32 (x : Word) : Word :=
  BitVec.ofNat 32 ((List.range 32).foldl (fun n j => n + bits x.toNat j 1 * 2 ^ (31 - j)) 0)

/-- The width w of a field descriptor (R151). -/
def fieldWidth (b : Word) : Nat := min (min (bits b.toNat 8 6) 32) (32 - bits b.toNat 0 5)

/-- `BFE` (R151). -/
def bfeResult (a b : Word) : Word :=
  let w := fieldWidth b
  let f := bits a.toNat (bits b.toNat 0 5) w
  if w = 0 then 0 else if bits b.toNat 15 1 = 1 then BitVec.ofInt 32 (sextNat f w) else BitVec.ofNat 32 f

/-- `BFI` (R151). -/
def bfiResult (d a b : Word) : Word :=
  BitVec.ofNat 32 (setBits d.toNat (bits b.toNat 0 5) (fieldWidth b) a.toNat)

/-- One result byte of `BMIX` (R152): `src` are the eight source bytes as one number. -/
def bmixByte (src f : Nat) : Nat :=
  if f < 8 then bits src (8 * f) 8
  else if f < 16 then (if bits src (8 * (f - 8) + 7) 1 = 1 then 0xFF else 0)
  else if f % 2 = 1 then 0xFF else 0

/-- `BMIX` (R152): the selector stands in d. -/
def bmixResult (d a b : Word) : Word :=
  let src := a.toNat + b.toNat * 2 ^ 32
  BitVec.ofNat 32 ((List.range 4).foldl (fun n j => n + bmixByte src (bits d.toNat (5 * j) 5) * 2 ^ (8 * j)) 0)

/-- A shift whose count is the whole of b, unsigned (R149). -/
def shiftBy (f : Word → Nat → Word) (a b : Word) : Word := f a b.toNat

/-! ### Integer arithmetic (R149) -/

/-- `IADD` (R149). -/
def execIadd (h : Hdr) (d a b : Near) (s : State) : Res := alu2 (.iadd h d a b) h d a b (fun x y => x + y) s
/-- `ISUB` (R149). -/
def execIsub (h : Hdr) (d a b : Near) (s : State) : Res := alu2 (.isub h d a b) h d a b (fun x y => x - y) s
/-- `IMUL` (R149). -/
def execImul (h : Hdr) (d a b : Near) (s : State) : Res := alu2 (.imul h d a b) h d a b (fun x y => x * y) s
/-- `IMULH.i32` (R149). -/
def execImulhI32 (h : Hdr) (d a b : Near) (s : State) : Res :=
  alu2 (.imulhI32 h d a b) h d a b (fun x y => mulHigh (x.toInt * y.toInt)) s
/-- `IMULH.n32` (R149). -/
def execImulhN32 (h : Hdr) (d a b : Near) (s : State) : Res :=
  alu2 (.imulhN32 h d a b) h d a b (fun x y => mulHigh (x.toNat * y.toNat : Nat)) s
/-- `IMAD` (R149): d is read. -/
def execImad (h : Hdr) (d a b : Near) (s : State) : Res := alu3 (.imad h d a b) h d a b (fun z x y => x * y + z) s
/-- `IMIN.i32` (R149). -/
def execIminI32 (h : Hdr) (d a b : Near) (s : State) : Res :=
  alu2 (.iminI32 h d a b) h d a b (fun x y => if x.slt y then x else y) s
/-- `IMIN.n32` (R149). -/
def execIminN32 (h : Hdr) (d a b : Near) (s : State) : Res :=
  alu2 (.iminN32 h d a b) h d a b (fun x y => if x.ult y then x else y) s
/-- `IMAX.i32` (R149). -/
def execImaxI32 (h : Hdr) (d a b : Near) (s : State) : Res :=
  alu2 (.imaxI32 h d a b) h d a b (fun x y => if x.slt y then y else x) s
/-- `IMAX.n32` (R149). -/
def execImaxN32 (h : Hdr) (d a b : Near) (s : State) : Res :=
  alu2 (.imaxN32 h d a b) h d a b (fun x y => if x.ult y then y else x) s
/-- `IABS` (R149). -/
def execIabs (h : Hdr) (d a : Near) (s : State) : Res :=
  alu1 (.iabs h d a) h d a (fun x => if x.slt 0 then 0 - x else x) s
/-- `AND` (R149). -/
def execAnd (h : Hdr) (d a b : Near) (s : State) : Res := alu2 (.and h d a b) h d a b (fun x y => x &&& y) s
/-- `OR` (R149). -/
def execOr (h : Hdr) (d a b : Near) (s : State) : Res := alu2 (.or h d a b) h d a b (fun x y => x ||| y) s
/-- `XOR` (R149). -/
def execXor (h : Hdr) (d a b : Near) (s : State) : Res := alu2 (.xor h d a b) h d a b (fun x y => x ^^^ y) s
/-- `ANDN` (R149). -/
def execAndn (h : Hdr) (d a b : Near) (s : State) : Res := alu2 (.andn h d a b) h d a b (fun x y => x &&& ~~~y) s
/-- `SHL` (R149). -/
def execShl (h : Hdr) (d a b : Near) (s : State) : Res :=
  alu2 (.shl h d a b) h d a b (shiftBy fun x n => if 32 ≤ n then 0 else x <<< n) s
/-- `SHR` (R149). -/
def execShr (h : Hdr) (d a b : Near) (s : State) : Res :=
  alu2 (.shr h d a b) h d a b (shiftBy fun x n => if 32 ≤ n then 0 else x >>> n) s
/-- `SAR` (R149). -/
def execSar (h : Hdr) (d a b : Near) (s : State) : Res :=
  alu2 (.sar h d a b) h d a b (shiftBy fun x n => x.sshiftRight (min n 31)) s
/-- `ROTL` (R149). -/
def execRotl (h : Hdr) (d a b : Near) (s : State) : Res :=
  alu2 (.rotl h d a b) h d a b (shiftBy fun x n => x.rotateLeft (n % 32)) s
/-- `LEA.s2` (R149). -/
def execLeaS2 (h : Hdr) (d a b : Near) (s : State) : Res := alu2 (.leaS2 h d a b) h d a b (fun x y => x + (y <<< 2)) s
/-- `LEA.s3` (R149). -/
def execLeaS3 (h : Hdr) (d a b : Near) (s : State) : Res := alu2 (.leaS3 h d a b) h d a b (fun x y => x + (y <<< 3)) s
/-- `IADD64` (R149): one 64-bit result, one shift. -/
def execIadd64 (h : Hdr) (d a b : Near) (s : State) : Res :=
  regWord (.iadd64 h d a b) h s (f := fun before act w =>
    w.put64 d act (fun l => before.read64 a l + before.read64 b l) 2)

/-! ### Bit manipulation (R150 to R152) -/

/-- `BFE` (R151). -/
def execBfe (h : Hdr) (d a b : Near) (s : State) : Res := alu2 (.bfe h d a b) h d a b bfeResult s
/-- `BFI` (R151). -/
def execBfi (h : Hdr) (d a b : Near) (s : State) : Res := alu3 (.bfi h d a b) h d a b bfiResult s
/-- `CLZ` (R150). -/
def execClz (h : Hdr) (d a : Near) (s : State) : Res := alu1 (.clz h d a) h d a clz32 s
/-- `POPC` (R150). -/
def execPopc (h : Hdr) (d a : Near) (s : State) : Res := alu1 (.popc h d a) h d a popc32 s
/-- `BREV` (R150). -/
def execBrev (h : Hdr) (d a : Near) (s : State) : Res := alu1 (.brev h d a) h d a brev32 s
/-- `BMIX` (R152). -/
def execBmix (h : Hdr) (d a b : Near) (s : State) : Res := alu3 (.bmix h d a b) h d a b bmixResult s

/-! ### Moves, selection, immediates (R33, R147) -/

/-- `SEL` (R33): every issuing lane writes a where its guard passes, else b. -/
def execSel (h : Hdr) (d a b : Near) (s : State) : Res :=
  ordinary (.sel h d a b) h 0 [] s fun w cur act =>
    let f := fun (l : Fin 32) => if act[l] then cur.before.read32 .int a l else cur.before.read32 .int b l
    finish s cur ((w.put32 d cur.lanes f 2).advance cur.pc cur.lanes 0)
/-- `MOV` (R147). -/
def execMov (h : Hdr) (d a : Near) (s : State) : Res := alu1 (.mov h d a) h d a (fun x => x) s
/-- `MOVI` (R147). -/
def execMovi (h : Hdr) (d : Near) (imm : BitVec 11) (s : State) : Res :=
  aluImm (.movi h d imm) h d (fun _ => imm.signExtend 32) s
/-- `ADDI` (R147). -/
def execAddi (h : Hdr) (d : Near) (imm : BitVec 11) (s : State) : Res :=
  aluImm (.addi h d imm) h d (fun x => x + imm.signExtend 32) s
/-- `ANDI` (R147). -/
def execAndi (h : Hdr) (d : Near) (imm : BitVec 11) (s : State) : Res :=
  aluImm (.andi h d imm) h d (fun x => x &&& imm.signExtend 32) s
/-- `ORI` (R147). -/
def execOri (h : Hdr) (d : Near) (imm : BitVec 11) (s : State) : Res :=
  aluImm (.ori h d imm) h d (fun x => x ||| imm.signExtend 32) s
/-- `SHLI` (R147). -/
def execShli (h : Hdr) (d : Near) (n : Fin 32) (s : State) : Res := aluImm (.shli h d n) h d (fun x => x <<< n.val) s
/-- `SHRI` (R147). -/
def execShri (h : Hdr) (d : Near) (n : Fin 32) (s : State) : Res := aluImm (.shri h d n) h d (fun x => x >>> n.val) s
/-- `LIT` (R147): the literal word is skipped in every issuing lane (R108). -/
def execLit (h : Hdr) (d : Near) (value : BitVec 32) (s : State) : Res :=
  regWord (.lit h d value) h s (lits := 1) (f := fun _ act w => w.put32 d act (fun _ => value) 2)
/-- `LIT2` (R147). -/
def execLit2 (h : Hdr) (d : Near) (value : BitVec 64) (s : State) : Res :=
  regWord (.lit2 h d value) h s (lits := 2) (f := fun _ act w => w.put64 d act (fun _ => value) 2)

/-! ### Integer compares and predicate logic (R145, R146) -/

/-- An integer compare (R145): d[4] = 1 ANDs the result into pd. -/
def icmp (i : Instr) (h : Hdr) (acc : Bool) (pd : Fin 16) (a b : Near) (c : Word → Word → Bool) (s : State) : Res :=
  regWord i h s (f := fun before act w =>
    w.setP pd.val act (fun l => c (before.read32 .int a l) (before.read32 .int b l) && (!acc || before.readP pd.val l)) 2)

/-- `ICMP.eq.i32` (R145). -/
def execIcmpEqI32 (h : Hdr) (acc : Bool) (pd : Fin 16) (a b : Near) (s : State) : Res :=
  icmp (.icmpEqI32 h acc pd a b) h acc pd a b (fun x y => x == y) s
/-- `ICMP.ne.i32` (R145). -/
def execIcmpNeI32 (h : Hdr) (acc : Bool) (pd : Fin 16) (a b : Near) (s : State) : Res :=
  icmp (.icmpNeI32 h acc pd a b) h acc pd a b (fun x y => x != y) s
/-- `ICMP.lt.i32` (R145). -/
def execIcmpLtI32 (h : Hdr) (acc : Bool) (pd : Fin 16) (a b : Near) (s : State) : Res :=
  icmp (.icmpLtI32 h acc pd a b) h acc pd a b (fun x y => x.slt y) s
/-- `ICMP.le.i32` (R145). -/
def execIcmpLeI32 (h : Hdr) (acc : Bool) (pd : Fin 16) (a b : Near) (s : State) : Res :=
  icmp (.icmpLeI32 h acc pd a b) h acc pd a b (fun x y => x.sle y) s
/-- `ICMP.gt.i32` (R145). -/
def execIcmpGtI32 (h : Hdr) (acc : Bool) (pd : Fin 16) (a b : Near) (s : State) : Res :=
  icmp (.icmpGtI32 h acc pd a b) h acc pd a b (fun x y => y.slt x) s
/-- `ICMP.ge.i32` (R145). -/
def execIcmpGeI32 (h : Hdr) (acc : Bool) (pd : Fin 16) (a b : Near) (s : State) : Res :=
  icmp (.icmpGeI32 h acc pd a b) h acc pd a b (fun x y => y.sle x) s
/-- `ICMP.lt.n32` (R145). -/
def execIcmpLtN32 (h : Hdr) (acc : Bool) (pd : Fin 16) (a b : Near) (s : State) : Res :=
  icmp (.icmpLtN32 h acc pd a b) h acc pd a b (fun x y => x.ult y) s
/-- `ICMP.le.n32` (R145). -/
def execIcmpLeN32 (h : Hdr) (acc : Bool) (pd : Fin 16) (a b : Near) (s : State) : Res :=
  icmp (.icmpLeN32 h acc pd a b) h acc pd a b (fun x y => x.ule y) s
/-- `ICMP.gt.n32` (R145). -/
def execIcmpGtN32 (h : Hdr) (acc : Bool) (pd : Fin 16) (a b : Near) (s : State) : Res :=
  icmp (.icmpGtN32 h acc pd a b) h acc pd a b (fun x y => y.ult x) s
/-- `ICMP.ge.n32` (R145). -/
def execIcmpGeN32 (h : Hdr) (acc : Bool) (pd : Fin 16) (a b : Near) (s : State) : Res :=
  icmp (.icmpGeN32 h acc pd a b) h acc pd a b (fun x y => y.ule x) s

/-- A predicate operation (R146). -/
def plop (i : Instr) (h : Hdr) (pd pa pb : Fin 16) (f : Bool → Bool → Bool) (s : State) : Res :=
  regWord i h s (f := fun before act w =>
    w.setP pd.val act (fun l => f (before.readP pa.val l) (before.readP pb.val l)) 2)

/-- `PLOP.and` (R146). -/
def execPlopAnd (h : Hdr) (pd pa pb : Fin 16) (s : State) : Res :=
  plop (.plopAnd h pd pa pb) h pd pa pb (fun x y => x && y) s
/-- `PLOP.or` (R146). -/
def execPlopOr (h : Hdr) (pd pa pb : Fin 16) (s : State) : Res :=
  plop (.plopOr h pd pa pb) h pd pa pb (fun x y => x || y) s
/-- `PLOP.xor` (R146). -/
def execPlopXor (h : Hdr) (pd pa pb : Fin 16) (s : State) : Res :=
  plop (.plopXor h pd pa pb) h pd pa pb (fun x y => x != y) s
/-- `PLOP.andn` (R146). -/
def execPlopAndn (h : Hdr) (pd pa pb : Fin 16) (s : State) : Res :=
  plop (.plopAndn h pd pa pb) h pd pa pb (fun x y => x && !y) s

/-! ### Uniform scalars (R148): warp scope, acting when `active` holds a lane (R132) -/

/-- A warp-scope register word: `f` changes the warp when `active` is not empty, given its lowest lane. -/
def warpScope (i : Instr) (h : Hdr) (s : State) (f : (before : Warp) → Fin 32 → Warp → Warp) : Res :=
  regWord i h s (f := fun before act w => match LaneSet.lowest act with
    | none => w
    | some l => f before l w)

/-- `SGET` (R148). -/
def execSget (h : Hdr) (sd : Fin 32) (a : Near) (s : State) : Res :=
  warpScope (.sget h sd a) h s fun before l w => w.setS sd.val (before.read32 .int a l) 2
/-- `SMOV` (R148). -/
def execSmov (h : Hdr) (sd ss : Fin 32) (s : State) : Res :=
  warpScope (.smov h sd ss) h s fun before _ w => w.setS sd.val (before.readS ss.val) 2
/-- `SADD` (R148). -/
def execSadd (h : Hdr) (sd ss : Fin 32) (s : State) : Res :=
  warpScope (.sadd h sd ss) h s fun before _ w => w.setS sd.val (before.readS sd.val + before.readS ss.val) 2

end Sys2Proof.Machine
end

