-- ==== Sys2Proof/Machine/Control.lean ====
section
/-! DEFINITION. Branches and calls, loops, headwind branches, tiles and warp-wide selection, special registers (R34, R35,
R132 to R144, R153 to R155). -/
namespace Sys2Proof.Machine

/-- The word transfers control in the lanes of `act` to `f`; the other issuing lanes go on to the next word (R106). -/
def Warp.branch (w : Warp) (cur : Cur) (act : LaneSet) (f : Fin 32 → Word) : Warp :=
  (w.advance cur.pc (LaneSet.diff cur.lanes act) 0).setPcs act fun l => { packet := f l, word := 0 }

/-- The packet `off` packets from packet `p`, if it is one (R117). -/
def branchTarget (p : Word) (off : Int) : Option Word :=
  let t := (p.toNat : Int) + off
  if 0 ≤ t ∧ t < 2 ^ 32 then some (BitVec.ofInt 32 t) else none

/-- The trap of a branch target outside the packets (R117, R397 reason 7). Its address is a free value: no virtual address
belongs to such a target. -/
def branchTrap (s : State) (act : LaneSet) : Trap :=
  { kind := .protection, lane := lowLane act, va := Config.freeValue s.free, akind := 3, reason := 7 }

/-- Raises a trap of the word's own entry. -/
def trapWord (s : State) (cur : Cur) (w : Warp) (act : LaneSet) (t : Trap) : Res :=
  .next ((if t.table.isSome then s else s.setWarp cur.core cur.slot w).raise cur act t)

/-- `BRA` (R134). -/
def execBra (h : Hdr) (off : BitVec 14) (s : State) : Res :=
  ordinary (.bra h off) h 0 [] s fun w cur act =>
    if !LaneSet.any act then finish s cur (w.advance cur.pc cur.lanes 0)
    else match branchTarget cur.pc.packet off.toInt with
      | none => trapWord s.fresh cur w act (branchTrap s act)
      | some p => finish s cur (w.branch cur act fun _ => p)

/-- `CALL` (R134): the return packet goes to `q15` and shifts into `y`; past the last packet it wraps to 0 (DESIGN CHOICE, log 80). -/
def execCall (h : Hdr) (off : BitVec 14) (s : State) : Res :=
  ordinary (.call h off) h 0 [] s fun w cur act =>
    if !LaneSet.any act then finish s cur (w.advance cur.pc cur.lanes 0)
    else match branchTarget cur.pc.packet off.toInt with
      | none => trapWord s.fresh cur w act (branchTrap s act)
      | some p =>
        finish s cur ((w.put32 (.q 15) act (fun _ => cur.pc.packet + 1) 0).branch cur act fun _ => p)

/-- `RET` (R134). -/
def execRet (h : Hdr) (s : State) : Res :=
  ordinary (.ret h) h 0 [] s fun w cur act => finish s cur (w.branch cur act fun l => cur.before.readQ 15 l)

/-- `BRX` (R134). -/
def execBrx (h : Hdr) (a : Near) (s : State) : Res :=
  ordinary (.brx h a) h 0 [] s fun w cur act => finish s cur (w.branch cur act fun l => cur.before.read32 .int a l)

/-- `LOOP` (R135). Lanes that enter go to the next packet and lanes that skip it past the body, so a word that stands after it in its
packet runs only where no lane is active (R30). Packet numbers past the last wrap to 0 (DESIGN CHOICE, log 80). -/
def execLoop (h : Hdr) (sc : Fin 8) (len : Fin 128) (s : State) : Res :=
  ordinary (.loop h sc len) h 0 [] s fun w cur act =>
    let c := cur.before.readS sc.val
    let p := cur.pc.packet
    let stop := p + BitVec.ofNat 32 len.val
    if !LaneSet.any act then finish s cur (w.advance cur.pc cur.lanes 0)
    else if c = 0 then finish s cur (w.setPcs cur.lanes fun _ => { packet := stop + 1, word := 0 })
    else if 3 ≤ w.regs.loops.length ||
        (match w.regs.loops with | [] => false | lv :: _ => lv.stop.toNat < p.toNat + len.val) then
      trapWord s cur w act { kind := .loopNest, lane := lowLane act }
    else
      let w := { w with regs := { w.regs with loops := { start := p + 1, stop := stop, count := c } :: w.regs.loops } }
      finish s cur ((w.setPcs act fun _ => { packet := p + 1, word := 0 }).setPcs (LaneSet.diff cur.lanes act)
        fun _ => { packet := stop + 1, word := 0 })

/-- `BREAK` (R137). -/
def execBreakLevel (h : Hdr) (s : State) : Res :=
  ordinary (.breakLevel h) h 0 [] s fun w cur act =>
    match w.regs.loops with
    | [] => trapWord s cur w act { kind := .loopNest, lane := lowLane act }
    | lv :: rest =>
      if !LaneSet.any act then finish s cur (w.advance cur.pc cur.lanes 0)
      else
        let w := { w with regs := { w.regs with loops := rest } }
        finish s cur (w.branch cur act fun _ => lv.stop + 1)

/-- The headwind mark of a core, `DX_HWM` (R353, R357). -/
def State.hwmark (s : State) (core : Nat) : Nat := (s.reg (0x12000 + 4 * core) 64).toNat % 4096

/-- The send-allowance register `sa`n of a core (R20): 4,095 for the own device, 0 for an absent one. -/
def State.allowance (s : State) (core dev : Nat) : Nat :=
  if dev = s.self then 4095
  else if s.present.getLsbD dev then SMap.getD (s.core core).sa dev 0
  else 0

/-- Places a core in a peer's allowance set (R139, R244, R349). -/
def State.addInterest (s : State) (core dev : Nat) : State :=
  let c := s.core core
  if dev = s.self then s else s.setCore core { c with interest := SMap.put c.interest dev 0 }

/-- `BHEAD` (R139). -/
def execBhead (h : Hdr) (peer : Fin 16) (off : BitVec 10) (s : State) : Res :=
  ordinary (.bhead h peer off) h 0 [] s fun w cur act =>
    let s := if LaneSet.any act then s.addInterest cur.core peer.val else s
    if LaneSet.any act && s.allowance cur.core peer.val < s.hwmark cur.core then
      match branchTarget cur.pc.packet off.toInt with
      | none => trapWord s.fresh cur w act (branchTrap s act)
      | some p => finish s cur (w.branch cur act fun _ => p)
    else finish s cur (w.advance cur.pc cur.lanes 0)

/-- `NOP` (R140). -/
def execNop (h : Hdr) (s : State) : Res := regWord (.nop h) h s (f := fun _ _ w => w)

/-- `YIELD` (R142). -/
def execYield (h : Hdr) (s : State) : Res :=
  regWord (.yield h) h s (f := fun _ act w =>
    if LaneSet.any act then { w with yielded := act, yieldClock := true } else w)

/-! ### Tiles and warp-wide selection -/

/-- `ELECT` (R34). -/
def execElect (h : Hdr) (pd : Fin 16) (s : State) : Res :=
  regWord (.elect h pd) h s (f := fun _ act w =>
    w.setP pd.val act (fun l => LaneSet.lowest act == some l) 2)

/-- `SETTILE` (R143). -/
def execSettile (h : Hdr) (size : Fin 8) (s : State) : Res :=
  warpScope (.settile h size) h s fun _ _ w => { w with regs := { w.regs with tile := 2 ^ size.val } }

/-- Lanes of `act` in lane `l`'s tile of `t` lanes: the set T(l) of R144. -/
def tileSet (t : Nat) (act : LaneSet) (l : Fin 32) : List (Fin 32) :=
  (LaneSet.list act).filter fun j => j.val / t == l.val / t

/-- The mask of a list of lanes. -/
def laneBits (ls : List (Fin 32)) : Word := BitVec.ofNat 32 (ls.foldl (fun n j => n + 2 ^ j.val) 0)

/-- `PJOIN` (R144). -/
def execPjoin (h : Hdr) (pd pa : Fin 16) (mode : Fin 4) (s : State) : Res :=
  regWord (.pjoin h pd pa mode) h s (f := fun before act w =>
    w.setP pd.val act (fun l =>
      let vs := (tileSet before.regs.tile act l).map fun j => before.readP pa.val j
      match mode.val with
      | 0 => vs.all (fun b => b)
      | 1 => vs.any (fun b => b)
      | 2 => vs.all (fun b => b) || vs.all (fun b => !b)
      | _ => vs.foldl (fun x b => x != b) false) 2)

/-- `PMASK` (R144). -/
def execPmask (h : Hdr) (d : Near) (pa : Fin 16) (s : State) : Res :=
  regWord (.pmask h d pa) h s (f := fun before act w =>
    w.put32 d act (fun l =>
      laneBits ((tileSet before.regs.tile act l).filter fun j => before.readP pa.val j)) 2)

/-- `PEERS` (R144): issuing lanes whose guard fails get 0. -/
def execPeers (h : Hdr) (d a : Near) (mode : Fin 4) (s : State) : Res :=
  ordinary (.peers h d a mode) h 0 [] s fun w cur act =>
    let key := fun (l : Fin 32) =>
      if mode.val = 1 then cur.before.read64 a l else (cur.before.read32 .int a l).setWidth 64
    let f := fun (l : Fin 32) =>
      if act[l] then laneBits ((tileSet cur.before.regs.tile act l).filter fun j => key j == key l) else 0
    finish s cur ((w.put32 d cur.lanes f 2).advance cur.pc cur.lanes 0)

/-- `MOVSA` (R244). -/
def execMovsa (h : Hdr) (d : Near) (peer : Fin 16) (s : State) : Res :=
  ordinary (.movsa h d peer) h 0 [] s fun w cur act =>
    let s := if LaneSet.any act then s.addInterest cur.core peer.val else s
    let x := BitVec.ofNat 32 (s.allowance cur.core peer.val)
    finish s cur ((w.put32 d act (fun _ => x) 2).advance cur.pc cur.lanes 0)

/-! ### Special registers (R22, R119, R153, R154) -/

/-- `sr.window` (R328), read before the reading word is counted. -/
def Warp.windowReg (w : Warp) : Word :=
  match w.openWin with
  | none => BitVec.ofNat 32 (w.streak * 2 ^ 23 + (if w.nextSteady then 2 ^ 25 else 0) + if w.windows.isEmpty then 0 else 2 ^ 22)
  | some x =>
    BitVec.ofNat 32 ((if x.steady then 2 ^ 25 else 0) + x.streak * 2 ^ 23 +
      (if 1 < w.windows.length then 2 ^ 22 else 0) + x.words * 2 ^ 13 + x.vregs.length * 2 ^ 7 + x.accesses)

/-- A field of a launch's record (R377). -/
def State.recordField (s : State) (launch lo w : Nat) : Nat :=
  match SMap.get? s.launches launch with
  | none => 0
  | some l => bits l.record.toNat lo w

/-- Remaining count of loop level `j` (R135). -/
def Regs.loopCount (r : Regs) (j : Nat) : Word := (r.loops.reverse[j]?).elim 0 (·.count)

/-- The 32-bit special register `num` in lane `l` (R22, R119, R153). -/
def State.specialReg (s : State) (core : Nat) (w : Warp) (num : Nat) (l : Fin 32) : Word :=
  match num with
  | 0 => BitVec.ofNat 32 l.val
  | 1 => BitVec.ofNat 32 w.index
  | 2 => BitVec.ofNat 32 (((SMap.get? s.blocks w.block).map (·.index)).getD 0)
  | 3 => BitVec.ofNat 32 (s.recordField w.launch 736 32)
  | 4 => BitVec.ofNat 32 core
  | 5 => BitVec.ofNat 32 (core / 4)
  | 6 => BitVec.ofNat 32 (core / 16)
  | 7 => BitVec.ofNat 32 s.self
  | 8 => BitVec.ofNat 32 w.regs.tile
  | 9 => w.regs.satAt w.clk
  | 10 => w.regs.flagsAt w.clk
  | 11 => w.regs.rc
  | 12 => w.regs.mshift
  | 13 => w.regs.phase
  | 14 => predWord w.sbchk
  | 15 => BitVec.ofNat 32 (s.hwmark core)
  | 16 => w.windowReg
  | 17 => w.rollbacks
  | 18 => w.cycles
  | 20 => if w.super then w.trapinfo else 0
  | 21 => w.regs.loopCount 0
  | 22 => w.regs.loopCount 1
  | 23 => w.regs.loopCount 2
  | _ => 0

/-- `GETSR` (R153): the value of the register when the word issues. -/
def execGetsr (h : Hdr) (d : Near) (num : Fin 128) (s : State) : Res :=
  ordinary (.getsr h d num) h 0 [] s fun w cur act =>
    let w := if num.val = 19 then w.put64 d act (fun _ => s.spbase) 2
      else w.put32 d act (fun l => s.specialReg cur.core cur.before num.val l) 2
    finish s cur (w.advance cur.pc cur.lanes 0)

/-- The bits of words in flight: those that a `GETSR` at `clk` does not read yet, and those of words of the
same clock, which come after the `old` records with which the clock began (R133). -/
def Regs.inFlight (r : Regs) (clk old : Nat) : List Sticky :=
  (r.sticky.take old).filter (fun e => clk < e.due) ++ r.sticky.drop old

/-- Replaces the saturation mask (R154): bits that a `GETSR` reads now go, bits of words in flight are ORed in later (R133). -/
def Regs.setSat (r : Regs) (clk old : Nat) (x : Word) : Regs :=
  { r with sat := x, fflags := { r with sticky := r.sticky.take old }.flagsAt clk, sticky := r.inFlight clk old }

/-- Replaces the flags (R154), with the same survival rule. -/
def Regs.setFlags (r : Regs) (clk old : Nat) (x : Word) : Regs :=
  { r with fflags := x &&& 0x1F, sat := { r with sticky := r.sticky.take old }.satAt clk, sticky := r.inFlight clk old }

/-- Replaces the remaining count of an open level; a level that is not open is left (R138). -/
def Regs.setLoop (r : Regs) (j : Nat) (x : Word) : Regs :=
  { r with loops := (r.loops.reverse.mapIdx fun k lv => if k = j then { lv with count := x } else lv).reverse }

/-- The effect of `SETSR` on the registers that are not `sr.sbchk` (R154). -/
def Regs.setSpecial (r : Regs) (clk old num : Nat) (x : Word) : Regs :=
  match num with
  | 9 => r.setSat clk old x
  | 10 => r.setFlags clk old x
  | 11 => { r with rc := x }
  | 12 => { r with mshift := x }
  | 13 => { r with phase := x &&& 0x3F }
  | 21 => r.setLoop 0 x
  | 22 => r.setLoop 1 x
  | 23 => r.setLoop 2 x
  | _ => r

/-- A value that `SETSR` rejects (R154). -/
def setsrRejects (num : Nat) (x : Word) : Bool := num == 11 && (x.toNat == 0 || 255 < x.toNat)

/-- `SETSR` (R154): warp scope; of `sr.sbchk` it is irrevocable (R155). A count written by the word that crosses its level's end counts
at that crossing (DESIGN CHOICE, log entry 102). -/
def execSetsr (h : Hdr) (a : Near) (num : Fin 128) (s : State) : Res :=
  if num.val = 14 then
    irrevocable (.setsr h a num) h s fun w cur act =>
      let x := match LaneSet.lowest act with
        | none => 0
        | some l => cur.before.read32 .int a l
      finish s cur ({ w with sbchk := x.getLsbD 0 }.advance cur.pc cur.lanes 0)
  else
    ordinary (.setsr h a num) h 0 [] s fun w cur act =>
      match LaneSet.lowest act with
      | none => finish s cur (w.advance cur.pc cur.lanes 0)
      | some l =>
        let x := cur.before.read32 .int a l
        if setsrRejects num.val x then trapWord s cur w act { kind := .illegalOperand, lane := lowLane act }
        else finish s cur ({ w with regs := w.regs.setSpecial w.clk cur.before.regs.sticky.length num.val x }.advance cur.pc cur.lanes 0)

end Sys2Proof.Machine
end

