-- ==== Sys2Proof/Machine/Registers.lean ====
section
/-! DEFINITION. The registers of the device's own address map as reads see them (R428): where each stands, what it holds
at reset, and the fields the device computes. What a write does is in `Writes.lean`. -/
namespace Sys2Proof.Machine

/-- A port that nothing has changed (R357): link down, every counter 0. -/
def Port.reset : Port :=
  { en := false, pv := false, peer := 0, link := 0, txSlot := 0, txCtr := 0, ctlCtr := 0, retiring := false, rxSlot := 0,
    rxNext := 0, early := [], ctlSeen := [none, none], replay := [], ackOwed := false, nakOwed := false,
    credOwed := [0, 0, 0], credSent := [0, 0, 0], credSeen := [0, 0, 0], refusals := [], told := [], unacked := [], lent := [], route := none, sentCtl := none, peerUp := 0, txData := 0, rxData := 0, retx := 0, authf := 0, ksw := 0,
    relayed := 0, perr := 0 }

/-- Port `p`. -/
def State.port (s : State) (p : Nat) : Port := SMap.getD s.ports p Port.reset

/-- Sets a port. -/
def State.setPort (s : State) (p : Nat) (x : Port) : State := { s with ports := SMap.put s.ports p x }

/-- A launch queue that nothing has changed. -/
def Queue.reset : Queue := { head := 0, tail := 0, records := [], current := none, hold := none }

/-- Queue `n`. -/
def State.queue (s : State) (n : Nat) : Queue := SMap.getD s.queues n Queue.reset

/-- Sets a queue. -/
def State.setQueue (s : State) (n : Nat) (q : Queue) : State := { s with queues := SMap.put s.queues n q }

/-- The key of a slot of the key store (R432). -/
def keyId (cls index slot : Nat) : Nat := (cls * 16 + index) * 2 + slot

/-- The key slot of a class and index (R432). -/
def State.keySlot (s : State) (cls index slot : Nat) : Option KeySlot := SMap.get? s.keys (keyId cls index slot)

/-- A slot holds a fresh key (R433). -/
def State.freshKey (s : State) (cls index slot : Nat) : Bool := (s.keySlot cls index slot).any (·.fresh)

/-- The next data ctr at which a switch starts (R344). -/
def switchPoint : Nat := 0xFFF00000

/-- A direction that sends no further flit (R345). The last data ctr is kept for the marker, so that a key that is loaded then can
still be switched to (DESIGN CHOICE, log 82). -/
def Port.limited (x : Port) : Bool := 0xFFFFFFFF ≤ x.txCtr || 0xFFFFFFFF < x.ctlCtr

/-- `DXP_STATE` of a port (R357). -/
def State.portState (s : State) (p : Nat) : Nat :=
  let x := s.port p
  let limited := x.link = 2 ∧ x.limited
  let bit := fun (b : Bool) (n : Nat) => if b then 2 ^ n else 0
  (if limited then 3 else x.link) * 2 ^ 30 + x.txSlot * 2 ^ 29 + x.rxSlot * 2 ^ 28 +
    bit (s.freshKey 0 p 1) 27 + bit (s.freshKey 0 p 0) 26 +
    bit (s.keySlot 1 p 1).isSome 25 + bit (s.keySlot 1 p 0).isSome 24

/-- A 64-bit register's half at `off` of the register at `base`. -/
def halfOf (base off : Nat) (x : DWord) : Nat := if off = base then x.toNat % 2 ^ 32 else x.toNat / 2 ^ 32

/-- The 32 bits of the fabric block at offset `o` (R357). -/
def State.fabricReg (s : State) (o : Nat) : Nat :=
  if 0x2000 ≤ o then if o < 0x2000 + 4 * 192 then (s.reg (0x10000 + o) 64).toNat % 4096 else 0
  else
    let p := o / 256
    let x := s.port p
    if 15 ≤ p then 0
    else match o % 256 with
      | 0x00 => (if x.en then 128 else 0) + (if x.pv then 64 else 0) + x.peer
      | 0x04 => s.portState p
      | 0x08 => x.txCtr % 2 ^ 32
      | 0x10 => x.txData.toNat % 2 ^ 32
      | 0x14 => x.txData.toNat / 2 ^ 32
      | 0x18 => x.rxData.toNat % 2 ^ 32
      | 0x1C => x.rxData.toNat / 2 ^ 32
      | 0x20 => x.retx.toNat
      | 0x24 => x.authf.toNat
      | 0x28 => x.ksw.toNat
      | 0x2C => x.relayed.toNat
      | 0x30 => x.perr.toNat
      | _ => 0

/-- The 32 bits of a queue's registers at offset `o` of its 32 bytes (R380, R392). -/
def State.queueReg (s : State) (n o : Nat) : Nat :=
  match o with
  | 0x00 => if n < 48 then (s.reg (32 * n) 0).toNat % 2 ^ 32 else 0
  | 0x04 => if n < 48 then (s.reg (32 * n) 0).toNat / 2 ^ 32 else 0
  | 0x08 => (s.reg (32 * n + 8) 8).toNat
  | 0x10 => (s.queue n).tail.toNat
  | 0x14 => (s.queue n).head.toNat
  | 0x18 => (s.reg (32 * n + 0x18) 0).toNat
  | _ => 0

/-- A core's supply at a step (R390): its fused table is non-decreasing in the step and lies within 560 to 780 mV. -/
def coreMv (c step : Nat) : Nat :=
  (List.range (step + 1)).foldl (fun mv k => max mv (min 780 (Config.fusedMv c k).toNat)) 560

/-- The power register of a core (R391): its supply comes from the fused table. -/
def State.powerReg (s : State) (c : Nat) : Nat :=
  let x := s.core c
  x.hi * 2 ^ 26 + x.lo * 2 ^ 20 + coreMv c x.step * 2 ^ 10 + x.step

/-- `PC_CTR` (R442): the next record counter under the selected key slot. -/
def State.precopyCtr (s : State) : DWord := SMap.getD s.pcCtr (bits (s.reg 0x2700 0).toNat 21 1) 0

/-- The 32 bits of the scheduler block at offset `o` (R380 to R453). Write-only registers read as 0. -/
def State.schedReg (s : State) (o : Nat) : Nat :=
  let r32 := fun (base d : Nat) => (s.reg base (BitVec.ofNat 64 d)).toNat % 2 ^ 32
  let lo := fun (base : Nat) => (s.reg base 0).toNat % 2 ^ 32
  let hi := fun (base : Nat) => (s.reg base 0).toNat / 2 ^ 32
  if o < 0x800 then s.queueReg (o / 32) (o % 32)
  else if 0x1000 ≤ o ∧ o < 0x1300 then
    let x := s.core ((o - 0x1000) / 4)
    (if x.newWays.isSome then 2 ^ 31 else 0) + x.ways
  else if 0x1400 ≤ o ∧ o < 0x1700 then s.powerReg ((o - 0x1400) / 4)
  else if 0x3000 ≤ o ∧ o < 0x3600 then if o % 8 = 0 then lo o else hi (o - 4)
  else match o with
    | 0x1800 => r32 o 0x80000000
    | 0x2000 | 0x2040 | 0x2200 | 0x2300 | 0x2308 | 0x2508 | 0x2600 | 0x2608 | 0x2610 | 0x2618 | 0x2620 | 0x2628
    | 0x2630 | 0x2638 | 0x2708 | 0x2800 | 0x2908 => lo o
    | 0x2004 | 0x2044 | 0x2204 | 0x2304 | 0x230C | 0x250C | 0x2604 | 0x260C | 0x2614 | 0x261C | 0x2624 | 0x262C
    | 0x2634 | 0x263C | 0x270C | 0x2804 | 0x290C => hi (o - 4)
    | 0x2018 | 0x2048 | 0x204C | 0x2210 | 0x2214 | 0x2310 | 0x2314 | 0x2510 | 0x2700 | 0x2710 | 0x2720 | 0x2724
    | 0x2810 | 0x2814 | 0x2818 | 0x2900 => r32 o 0
    | 0x201C => if s.inval.isSome then 1 else 0
    | 0x2718 => s.precopyCtr.toNat % 2 ^ 32
    | 0x271C => s.precopyCtr.toNat / 2 ^ 32
    | 0x2208 | 0x2808 => r32 o 8
    | 0x221C => ((s.efaults.take 4096).filter fun e => !e.2.recorded && !e.2.handler).length
    | 0x2400 => r32 o 0x80000000
    | 0x2410 => if s.recalls.any (·.driver) then 2 ^ 31 else 0
    | 0x2500 => r32 o 0 % 2 ^ 29 / 2 ^ 28 * 2 ^ 28 + r32 o 0 / 2 ^ 30 * 2 ^ 30 + if s.ide.1 && s.ide.2 then 2 ^ 29 else 0
    | 0x3600 => match s.aborts with
      | [] => 0
      | c :: _ => 2 ^ 31 + c
    | _ => 0

/-- The 32 bits of the collective engine's block (R305). -/
def State.planReg (s : State) (o : Nat) : Nat :=
  if o < 8 then halfOf 0 o (s.reg 0x20000 0)
  else if 0x100 ≤ o ∧ o < 0x500 then
    if o % 16 = 0 ∨ o % 16 = 4 then halfOf 0 (o % 16) (s.reg (0x20000 + o / 16 * 16) 0) else 0
  else 0

/-- The 32 bits of the bring-up, key and snapshot blocks (R429, R432, R435, R439). -/
def State.firmwareReg (s : State) (o : Nat) : Nat :=
  match o with
  | 0x30000 | 0x40008 | 0x50010 => if o = 0x50010 then 0 else (s.reg o 0).toNat % 2 ^ 32
  | 0x30004 => (s.reg 0x30000 0).toNat / 2 ^ 32
  | 0x30008 => Config.fusedOff.toNat % 2 ^ 32
  | 0x3000C => Config.fusedOff.toNat / 2 ^ 32
  | 0x40000 | 0x40040 | 0x40080 => (s.reg o 0).toNat % 2 ^ 32
  | 0x50000 => (s.reg o 0x3F).toNat % 64
  | 0x50008 => (s.reg o 0).toNat % 2 ^ 32
  | 0x5000C => (s.reg 0x50008 0).toNat / 2 ^ 32
  | 0x50018 | 0x5001C => (s.reg o 0).toNat % 2 ^ 32
  | _ => 0

/-- The 32 bits at a 4-byte aligned offset of the BAR (R428): 0 where no register stands. -/
def State.read32At (s : State) (off : Nat) : Nat :=
  if off < 0x10000 then s.schedReg off
  else if off < 0x20000 then s.fabricReg (off - 0x10000)
  else if off < 0x30000 then s.planReg (off - 0x20000)
  else s.firmwareReg off

/-- A read of `n` bytes, 4 or 8, of the device's registers. -/
def State.readReg (s : State) (off n : Nat) : DWord :=
  if n = 8 then BitVec.ofNat 64 (s.read32At off % 2 ^ 32 + s.read32At (off + 4) % 2 ^ 32 * 2 ^ 32)
  else BitVec.ofNat 64 (s.read32At off % 2 ^ 32)

end Sys2Proof.Machine
end

