-- ==== Sys2Proof/Machine/Coherence.lean ====
section
/-! DEFINITION. Who may read and write a line now, and what is asked of whom when it may not: the line directories
(R411 to R413), L1 tags (R77, R197), the page protocol toward peers (R416 to R419), the host (R423, R424), and the write
of bytes every party makes (R78, R325, R441). -/
namespace Sys2Proof.Machine

/-! ### L1 tags (R77, R197) -/

/-- The L1 tag of a line in a core. -/
def tagKey (core line : Nat) : Nat := core * 2 ^ 46 + line

/-- A tag that nothing has touched. -/
def tagNew : L1Tag := { readCount := 0, vane := 0, valid := false, lacks := 0, leaving := false }

/-- A load word reads a line (R77): it takes one from the line's count. At 0 the line leaves, once no window pins it (R322). -/
def L1Tag.load (t : L1Tag) : L1Tag :=
  if t.readCount = 0 then { t with valid := true }
  else { t with readCount := t.readCount - 1, valid := true, leaving := t.readCount = 1 }

/-- An `LDN` reads a line (R77). -/
def L1Tag.loadN (t : L1Tag) (rc : Nat) : L1Tag :=
  { t with readCount := if t.valid then max t.readCount rc else rc, valid := true, leaving := false }

/-- A store to a line clears its count (R77). -/
def L1Tag.store (t : L1Tag) : L1Tag := { t with readCount := 0, valid := true, leaving := false }

/-- The line leaves the L1: its count is lost, its weathervane stays with the tag (R77, R197). -/
def L1Tag.left (t : L1Tag) : L1Tag := { t with readCount := 0, valid := false, leaving := false }

/-- Another party takes the line: the count is lost and the weathervane rises (R77, R197). -/
def L1Tag.taken (t : L1Tag) : L1Tag := { t.left with vane := min 3 (t.vane + 1) }

/-- An access to the sectors of a mask brings them in; of a line that was not there, the others stay out (R423, R424). -/
def L1Tag.fill (t : L1Tag) (mask : Nat) : L1Tag :=
  { t with lacks := (if t.valid then t.lacks else 3) &&& (3 - mask % 4) }

/-- Another party takes sectors of the line; with its last sector the line is gone. -/
def L1Tag.takenPart (t : L1Tag) (mask : Nat) : L1Tag :=
  let lacks := t.lacks ||| mask
  if lacks = 3 then { t.taken with lacks := 0 } else { t with readCount := 0, lacks := lacks, vane := min 3 (t.vane + 1) }

/-- A write-update reaches the line: the count is lost, the line stays (R77). -/
def L1Tag.updated (t : L1Tag) : L1Tag := { t with readCount := 0, leaving := false }

/-- The device and host lines of a list of granules. -/
def lineNos (gs : List Gran) : List Nat :=
  gs.filterMap fun g => match g with
    | .line n => some n
    | .host n => some (2 ^ 45 + n)
    | .scratch _ _ => none

/-- The lines that a window pins in its core's L1: those of its read set and of its write set (R321, R322). -/
def Window.pins (x : Window) : List Nat := lineNos (x.reads ++ x.stores.flatMap fun e => e.loc.grans e.data.length)

/-- The lines that the uncommitted windows of a core pin. -/
def State.pinned (s : State) (core : Nat) : List Nat :=
  ((s.warps.filter fun e => e.1 / 64 = core).flatMap fun e => e.2.windows.flatMap Window.pins).eraseDups

/-- The tag of a line in a core; a line whose read count reached 0 has left unless a window pins it (R322). -/
def State.tag (s : State) (core line : Nat) : L1Tag :=
  let t := SMap.getD s.l1 (tagKey core line) tagNew
  if t.leaving && !(s.pinned core).contains line then t.left else t

/-- Changes a core's tags of the lines in a list, each once. -/
def State.tagLines (s : State) (core : Nat) (lines : List Nat) (f : L1Tag → L1Tag) : State :=
  { s with l1 := lines.eraseDups.foldl (fun m n => SMap.put m (tagKey core n) (f (s.tag core n))) s.l1 }

/-- A local address lies in the host window (R424). -/
def State.inWindow (s : State) (pa : Nat) : Bool :=
  let base := (s.reg 0x2508 0).toNat / 2 ^ 30 * 2 ^ 30
  let a := pa % 2 ^ 48
  base ≤ a && a < base + 2 ^ 30 * (s.reg 0x2510 0).toNat && paExists a

/-- The sectors of a line that `n` bytes from an address overlap. -/
def sectorMask (a n line : Nat) : Nat :=
  (if a < line * 128 + 64 && line * 128 < a + n then 1 else 0) + if a < line * 128 + 128 && line * 128 + 64 < a + n then 2 else 0

/-- What an access of `n` bytes brings into an L1, by line: whole lines, but single sectors of host lines and of lines in the host
window (R423, R424). -/
def State.linesUsed (s : State) (loc : Loc) (n : Nat) : List (Nat × Nat) :=
  match loc with
  | .mem pa => (lineNos (loc.grans n)).map fun l => (l, if pa / 2 ^ 48 = s.self && s.inWindow pa then sectorMask pa n l else 3)
  | .host pa => (lineNos (loc.grans n)).map fun l => (l, sectorMask pa n (l - 2 ^ 45))
  | _ => []

/-- A word uses lines in its core's L1: they are there from now on, and each tag changes once. -/
def State.useLines (s : State) (core : Nat) (locs : List Loc) (n : Nat) (f : L1Tag → L1Tag) : State :=
  let used := locs.flatMap fun loc => s.linesUsed loc n
  let s := used.foldl (fun s u => s.tagLines core [u.1] fun t => t.fill u.2) s
  s.tagLines core (used.map (·.1)) f

/-- The 512 sets of a way of the L1 (R9: 64 KiB of 128-byte lines): in which a line lies each implementation decides, the manual does
not say. -/
opaque Config.l1Index : Nat → Fin 512

/-- The set of the L1 in which a line lies. -/
def Config.l1Set (line : Nat) : Nat := (Config.l1Index line).val

/-- The ways of a core's L1 that a fill may take (R387): those that are not scratchpad, nor about to be (R388). -/
def State.l1Ways (s : State) (core : Nat) : Nat :=
  let x := s.core core
  12 - max x.ways (x.newWays.getD 0)

/-- A fill of a line finds every way of its set pinned by lines of a list (R322). -/
def State.setPinned (s : State) (core line : Nat) (pins : List Nat) : Bool :=
  let ways := s.l1Ways core
  ways ≤ pins.length && !(s.tag core line).valid &&
    ways ≤ (pins.filter fun n => Config.l1Set n = Config.l1Set line).length

/-- The first line of a word whose fill finds its set pinned by the uncommitted windows of the core. -/
def State.noWay (s : State) (core : Nat) (lines : List Nat) : Option Nat :=
  let pins := s.pinned core
  lines.find? fun n => s.setPinned core n pins

/-- A pinned way of the line's set belongs to this warp (R317, R322). -/
def Warp.pinsSet (w : Warp) (line : Nat) : Bool :=
  w.windows.any fun x => x.pins.any fun n => Config.l1Set n = Config.l1Set line

/-! ### Line directories (R411 to R413) -/

/-- The home slice of a local line (R411). -/
def homeSlice (pa : Nat) : Nat :=
  let a := pa % 2 ^ 48
  if 0x010000000000 ≤ a then a / 128 % 48 else 4 * (a / 2 ^ 36) + a / 128 % 4

/-- The directory entry of a local line; a line without one is I everywhere (R412). -/
def State.dirLine (s : State) (line : Nat) : DirLine := SMap.getD s.dir line { st := .i, holders := [], way := 0 }

/-- The 2,048 sets of a slice's directory (R412): in which a line lies each implementation decides, the manual does not say. -/
opaque Config.dirIndex : Nat → Fin 2048

/-- The set of its slice's directory in which a line lies. -/
def Config.dirSet (line : Nat) : Nat := (Config.dirIndex line).val

/-- The host holds a sector of a local line. -/
def State.hostKeeps (s : State) (line : Nat) : Bool :=
  line / 2 ^ 41 = s.self && (s.hostHolds (line * 128) != .i || s.hostHolds (line * 128 + 64) != .i)

/-- Two lines lie in one set of one slice's directory (R411, R412). -/
def oneSet (a b : Nat) : Bool := homeSlice (a * 128) = homeSlice (b * 128) && Config.dirSet a = Config.dirSet b

/-- The way of a line's directory entry: the one it has, else the lowest that its set has free, or 16 and more where all are taken
(R412). -/
def State.dirWay (s : State) (line : Nat) : Nat :=
  match SMap.get? s.dir line with
  | some d => d.way
  | none =>
    let used := (if s.dir.length < 16 then s.dir else s.dir.filter fun e => oneSet e.1 line).map (·.2.way)
    ((List.range (used.length + 1)).find? fun k => !used.contains k).getD 0

/-- Sets a directory entry, in its way; a line that no L1, no peer and not the host holds has none. -/
def State.setDir (s : State) (line : Nat) (d : DirLine) : State :=
  let none_ : Bool := d.st == .i || d.holders.isEmpty
  { s with dir := if none_ && !s.hostKeeps line then SMap.del s.dir line
                  else SMap.put s.dir line { (if none_ then { d with st := .i, holders := [] } else d) with way := s.dirWay line } }

/-- Core copies of a line that are taken away (R413): tags fall, weathervanes rise but for the one of the core that asks (R197),
windows that read it roll back. -/
def State.invalidate (s : State) (line : Nat) (from_ : Option Nat) (cores : List Nat) : State :=
  let own := fun (c : Nat) => from_.any fun key => key / 64 = c
  let cores := cores.filter (· < 192)
  let s := cores.foldl (fun s c => s.tagLines c [line] (if own c then L1Tag.left else L1Tag.taken)) s
  let hit := s.warps.filter fun e => cores.contains (e.1 / 64)
  (hit.map (·.1)).foldl (fun s key => if some key == from_ then s else s.triggerWarp key (.line line)) s

/-- The read row of R413 for core `c`; a line of a SYNC page is never E or M (R415). -/
def State.dirRead (s : State) (c line : Nat) (sync : Bool) : State :=
  let d := s.dirLine line
  match d.st with
  | .i => s.setDir line { d with st := if sync then .s else .e, holders := [c] }
  | .s => if d.holders.contains c then s else s.setDir line { d with holders := d.holders ++ [c] }
  | _ => if d.holders.contains c then s else s.setDir line { d with st := .s, holders := d.holders ++ [c] }

/-- The write row of R413 for core `c`: every other holder is invalidated. -/
def State.dirWrite (s : State) (c line : Nat) (from_ : Option Nat) : State :=
  let d := s.dirLine line
  (s.invalidate line from_ (d.holders.filter fun o => o != c)).setDir line { d with st := .m, holders := [c] }

/-- A home-slice atomic (R197, R413), or a write by a party without an L1: every holder is invalidated, the line is I. -/
def State.dirTake (s : State) (line : Nat) (from_ : Option Nat) : State :=
  let d := s.dirLine line
  (s.invalidate line from_ d.holders).setDir line { d with st := .i, holders := [] }

/-- The eviction rows of R413. -/
def State.dirEvict (s : State) (c line : Nat) : State :=
  let d := s.dirLine line
  s.setDir line { d with holders := d.holders.filter fun o => o != c }

/-! ### Permission to write now (R323, R416, R423, R424) -/

/-- Devices other than this one read a line of a borrowed page (R417): the hub bit of its directory entry here. -/
def State.hubBit (s : State) (line : Nat) : Bool := (s.dirLine line).holders.contains 192

/-- A location whose bytes the device may write now: a local line is not in service for a peer's store; for a peer's line the
page is on loan here, or the home accepted the store (R418); for a host sector the line is held M (R91). -/
def State.writable (s : State) (loc : Loc) : Bool :=
  match loc with
  | .mem pa =>
    !s.busyLine (pa / 128) &&
      if pa / 2 ^ 48 = s.self then s.hostHolds pa == .i && (s.pageState pa).isNone
      else !s.hubBit (pa / 128) && match s.heldState loc with | .e | .m => true | _ => false
  | .host _ => s.heldState loc == .m
  | _ => true

/-- The slices of this device have line duty for a line (R416): its home is here, or its page is on loan here. -/
def State.hasDuty (s : State) (line : Nat) : Bool := line / 2 ^ 41 = s.self || (SMap.get? s.loans (line / 32)).isSome

/-- The device holds a peer's line in S, so that no L1 of it has more (R416). -/
def State.onlyShared (s : State) (line : Nat) : Bool :=
  line / 2 ^ 41 != s.self && match SMap.getD s.held line .i with
    | .e | .m => false
    | _ => true

/-- The core's L1 holds a line in E or M (R323, R413). -/
def State.owns (s : State) (core pa : Nat) : Bool :=
  let d := s.dirLine (pa / 128)
  (d.st == .e || d.st == .m) && d.holders == [core]

/-- A store of a thread of the core to the location is performed now (R323): the device may write it, and the core's own L1 holds
a line for which this device has duty writable (R418). -/
def State.coreWritable (s : State) (core : Nat) (loc : Loc) : Bool :=
  s.writable loc && match loc with
    | .mem pa => !s.hasDuty (pa / 128) || s.owns core pa
    | _ => true

/-! ### Asking for lines -/

/-- The free part of a core's allowance toward a device is lowered by one flit (R349). -/
def State.drawAllowance (s : State) (core dev : Nat) : State :=
  let c := s.core core
  s.setCore core { c with sa := SMap.put c.sa dev (SMap.getD c.sa dev 0 - 1) }

/-- Asks once for a remote line or a host sector. -/
def State.want (s : State) (loc : Loc) (write : Bool) : State × Bool :=
  let r := (heldKey loc, write)
  if s.wanted.contains r then (s, false) else ({ s with wanted := s.wanted ++ [r] }, true)

/-- The recall under way of a page of this device, by its number here, or of a borrowed page, 2^40 above its global number. -/
def State.startRecall (s : State) (page : Nat) (devs : List Nat) (then_ : Option (Nat × PageReq)) (driver : Bool) : State :=
  if s.recalls.any fun r => r.page == page then s
  else
    let global := if 2 ^ 40 ≤ page then page - 2 ^ 40 else s.self * 2 ^ 36 + page
    let s := devs.foldl (fun s d => s.sendMsg 0 d false false (.recall global)) s
    { s with recalls := s.recalls ++ [{ page := page, devs := devs, owed := devs, then_ := then_, driver := driver }] }

/-- The other devices of the domain. -/
def State.others (s : State) : List Nat := (List.range 16).filter fun d => d != s.self && s.present.getLsbD d

/-- The warp is becalmed toward a device (R354), after those that already are; 2^20 is added to the key of one that needs two
flits of allowance. -/
def State.becalm (s : State) (key dev : Nat) : State :=
  let p := SMap.getD s.pools dev { outstanding := 0, becalmed := [], woken := [], last := none }
  { s with pools := SMap.put s.pools dev { p with becalmed := p.becalmed.filter (fun k => k % 2 ^ 20 != key % 2 ^ 20) ++ [key] } }

/-- A line that is in service for a peer's accepted store is asked back, once (R414, R418). -/
def State.askBack (s : State) (line : Nat) : State :=
  match SMap.get? s.updates line with
  | some u =>
    if u.hold = some false then
      ({ s with updates := SMap.put s.updates line { u with hold := some true } }).sendMsg 192 (u.core - 256) false false (.revoke line)
    else s
  | none => s

/-- Asks for permission to read or write a location that the device lacks; what a word that needs it now waits for. A write
request of a core for a local line that nobody outside keeps is served at once: the core's L1 takes the line in M (R413). -/
def State.request (s : State) (core slot : Nat) (loc : Loc) (write : Bool) : State × Option Wait :=
  let line := loc.gran.map Wait.line
  match loc with
  | .mem pa =>
    let dev := pa / 2 ^ 48
    if dev = s.self then
      if (SMap.get? s.updates (pa / 128)).isSome then (s.askBack (pa / 128), line)
      else if s.recalls.any fun r => r.page = pa % 2 ^ 48 / 4096 then (s, line)
      else if s.hostHolds pa != .i && (write || s.hostHolds pa != .s) then
        let r := (pa % 2 ^ 48 / 64, write)
        (if s.backInv.contains r then s else { s with backInv := s.backInv ++ [r] }, line)
      else if s.busyLine (pa / 128) then (s, line)
      else match s.pageState pa with
        | none => if write && core < 192 then (s.dirWrite core (pa / 128) (some (core * 64 + slot)), none) else (s, line)
        | some p =>
          if write then (s.startRecall (pa % 2 ^ 48 / 4096) p.holders none false, line)
          else match p with
            | .shared _ => (s, line)
            | .lent d =>
              let (s, first) := s.want loc false
              (if first then s.sendMsg core d false true (.read (pa / 128)) else s, line)
    else if s.busyLine (pa / 128) then (s, line)
    else if write && core < 192 && s.writable loc then (s.dirWrite core (pa / 128) (some (core * 64 + slot)), none)
    else if write && s.hubBit (pa / 128) && (SMap.get? s.loans (pa / 4096)).isSome then
      (s.startRecall (2 ^ 40 + pa / 4096) s.others none false, line)
    else
      let (s1, first) := s.want loc write
      if !first then (s, line)
      else
        let s2 := s1.addInterest core dev
        if s2.allowance core dev = 0 then (({ s2 with wanted := s.wanted }).becalm (warpKey core slot) dev, some (.becalmed dev))
        else ((s2.drawAllowance core dev).sendMsg core dev false false
          (if write then .write (pa / 128) else .read (pa / 128)), line)
  | .host _ => ((s.want loc write).1, line)
  | _ => (s, none)

/-! ### Full sets of a directory (R412) -/

/-- The copies of a line outside the device are asked back: the host's sectors, the lines of peers. -/
def State.askOutside (s : State) (line : Nat) : State :=
  if line / 2 ^ 41 != s.self then s.startRecall (2 ^ 40 + line / 32) s.others none false
  else
    let held := [line * 128, line * 128 + 64].filter fun pa => s.hostHolds pa != .i
    let s := held.foldl (fun s pa => (s.request 192 0 (.mem pa) true).1) s
    match s.pageState (line * 128) with
    | some p => s.startRecall (line % 2 ^ 41 / 32) p.holders none false
    | none => s

/-- Somebody outside the device holds the line of a directory entry. -/
def State.keptOutside (s : State) (line : Nat) (d : DirLine) : Bool :=
  s.hostKeeps line || (d.holders.contains 192 && (line / 2 ^ 41 != s.self || (s.pageState (line * 128)).isSome))

/-- The directory drops the entry of a line that nobody outside keeps (R412): its copies here are invalidated, a rollback trigger
(R325). -/
def State.dropEntry (s : State) (line : Nat) : State :=
  let cores := (s.dirLine line).holders.filter (· < 192)
  let s := cores.foldl (fun s c => s.tagLines c [line] L1Tag.left) s
  let hit := s.warps.filter fun e => cores.contains (e.1 / 64)
  (hit.map (·.1)).foldl (fun s key => s.triggerWarp key (.line line)) { s with dir := SMap.del s.dir line }

/-- A new entry of a full set takes the way of the entry whose line has the fewest holders, the lowest way on a tie, once every holder
of that line has given it back (R412). -/
def State.evictWay (s : State) : Option State :=
  match s.dir.find? fun e => 16 ≤ e.2.way with
  | none => none
  | some (line, d) =>
    let set := s.dir.filter fun e => e.2.way < 16 && oneSet e.1 line
    let count := fun (e : Nat × DirLine) => e.2.holders.length + if s.hostKeeps e.1 && !e.2.holders.contains 192 then 1 else 0
    let weight := fun (e : Nat × DirLine) => count e * 16 + e.2.way
    let place := fun (s : State) (way : Nat) => { s with dir := SMap.put s.dir line { d with way := way } }
    match (List.range 16).find? fun k => !set.any fun e => e.2.way = k with
    | some k => some (place s k)
    | none => (set.find? fun e => !set.any fun x => weight x < weight e).map fun e =>
        if s.keptOutside e.1 e.2 then s.askOutside e.1 else place (s.dropEntry e.1) e.2.way

/-! ### Dirty tracking and the write of bytes -/

/-- The dirty bit of R440 for the page of a local address in range `n`: the address of its word and the bit. -/
def State.dirtyBit (s : State) (n pa : Nat) : Option (Nat × Nat) :=
  let map := (s.reg (0x2600 + 16 * n) 0).toNat
  let span := (s.reg (0x2608 + 16 * n) 0).toNat
  let base := span / 2 ^ 30 * 2 ^ 30
  let a := pa % 2 ^ 48
  if map % 2 = 1 ∧ base ≤ a ∧ a < base + span % 2 ^ 16 * 2 ^ 30 then
    let k := (a - base) / 4096
    some (map / 4096 * 4096 + 8 * (k / 64), k % 64)
  else none

/-- The cores whose L1 holds a line. -/
def State.coresWith (s : State) (line : Nat) : List Nat :=
  s.l1.filterMap fun e => if e.1 % 2 ^ 46 = line && (s.tag (e.1 / 2 ^ 46) line).valid then some (e.1 / 2 ^ 46) else none

/-- The part of the L1s and directories in a write: the writer's core takes the line, or nobody keeps it (R413); the host agent keeps
which cores hold a host line (R423). -/
def State.takeLines (s : State) (from_ : Option Nat) (sync : Bool) (gs : List Gran) : State :=
  if sync then s
  else gs.foldl (fun s g => match g, from_ with
    | .line n, some key => s.dirWrite (key / 64) n from_
    | .line n, none => s.dirTake n none
    | .host n, _ =>
      ((s.coresWith (2 ^ 45 + n)).filter fun c => !from_.any fun key => key / 64 = c).foldl
        (fun s c => s.tagLines c [2 ^ 45 + n] L1Tag.taken) s
    | .scratch _ _, _ => s) s

/-- Sets a bit of a 64-bit word of memory, an event of the device (R441): no L1 keeps the word's line, and windows that read it roll
back, but for those of the warp whose write it goes before. -/
def State.setBit (s : State) (b : Nat × Nat) (from_ : Option Nat := none) : State :=
  let loc : Loc := .mem b.1
  let gs := loc.grans 8
  gs.foldl (fun s g => s.trigger from_ g)
    (({ s with mem := Memory.write s.mem b.1 (bytesLE 8 (s.memNat b.1 8 ||| 2 ^ b.2)) } : State).takeLines none false gs)

/-- Sets the dirty bits of the pages that a write of `n` bytes touches (R441). -/
def State.markDirty (s : State) (pa n : Nat) (from_ : Option Nat := none) : State :=
  if n = 0 ∨ pa / 2 ^ 48 ≠ s.self then s
  else
    let pages := (List.range ((pa + n - 1) / 4096 - pa / 4096 + 1)).map fun k => (pa / 4096 + k) * 4096
    ((List.range 4).flatMap fun r => pages.filterMap fun p => s.dirtyBit r p).foldl (fun s b => s.setBit b from_) s

/-- Every byte write to memory passes here, whoever makes it (R78): the dirty bits (R441), the bytes, the line's holders
and the rollback triggers (R325). `from_` is the warp whose store or atomic it is. -/
def State.writeEvent (s : State) (from_ : Option Nat) (loc : Loc) (bs : List Byte) (sync : Bool := false) : State :=
  let s := match loc with
    | .mem pa => s.markDirty pa bs.length from_
    | _ => s
  let gs := loc.grans bs.length
  gs.foldl (fun s g => s.trigger from_ g) ((s.putBytes loc bs).takeLines from_ sync gs)

/-! ### Lines that leave the device -/

/-- A line leaves every L1 of this device, whose read counts of it are lost (R77); windows that read it roll back (R325). -/
def State.dropCopies (s : State) (line : Nat) : State :=
  let d := s.dirLine line
  let cores := (s.coresWith line ++ d.holders).eraseDups
  ((s.invalidate line none cores).setDir line { d with st := .i, holders := [] }).trigger none (.line line)

/-- A line leaves this device, its L1s and its slices. -/
def State.dropLine (s : State) (line : Nat) : State :=
  { s with held := SMap.del s.held line }.dropCopies line

/-- A write of this device to a peer's line leaves for its home: until it has been performed there, no copy of the line is read here
and nothing is asked of the line (R78, R82). -/
def State.sendAway (s : State) (core line : Nat) (o : Option Owner) (m : PeerMsg) : State :=
  let x := Config.encodeMsg m
  let s := { s with away := s.away ++ [line], storesOut := s.storesOut ++ o.toList }
  s.enqueue (line / 2 ^ 41)
    { flit := s.newFlit 1 (line / 2 ^ 41) 0 x.1 x.2, core := core, draw := true, ack := .store o (some line) }

/-- A write of this device to a peer's memory has been performed there, or is lost with its device. -/
def State.performed (s : State) (o : Option Owner) (line : Option Nat) : State :=
  let s := { s with storesOut := o.elim s.storesOut s.storesOut.erase, away := line.elim s.away s.away.erase }
  line.elim s fun n => s.wakeLine (.line n)

/-! ### Lines in service for a store (R415, R417, R418) -/

/-- The host keeps a sector of the line from the device: it is asked for it (R424). -/
def State.hostBlocks (s : State) (line : Nat) (write : Bool) : Option State :=
  match [line * 128, line * 128 + 64].find? fun pa => s.hostHolds pa != .i && (write || s.hostHolds pa != .s) with
  | none => none
  | some pa => some (s.request 192 0 (.mem pa) write).1

/-- The devices that share a page of this device. -/
def State.sharers (s : State) (line : Nat) : List Nat :=
  match s.pageState (line * 128) with
  | some p => p.holders
  | none => []

/-- A cached translation maps the line as part of a sync page (R402). -/
def State.lineSync (s : State) (line : Nat) : Bool :=
  s.tlb.any fun t => leafSync t.leaf && bits t.leaf 10 2 = 0 && bits t.leaf 12 40 * 4096 / 2 ^ t.lgsz = line * 128 / 2 ^ t.lgsz

/-- An update of a sync line has reached every sharer here (R415): a peer's is acknowledged, the word that waits for it goes on, the
result of an atomic that has acted is released. -/
def State.finishUpdate (s : State) (line : Nat) (u : SyncUpd) : State :=
  if !u.owed.isEmpty || u.hold.isSome then s
  else if u.core = 255 then s.endUpdate line
  else if u.core < 256 then (if u.win = 0 then s.wakeLine (.line line) else s)
  else s.sendMsg 192 (u.core - 256) true false (.updateAck line)

/-- An update of a line is accepted (R415): its first phase goes to every sharer, whose read counts are lost (R77) and whose windows
that read the line roll back. -/
def State.acceptUpdate (s : State) (line : Nat) (u : SyncUpd) (devs : List Nat) (from_ : Option Nat) (stores : List (Nat × List Byte)) : State :=
  let s := (s.coresWith line).foldl (fun s c => s.tagLines c [line] L1Tag.updated) s
  let s := { s with updates := SMap.put s.updates line u }
  let s := devs.foldl (fun s d => s.sendMsg 192 d false true (.update line stores)) s
  (s.trigger from_ (.line line)).finishUpdate line u

/-- What an atomic wrote to a sync line is sent to its sharers as an update (R415); the line is in service until they all have it. -/
def State.sendResult (s : State) (line : Nat) (stores : List (Nat × List Byte)) : State :=
  if stores.isEmpty then s
  else
    let u : SyncUpd :=
      { core := 255, slot := 0, win := 0, owed := s.coresWith line ++ (s.sharers line).map (256 + ·), data := [], hold := none }
    s.acceptUpdate line u (s.sharers line) none stores

/-- A warp's update of a sync line starts, with the sharers that owe an acknowledgement; none: the line is not free for it yet. -/
def State.openUpdate (s : State) (core slot win line : Nat) (stores : List (Nat × List Byte)) : State × Option (List Nat) :=
  let home := line / 2 ^ 41
  let go := fun (s : State) (owed devs : List Nat) =>
    (s.acceptUpdate line { core := core, slot := slot, win := win, owed := owed, data := [], hold := none } devs
      (some (core * 64 + slot)) stores, some owed)
  if (SMap.get? s.updates line).isSome then (s.askBack line, none)
  else if s.busyLine line then (s, none)
  else if home = s.self then
    match s.hostBlocks line true with
    | some s => (s, none)
    | none => go s (s.coresWith line ++ (s.sharers line).map (256 + ·)) (s.sharers line)
  else go s [256 + home] [home]

/-- The line of a location. -/
def Loc.lineNo (loc : Loc) : Nat :=
  match loc with
  | .mem pa => pa / 128
  | _ => 0

/-- The update that a word outside any window made of a sync line is acknowledged by every sharer. -/
def State.updated (s : State) (core slot : Nat) (loc : Loc) : Bool :=
  (SMap.get? s.updates loc.lineNo).any fun u =>
    u.core = core && u.slot = slot && u.win = 0 && u.owed.isEmpty && u.hold.isNone

/-- A word outside any window sends its update of a sync line (R415), once; the state, and what the word waits for. -/
def State.sendUpdate (s : State) (core slot : Nat) (loc : Loc) (stores : List (Nat × List Byte)) : State × Option Wait :=
  let mine : Bool := (SMap.get? s.updates loc.lineNo).any fun u => u.core = core && u.slot = slot && u.win = 0 && u.hold.isNone
  let s := if mine then s else (s.openUpdate core slot 0 loc.lineNo stores).1
  (s, if s.updated core slot loc then none else loc.gran.map Wait.line)

/-- The stores of a warp to one line have taken their places: a sync line is released (R415); a page on loan has now been written
(R419); a line that its home slice had accepted is performed there, and leaves this device (R418). -/
def State.endStores (s : State) (core line : Nat) (stores : List (Nat × List Byte)) (sync : Bool) : State :=
  let home := line / 2 ^ 41
  let msg := fun (s : State) => s.sendAway core line none (.commit line stores)
  if sync then (if home = s.self then s else msg s).endUpdate line
  else if home = s.self then s
  else if (SMap.get? s.loans (line / 32)).isSome then
    { s with loans := SMap.put s.loans (line / 32) true, held := SMap.put s.held line .m }
  else
    let s := (s.coresWith line).foldl (fun s c => s.tagLines c [line] L1Tag.left) { msg s with held := SMap.del s.held line }
    s.setDir line { s.dirLine line with st := .i, holders := [] }

/-- Stores of a thread outside a window that take their places now, all of them to one line or to a place of their own. -/
def State.storeNow (s : State) (key : Nat) (stores : List (Loc × List Byte)) (sync : Bool) : State :=
  let s := stores.foldl (fun s e => s.writeEvent (some key) e.1 e.2 sync) s
  match stores with
  | (.mem pa, _) :: _ => s.endStores (key / 64) (pa / 128) (stores.map fun e => (e.1.lineNo * 128 + (match e.1 with | .mem a => a % 128 | _ => 0), e.2)) sync
  | _ => s

end Sys2Proof.Machine
end

