-- ==== Sys2Proof/Machine/Access.lean ====
section
/-! DEFINITION. Accesses by threads (R72 to R80, R181 to R186): addresses and their checks, guard granules, values as
the warp sees them, buffered stores, and the event a store becomes. -/
namespace Sys2Proof.Machine

/-- Space and address of a location, to compare buffered stores with loads. -/
def Loc.flat : Loc → Nat × Nat
  | .mem pa => (0, pa)
  | .host pa => (1, pa)
  | .mmio off => (2, off)
  | .hostMmio pa => (3, pa)
  | .scratch core off => (4 + core, off)

/-- The location `k` bytes further on. -/
def Loc.plus : Loc → Nat → Loc
  | .mem pa, k => .mem (pa + k)
  | .host pa, k => .host (pa + k)
  | .mmio off, k => .mmio (off + k)
  | .hostMmio pa, k => .hostMmio (pa + k)
  | .scratch core off, k => .scratch core (off + k)

/-- The location is a register or a host MMIO address (R184). -/
def Loc.isIo : Loc → Bool
  | .mmio _ | .hostMmio _ => true
  | _ => false

/-- The block of a warp. -/
def State.blockOf (s : State) (w : Warp) : Option Block := SMap.get? s.blocks w.block

/-- The scratchpad size S of a warp's block. -/
def State.padSize (s : State) (w : Warp) : Nat := ((s.blockOf w).map (·.size)).getD 0

/-- Byte `off` of a warp's own scratchpad. -/
def State.padLoc (s : State) (w : Warp) (core off : Nat) : Loc :=
  .scratch core (((s.blockOf w).map (·.base)).getD 0 + off)

/-- The checks of R181 on a global access of `size` bytes at `va`. -/
def State.globalLoc (s : State) (w : Warp) (core : Nat) (acc : Accepts) (k : Access) (size : Nat) (va : DWord) :
    Except Cause Loc :=
  let a := va.toNat
  let base := s.spbase.toNat
  let inAperture := base ≤ a && a < base + 2 ^ 20
  if 2 ^ 57 ≤ a then .error (.protection 0)
  else if inAperture && base + s.padSize w < a + size then .error (.protection 1)
  else if a % size ≠ 0 then .error .misaligned
  else if inAperture then .ok (s.padLoc w core (a - base))
  else s.translate core w.ctx a acc k w.super

/-- The checks of R181 on a scratchpad offset of `LDS`, `STS`, `MLD` and their like (R74, R115). -/
def State.offsetLoc (s : State) (w : Warp) (core : Nat) (size align : Nat) (off : Int) : Except Cause Loc :=
  if off < 0 || (s.padSize w : Int) < off + size then .error (.protection 1)
  else if off.toNat % align ≠ 0 then .error .misaligned
  else .ok (s.padLoc w core off.toNat)

/-- The first lane, ascending, whose check fails, else every lane's location (R181). -/
def collect (f : Fin 32 → Except Cause Loc) : List (Fin 32) → Except (Fin 32 × Cause) (List (Fin 32 × Loc))
  | [] => .ok []
  | l :: ls =>
    match f l with
    | .error c => .error (l, c)
    | .ok loc =>
      match collect f ls with
      | .error e => .error e
      | .ok rest => .ok ((l, loc) :: rest)

/-- The access waits for a line of a page table (R403). -/
def Cause.waits : Cause → Bool
  | .table _ => true
  | _ => false

/-- The trap of a cause (R394, R397). -/
def Cause.trap (c : Cause) (l : Fin 32) (va : DWord) (k : Access) : Trap :=
  match c with
  | .misaligned => { kind := .misaligned, lane := l.val, va := va, akind := k.code }
  | .pageFault => { kind := .pageFault, lane := l.val, va := va, akind := k.code }
  | .protection r => { kind := .protection, lane := l.val, va := va, akind := k.code, reason := r }
  | .poison => { kind := .softError, lane := l.val, va := va, akind := k.code }
  | .table pa => { kind := .pageFault, lane := l.val, va := va, akind := k.code, table := some pa }

/-- The guard granules of an allocation (R189): 64 bytes before and 64 after. -/
def guards (b : Nat × Nat) : List (Nat × Nat) := [(b.1, b.1 + 64), (b.1 + 64 + b.2, b.1 + 128 + b.2)]

/-- The scratchpad offset of an access of `n` bytes that overlaps a guard granule of the core's block (R76). -/
def State.touch (s : State) (w : Warp) (loc : Loc) (n : Nat) : Option Nat :=
  match loc, s.blockOf w with
  | .scratch _ off, some b =>
    let o := off - b.base
    if b.allocs.any fun a => (guards a).any fun g => o < g.2 && g.1 < o + n then some o else none
  | _, _ => none

/-- Byte `k` of a store, where it covers the byte at (space, address). -/
def StoreEv.byteAt (e : StoreEv) (space a : Nat) : Option Byte :=
  let f := e.loc.flat
  if f.1 == space && f.2 ≤ a then e.data[a - f.2]? else none

/-- The bytes of a location with a list of stores laid over them, oldest first (R185). -/
def overlay (stores : List StoreEv) (loc : Loc) (bs : List Byte) : List Byte :=
  let f := loc.flat
  bs.mapIdx fun k b => stores.foldl (fun b e => (e.byteAt f.1 (f.2 + k)).getD b) b

/-- The stores of a warp's uncommitted windows, oldest first. -/
def Warp.buffered (w : Warp) : List StoreEv := w.windows.flatMap (·.stores)

/-- The `n` bytes a thread of the warp loads from a location (R78, R185). -/
def State.loadBytes (s : State) (w : Warp) (loc : Loc) (n : Nat) : List Byte :=
  overlay w.buffered loc (s.bytesAt loc n)

/-- Adds locations to the open window's read set (R321); a steady window keeps none (R332). -/
def Warp.addReads (w : Warp) (gs : List Gran) (pages : List Nat) : Warp :=
  w.mapOpen fun x =>
    if x.steady then x
    else { x with
      reads := x.reads ++ (gs.filter fun g => !x.reads.contains g).eraseDups
      pages := x.pages ++ (pages.filter fun p => !x.pages.contains p).eraseDups }

/-- Records a guard touch: in the open window, or at once for a word outside one (R76). -/
def Warp.recordTouch (w : Warp) (off : Nat) : Warp :=
  let t : GuardTouch := { bank := off / 4 % 32, offset := off, count := 1 }
  match w.openWin with
  | some _ => w.mapOpen fun x => { x with touch := some (x.touch.getD t) }
  | none => { w with guard := match w.guard with
      | none => some t
      | some g => some { g with count := min 255 (g.count + 1) } }

/-- A record of `n` bytes that a word reads from memory, as a number: 0 from a guard granule (R76). -/
def State.recordAt (s : State) (w : Warp) (loc : Loc) (n : Nat) : Nat :=
  if (s.touch w loc n).isSome then 0 else leNat (s.bytesAt loc n)

/-! ### Load words -/

/-- Marks the destination registers in the load scoreboard (R182) and answers the mark's number. -/
def Warp.addLoad (w : Warp) (regs : List Nat) (lanes : LaneSet) (kind : LoadKind) (latency : Nat := 0) : Warp × Nat :=
  let id := w.nextLoad
  let win := w.winNow
  ({ w with loads := w.loads ++ [{ id := id, regs := regs, lanes := lanes, win := win, kind := kind, due := w.clk + latency, lost := [] }]
            nextLoad := id + 1 }, id)

/-- Writes a loaded value of `n` bytes into d and its successors, and shifts it into `y`, where it is there no earlier than R186
allows (R182, R183, R364). -/
def Warp.putLoaded (w : Warp) (d : Near) (n : Nat) (m : LaneSet) (f : Fin 32 → Nat) (id : Nat) : Warp :=
  let r := nearReg d
  let part := fun (k : Nat) (l : Fin 32) => BitVec.ofNat 32 (f l / 2 ^ (32 * k))
  let w := w.setQ r m (part 0) 0
  let w := if 8 ≤ n then w.setQ (r + 1) m (part 1) 0 else w
  let w := if n = 16 then (w.setQ (r + 2) m (part 2) 0).setQ (r + 3) m (part 3) 0 else w
  let lat := (w.loads.find? fun ld => ld.id = id).elim 0 fun ld => ld.due - w.clk
  w.shiftY m (fun l => BitVec.ofNat 64 (f l)) lat (some id)

/-- The registers of a loaded value of `n` bytes. -/
def loadRegs (d : Near) (n : Nat) : List Nat :=
  (List.range (max 1 (n / 4))).map fun k => nearReg d + k

/-- The value lane `l` loads: 0 from a guard granule (R76). -/
def State.laneLoad (s : State) (w : Warp) (n : Nat) (locs : List (Fin 32 × Loc)) (l : Fin 32) : Nat :=
  match locs.find? fun e => e.1 == l with
  | none => 0
  | some (_, loc) => if (s.touch w loc n).isSome then 0 else leNat (s.loadBytes w loc n)

/-- Records the touches of a word's lanes. -/
def State.noteTouches (s : State) (w : Warp) (n : Nat) (locs : List (Fin 32 × Loc)) : Warp :=
  locs.foldl (fun w e => match s.touch w e.2 n with
    | none => w
    | some off => w.recordTouch off) w

/-- The lines a word brings into its core's TLB. -/
def State.cachePages (s : State) (core ctx : Nat) (vas : List Nat) : State :=
  vas.foldl (fun s va => s.cacheLeaf core ctx va) s

/-- The value a lane of a word with a register or host-MMIO lane starts with (R184): a host-MMIO lane's comes with the host's
completion (R91), a guard granule gives 0 (R76). -/
def State.ioValue (read : State → Nat → Nat → DWord) (s : State) (w : Warp) (n : Nat) (locs : List (Fin 32 × Loc))
    (l : Fin 32) : Nat :=
  match locs.find? fun e => e.1 == l with
  | some (_, .mmio off) => (read s off n).toNat
  | some (_, .hostMmio _) => 0
  | some (_, loc) => if (s.touch w loc n).isSome then 0 else leNat (s.bytesAt loc n)
  | none => 0

/-- How a load word takes its addresses: the check of each lane and the virtual address it names. -/
structure Addr where
  loc : State → Warp → Nat → Fin 32 → Except Cause Loc
  va : Fin 32 → DWord

/-- The SYNC attribute of the page that maps an address (R402). -/
def State.isSync (s : State) (core ctx va : Nat) (loc : Loc) : Bool :=
  match loc with
  | .mem _ => match s.leafOf core ctx va with
    | .ok (leaf, _) => leafSync leaf
    | .error _ => false
  | _ => false

/-- The lines of the lanes' locations enter the core's L1 in the state the directory grants (R413, R416). -/
def State.fillLines (s : State) (core ctx : Nat) (ls : List (Nat × Loc)) : State :=
  ls.foldl (fun s e => match e.2 with
    | .mem pa => s.dirRead core (pa / 128) (s.onlyShared (pa / 128) || s.isSync core ctx e.1 e.2)
    | _ => s) s

/-- The structure code of a poisoned line among the locations (R449). -/
def State.poisoned (s : State) (locs : List (Fin 32 × Loc)) : Option Nat :=
  locs.findSome? fun e => match e.2 with
    | .mem pa => SMap.get? s.poison (pa / 128)
    | _ => none

/-- A warp that reads a poisoned line raises `SOFT_ERROR` at its next issue cycle (R449, R400). -/
def Warp.noteError (w : Warp) (code : Option Nat) : Warp :=
  match code with
  | none => w
  | some c => { w with soft := some (w.soft.getD (c, 0)) }

/-- The access of the mark is under way outside the device. -/
def LoadKind.isAway : LoadKind → Bool
  | .remote .. | .hostMmio _ => true
  | _ => false

/-- In a steady window a memory word waits until every earlier access of the warp has been performed (R332). -/
def Warp.steadyBusy (w : Warp) : Bool :=
  match w.openWin with
  | none => false
  | some x => x.steady && (1 < w.windows.length || !x.stores.isEmpty || w.loads.any fun ld => ld.win = x.serial || ld.kind.isAway)

/-- The warp as it waits for a way of a pinned set (R317, R322): the open window closes where one of the warp's own lines pins it. -/
def Warp.closeForWay (w : Warp) (line : Nat) : Warp := if w.pinsSet line then w.closeOpen else w

/-- A word of one memory access (R318): it takes its place in the open window, or opens one; in a steady window it waits until
every earlier access of the warp has been performed (R332). -/
def accessWord (i : Instr) (h : Hdr) (s : State) (k : Warp → Cur → LaneSet → Res) : Res :=
  withWord i h s fun w cur act =>
    match w.inWindow cur.second 1 [] with
    | none => .next (s.holdWord cur w w.wait)
    | some w1 => if w1.steadyBusy then .next (s.holdWord cur w w.wait) else k w1 cur act

/-- The rounds that 32-bit bank conflicts force on a load from the scratchpad: the most distinct words in one of the 32
banks (R76, R186). -/
def bankRounds (n : Nat) (locs : List (Fin 32 × Loc)) : Nat :=
  let words := (locs.flatMap fun e => match e.2 with
    | .scratch _ off => (List.range ((n + 3) / 4)).map (off / 4 + ·)
    | _ => []).eraseDups
  (List.range 32).foldl (fun m b => max m (words.filter fun x => x % 32 = b).length) 0

/-- The least latency of a load (R186): 12 clocks and one for each further round in the scratchpad, 28 where every line is in
the L1, 90 elsewhere. -/
def State.loadLatency (s : State) (core n : Nat) (locs : List (Fin 32 × Loc)) : Nat :=
  let rounds := bankRounds n locs
  let used := locs.flatMap fun e => s.linesUsed e.2 n
  max (if rounds = 0 then 0 else 11 + rounds)
    (if used.isEmpty then 0 else if used.all fun u => (s.tag core u.1).valid && (s.tag core u.1).lacks &&& u.2 = 0 then 28 else 90)

/-- A load word (R182 to R187). `rc` is the read count of an `LDN`, none for the others; `read` reads a device register. -/
def loadWord (read : State → Nat → Nat → DWord) (i : Instr) (h : Hdr) (d : Near) (n : Nat)
    (rc : Warp → Option Nat) (addr : Warp → Addr) (s : State) : Res :=
  withWord i h s fun w cur act =>
    let ad := addr cur.before
    match collect (ad.loc s w cur.core) (LaneSet.list act) with
    | .error (l, c) =>
      match w.inWindow cur.second 1 [] with
      | none => .next (s.holdWord cur w w.wait)
      | some w1 =>
        if w1.steadyBusy then .next (s.holdWord cur w w.wait)
        else trapWord s cur w1 act (c.trap l (ad.va l) .read)
    | .ok locs =>
      let vas := (LaneSet.list act).map fun l => (ad.va l).toNat
      if locs.any fun e => e.2.isIo then
        if !w.atCommit || cur.slotB then .next (s.holdWord cur w.closeOpen (some .commit))
        else match locs.find? (fun e => !s.readable e.2), s.noWay cur.core (lineNos (locs.flatMap fun e => e.2.grans n)) with
          | none, some _ => .next (s.holdWord cur w w.wait)
          | some (_, loc), _ =>
            let (s, why) := s.request cur.core cur.slot loc false
            .next (s.holdWord cur w why)
          | none, none =>
            let hostLanes := locs.filter fun e => match e.2 with | .hostMmio _ => true | _ => false
            let kind := if hostLanes.isEmpty then LoadKind.data else .hostMmio n
            let s1 := ((s.cachePages cur.core w.ctx vas).fillLines cur.core w.ctx
              (locs.map fun e => ((ad.va e.1).toNat, e.2))).useLines cur.core (locs.map (·.2)) n L1Tag.load
            let (w1, id) := ((s.noteTouches w n locs).noteError (s.poisoned locs)).addLoad (loadRegs d n) act kind
            let w1 := w1.putLoaded d n act (s.ioValue read w n locs) id
            let io := hostLanes.map fun e =>
              ({ pa := e.2.flat.2, size := n, store := none, core := cur.core, slot := cur.slot, load := id,
                 lane := e.1.val } : HostIo)
            finish { s1 with hostIo := s.hostIo ++ io } cur (w1.advance cur.pc cur.lanes 0)
      else match w.inWindow cur.second 1 [] with
        | none => .next (s.holdWord cur w w.wait)
        | some w1 =>
          let lines := lineNos (locs.flatMap fun e => e.2.grans n)
          match locs.find? (fun e => !s.readable e.2), s.noWay cur.core lines with
          | some (_, loc), _ =>
            let (s, why) := s.request cur.core cur.slot loc false
            .next (s.holdWord cur w why)
          | none, some line => .next (s.holdWord cur (w.closeForWay line) w.wait)
          | none, none =>
            if w1.steadyBusy then .next (s.holdWord cur w w.wait)
            else
              let gs := locs.flatMap fun e => e.2.grans n
              let s1 := ((s.cachePages cur.core w.ctx vas).fillLines cur.core w.ctx
                (locs.map fun e => ((ad.va e.1).toNat, e.2))).useLines cur.core (locs.map (·.2)) n
                (match rc cur.before with
                  | none => L1Tag.load
                  | some k => fun t => t.loadN k)
              let w2 := (s.noteTouches (w1.addReads gs (vas.map (· / 4096))) n locs).noteError (s.poisoned locs)
              if LaneSet.any act then
                let (w2, id) := w2.addLoad (loadRegs d n) act .data (s.loadLatency cur.core n locs)
                finish s1 cur ((w2.putLoaded d n act (s.laneLoad w1 n locs) id).advance cur.pc cur.lanes 0)
              else finish s1 cur (w2.advance cur.pc cur.lanes 0)

/-! ### Store words -/

/-- A lane's store to host MMIO. -/
def hostStore (cur : Cur) (pa n value : Nat) (l : Fin 32) : HostIo :=
  { pa := pa, size := n, store := some (BitVec.ofNat 64 value), core := cur.core, slot := cur.slot, load := 0, lane := l.val }

/-- What a store word with a lane on a register or host MMIO still has to do, in lane order (R184): each lane's store at its place.
The stores to one line that its home slice holds in service (R415, R418) go together at the last lane's place, before which nobody
reads the line. -/
def laneMoves (cur : Cur) (n : Nat) (data : Fin 32 → Nat) (sync held : Fin 32 → Bool) (all : List (Fin 32 × Loc)) :
    List (Fin 32 × Loc) → List Move
  | [] => []
  | e :: rest =>
    let same := fun (x : Fin 32 × Loc) => x.2.gran == e.2.gran && held x.1
    let put := fun (xs : List (Fin 32 × Loc)) =>
      Move.lane (warpKey cur.core cur.slot) (xs.map fun x => (x.2, bytesLE n (data x.1))) (sync e.1)
    let more := laneMoves cur n data sync held all rest
    match e.2 with
    | .mmio off => .event (.registerWrite off n (BitVec.ofNat 64 (data e.1))) :: more
    | .hostMmio pa => .host (hostStore cur pa n (data e.1) e.1) :: more
    | _ => if !held e.1 then put [e] :: more else if rest.any same then more else put (all.filter same) :: more

/-- Those moves up to the first register write act in this step, that write and the ones behind it in the steps that follow at
once. -/
def State.runLanes : List Move → State → State
  | [], s => s
  | m :: rest, s =>
    match m with
    | .lane key stores sync => State.runLanes rest (s.storeNow key stores sync)
    | .host io => State.runLanes rest { s with hostIo := s.hostIo ++ [io] }
    | _ => { s with agenda := m :: rest ++ s.agenda }

/-- The locations of a list that a core cannot write now are asked for; the device toward which the warp is becalmed. -/
def State.askStores (core slot : Nat) : List Loc → State → State × Option Nat
  | [], s => (s, none)
  | loc :: rest, s =>
    if s.coreWritable core loc then State.askStores core slot rest s
    else match s.request core slot loc true with
      | (s, some (.becalmed dev)) => (s, some dev)
      | (s, _) => State.askStores core slot rest s

/-- A store word (R182 to R186): `data` gives each lane's bytes. With a lane on a register or host MMIO the word acts at its commit
point, once every other lane may write (R91, R184), and never in slot B (R13); else its stores are buffered, and the lines they need are asked for. -/
def storeWord (i : Instr) (h : Hdr) (n : Nat) (addr : Warp → Addr) (data : Warp → Fin 32 → Nat) (s : State) : Res :=
  withWord i h s fun w cur act =>
    let ad := addr cur.before
    match collect (ad.loc s w cur.core) (LaneSet.list act) with
    | .error (l, c) =>
      match w.inWindow cur.second 1 [] with
      | none => .next (s.holdWord cur w w.wait)
      | some w1 =>
        if w1.steadyBusy then .next (s.holdWord cur w w.wait)
        else trapWord s cur w1 act (c.trap l (ad.va l) .write)
    | .ok locs =>
      let vas := (LaneSet.list act).map fun l => (ad.va l).toNat
      let bytes := fun (l : Fin 32) => bytesLE n (data cur.before l)
      let acting := locs.filter fun e => (s.touch w e.2 n).isNone
      let sync := fun (l : Fin 32) => acting.any fun e => e.1 == l && s.isSync cur.core w.ctx (ad.va l).toNat e.2
      if locs.any fun e => e.2.isIo then
        if !w.atCommit || cur.slotB then .next (s.holdWord cur w.closeOpen (some .commit))
        else if (s.noWay cur.core (lineNos (acting.flatMap fun e => e.2.grans n))).isSome then .next (s.holdWord cur w w.wait)
        else
          let plain := acting.filter fun e => !e.2.isIo
          match State.askStores cur.core cur.slot ((plain.filter fun e => !sync e.1).map (·.2)) s with
          | (s, some dev) => .next (s.holdWord cur w (some (.becalmed dev)))
          | (s, none) =>
            match plain.find? fun e => if sync e.1 then !s.updated cur.core cur.slot e.2 else !s.coreWritable cur.core e.2 with
            | some (l, loc) =>
              let (s, why) := if sync l then s.sendUpdate cur.core cur.slot loc
                  ((plain.filter fun e => sync e.1 && e.2.gran == loc.gran).map fun e => (e.2.flat.2, bytes e.1))
                else (s, loc.gran.map Wait.line)
              .next (s.holdWord cur w why)
            | none =>
              let s := (s.cachePages cur.core w.ctx vas).useLines cur.core (acting.map (·.2)) n L1Tag.store
              let s := s.setWarp cur.core cur.slot ((s.noteTouches w n locs).advance cur.pc cur.lanes 0)
              let held := fun (l : Fin 32) => acting.any fun e => e.1 == l && (sync l || match e.2 with
                | .mem pa => pa / 2 ^ 48 != s.self && (SMap.get? s.loans (pa / 4096)).isNone
                | _ => false)
              .next (State.runLanes (laneMoves cur n (data cur.before) sync held acting acting) s)
      else match w.inWindow cur.second 1 [], s.noWay cur.core (lineNos (locs.flatMap fun e => e.2.grans n)) with
        | none, _ => .next (s.holdWord cur w w.wait)
        | some _, some line => .next (s.holdWord cur (w.closeForWay line) w.wait)
        | some w1, none =>
          if w1.steadyBusy then .next (s.holdWord cur w w.wait)
          else
            let stores := acting.map fun e =>
              ({ loc := e.2, data := bytes e.1, va := (ad.va e.1).toNat, sync := sync e.1 } : StoreEv)
            let w2 := (s.noteTouches w1 n locs).mapOpen fun x => { x with stores := x.stores ++ stores }
            let s1 := (s.cachePages cur.core w.ctx vas).useLines cur.core (locs.map (·.2)) n L1Tag.store
            match State.askStores cur.core cur.slot ((acting.filter fun e => !sync e.1).map (·.2)) s1 with
            | (s2, some dev) => .next (s2.holdWord cur w (some (.becalmed dev)))
            | (s2, none) => finish s2 cur (w2.advance cur.pc cur.lanes 0)

/-- The global addresses of R115: base + sext(offset, 6) × size modulo 2^64. -/
def globalAddr (base : Near) (off : BitVec 6) (n : Nat) (acc : Accepts) (k : Access) (before : Warp) : Addr :=
  let va := fun (l : Fin 32) => before.read64 base l + BitVec.ofInt 64 (off.toInt * n)
  { loc := fun s w core l => s.globalLoc w core acc k n (va l), va := va }

/-- The scratchpad offsets of R115: base + sext(offset, 6) × size, without wrap. -/
def padAddr (base : Near) (off : BitVec 6) (n : Nat) (before : Warp) : Addr :=
  let o := fun (l : Fin 32) => ((before.read32 .int base l).toNat : Int) + off.toInt * n
  { loc := fun s w core l => s.offsetLoc w core n n (o l), va := fun l => BitVec.ofInt 64 (o l) }

end Sys2Proof.Machine
end

