-- ==== Sys2Proof/Machine/EngineFaults.lean ====
section
/-! DEFINITION. Outstanding faults of engines and of the scheduler: numbering, the fault ring, and which of them a
warp's handler takes (R405 to R407, R452). What a resolution does to what was suspended is in `Resolve.lean`. -/
namespace Sys2Proof.Machine

/-- The cause field of a fault record for a cause of R181 (R405). -/
def Cause.code : Cause → Nat
  | .pageFault => 0
  | _ => 1

/-- A 32-byte fault record (R405). -/
def EFault.record (f : EFault) (fid : Nat) : List Byte :=
  bytesLE 32 (fid % 2 ^ 16 + f.kind % 4 * 2 ^ 126 + f.cause % 8 * 2 ^ 128 + f.queue % 8 * 2 ^ 131 + f.slot % 64 * 2 ^ 134 +
    f.core % 256 * 2 ^ 140 + f.ctx % 4096 * 2 ^ 148 + f.elem % 2 ^ 32 * 2 ^ 160 + f.va.toNat * 2 ^ 192)

/-- The slot of the warp whose handler may take the fault (R406): the warp that issued the suspended entry, or that declared the object of
a suspended line. -/
def State.faultSlot (s : State) (f : EFault) : Option (Nat × Nat) :=
  match f.what with
  | .entry n => match SMap.get? s.entries n with
    | none => none
    | some e => if e.bound then some (e.core, e.slot) else none
  | _ => if f.core < 192 && (s.warp f.core f.slot).any (fun w => some w.block == f.block) then some (f.core, f.slot) else none

/-- The warp whose handler may take the fault (R406), live, resident, in user mode. -/
def State.faultWarp (s : State) (f : EFault) : Option Warp :=
  ((s.faultSlot f).bind fun x => s.warp x.1 x.2).filter fun w => !w.super && w.halt.isNone

/-- Room in a ring of 2^lgsz entries whose counts stand in two registers (R405, R450). -/
def State.ringRoom (s : State) (tailAt headAt cfgAt : Nat) : Bool :=
  let lg := max 4 (min 12 ((s.reg cfgAt 8).toNat % 16))
  ((s.reg tailAt 0).toNat + 2 ^ 32 - (s.reg headAt 0).toNat % 2 ^ 32) % 2 ^ 32 < 2 ^ lg

/-- Writes a 32-byte record into a ring and counts it, with its interrupt (R405, R450). -/
def State.ringWrite (s : State) (baseAt cfgAt tailAt vector : Nat) (bs : List Byte) : State :=
  let cfg := (s.reg cfgAt 8).toNat
  let lg := max 4 (min 12 (cfg % 16))
  let tail := (s.reg tailAt 0).toNat
  let pa := (s.reg baseAt 0).toNat / 4096 * 4096 + 32 * (tail % 2 ^ lg)
  let s := s.writeEvent none (.mem pa) bs
  let s := { s with mmio := SMap.put s.mmio tailAt (BitVec.ofNat 64 ((tail + 1) % 2 ^ 32)) }
  if cfg / 2 ^ 30 % 2 = 1 then s.interrupt vector else s

/-- Reports the faults that can be reported now, in the order in which they arose (R405, R407): a ring record while the
ring is on and has room, else the handler of a live warp; the rest stay counted in `EF_PEND`. -/
def State.pumpFaults (s : State) : List (Nat × EFault) → State
  | [] => s
  | (fid, f) :: rest =>
    if f.recorded || f.entered then s.pumpFaults rest
    else if (s.reg 0x2208 8).getLsbD 31 then
      if f.handler && (s.faultWarp f).isSome then s.pumpFaults rest else
      if s.ringRoom 0x2210 0x2214 0x2208 then
        let s := s.ringWrite 0x2200 0x2208 0x2210 3 (f.record fid)
        State.pumpFaults { s with efaults := s.efaults.map fun e => if e.1 = fid then (fid, { e.2 with recorded := true }) else e } rest
      else s
    else
      State.pumpFaults { s with efaults := s.efaults.map fun e =>
        if e.1 = fid then (fid, { e.2 with handler := (s.faultWarp f).isSome }) else e } rest

/-- Reports what can be reported; at most 4,096 faults are outstanding, later ones wait (R405). -/
def State.reportFaults (s : State) : State := s.pumpFaults (s.efaults.take 4096)

/-- A new outstanding fault, numbered modulo 65,536 (R405). -/
def State.newFault (s : State) (f : EFault) : State × Nat :=
  let fid := s.nextFid
  (State.reportFaults { s with efaults := s.efaults ++ [(fid, f)], nextFid := (fid + 1) % 65536 }, fid)

/-- The fault of an access that failed with a cause. -/
def faultOf (c : Cause) (va elem ctx core slot queue kind : Nat) (what : Suspended) : EFault :=
  { va := BitVec.ofNat 64 va, elem := elem, ctx := ctx, core := core, slot := slot, queue := queue, cause := c.code,
    kind := kind, recorded := false, handler := false, entered := false, what := what }

/-- The TLB that the hub die's own accesses use: the model's number for it. -/
def hubUnit : Nat := 1000

/-- Location of a scheduler access (R452): supervisor rights, never MMIO. -/
def State.schedLoc (s : State) (ctx va : Nat) (k : Access) : Except Cause Loc :=
  s.translate hubUnit ctx va { mmio := false, host := true } k true

/-- What a read by a unit of the device gives: the value, or the state in which a line it lacks has been asked for. -/
inductive Fetched where
  | value (x : Nat)
  | wait (s : State)

/-- A read of `n` bytes by the scheduler. A remote or host line that the device does not hold is asked for first. -/
def State.schedRead (s : State) (ctx va n : Nat) : Except Cause Fetched :=
  match s.schedLoc ctx va .read with
  | .error (.table pa) => .ok (.wait (s.request 205 0 (.mem pa) false).1)
  | .error c => .error c
  | .ok loc =>
    let chunks := (List.range ((n + 63) / 64)).map fun k => loc.plus (64 * k)
    match chunks.find? fun l => !s.readable l with
    | some l => .ok (.wait (s.request 205 0 l false).1)
    | none => .ok (.value (leNat (s.bytesAt loc n)))

/-- Adds 1 to a 32-bit word at a location, one atomic event. -/
def State.addOne (s : State) (loc : Loc) : State :=
  s.writeEvent none loc (bytesLE 4 (leNat (s.bytesAt loc 4) + 1))

/-! ### Writes of the device's own units -/

/-- A write of a unit of the device, or of a peer, that acts here: on a line of a sync page, which the writer may know it for, it is
then sent to the sharers as an update (R415); a page on loan has been written (R419). -/
def State.unitWrite (s : State) (loc : Loc) (bs : List Byte) (sync : Bool := false) : State :=
  match loc with
  | .mem pa =>
    let line := pa / 128
    if (sync || s.lineSync line) && line / 2 ^ 41 = s.self then
      (lineNos (loc.grans bs.length)).foldl (fun s n =>
        let from_ := n * 128 - pa
        let part := (bs.drop from_).take (128 - (pa - n * 128))
        let at_ := max pa (n * 128)
        (s.writeEvent none (.mem at_) part true).sendResult n [(at_, part)]) s
    else
      let s := s.writeEvent none loc bs
      if line / 2 ^ 41 = s.self || (SMap.get? s.loans (line / 32)).isNone then s
      else { s with loans := SMap.put s.loans (line / 32) true, held := SMap.put s.held line .m }
  | _ => s.writeEvent none loc bs

/-- A store by a unit of the device, drawn from a core's allowance (192: the collective engine's): at once where this device has
duty for the line, as a message to the home device elsewhere, which is performed once its flit is acknowledged (R341). -/
def State.devStore (s : State) (core : Nat) (o : Owner) (loc : Loc) (bs : List Byte) : State :=
  match loc with
  | .mem pa => if s.hasDuty (pa / 128) then s.unitWrite loc bs
    else (s.dropLine (pa / 128)).sendAway core (pa / 128) (some o) (.store pa bs (s.lineSync (pa / 128)))
  | _ => s.unitWrite loc bs

/-- Every store that the device made for an owner has been performed. -/
def State.stored (s : State) (o : Owner) : Bool := !s.storesOut.contains o

/-- Adds 1 to a 32-bit counter, one atomic event at the counter's home. -/
def State.devAddOne (s : State) (loc : Loc) : State :=
  match loc with
  | .mem pa =>
    if s.hasDuty (pa / 128) then s.unitWrite loc (bytesLE 4 (leNat (s.bytesAt loc 4) + 1))
    else (s.dropLine (pa / 128)).sendAway 192 (pa / 128) none
      (.atomic 4 [{ lane := 0, va := 0, loc := loc, code := 46, m := 0, x := 1, y := 0 }] 192 0 0 (s.lineSync (pa / 128)))
  | _ => s.addOne loc

/-- The unit may write the location now: a line for which this device has duty needs its line and page here; a peer's home performs it
elsewhere, once an earlier write of this device to the line has been performed (R82). -/
def State.devWritable (s : State) (loc : Loc) : Bool :=
  match loc with
  | .mem pa => if s.hasDuty (pa / 128) then s.writable loc else !s.busyLine (pa / 128)
  | _ => s.writable loc

/-! ### Soft errors (R449, R450) -/

/-- A detected soft error is counted and logged: a record while the ring is on and has room, else `SE_LOST`; an
uncorrected one triggers a snapshot (R437). Events are numbered from 1. -/
def State.logSoft (s : State) (e : SoftError) : State :=
  let s := s.countLife ((if e.corrected then 72 else 88) + (e.struct - 1) % 16)
  let tail := (s.reg 0x2810 0).toNat
  let lost := (s.reg 0x2818 0).toNat
  let record := bytesLE 32 ((tail + lost + 1) % 2 ^ 32 + e.action % 8 * 2 ^ 159 + (if e.corrected then 2 ^ 162 else 0) +
    e.struct % 32 * 2 ^ 163 + e.unit % 4096 * 2 ^ 168 + e.ctx % 4096 * 2 ^ 180 + e.pa.toNat * 2 ^ 192)
  let s := if (s.reg 0x2808 8).getLsbD 31 && s.ringRoom 0x2810 0x2814 0x2808 then
      s.ringWrite 0x2800 0x2808 0x2810 6 record
    else { s with mmio := SMap.put s.mmio 0x2818 (BitVec.ofNat 64 ((lost + 1) % 2 ^ 32)) }
  if e.corrected then s else s.snapTrigger 2 0 0

end Sys2Proof.Machine
end

