-- ==== Sys2Proof/Machine/Launch.lean ====
section
/-! DEFINITION. Launches (R377 to R386, R452): the record and its refusals, queues, startability, placement of blocks and
the warps they begin with (R10, R17, R21 to R24), completion, and the budget a core returns (R390). -/
namespace Sys2Proof.Machine

/-! ### Records (R377) -/

/-- A field of a record. -/
def Launch.f (l : Launch) (lo w : Nat) : Nat := bits l.record.toNat lo w

/-- Warps per block. -/
def Launch.warps (l : Launch) : Nat := l.f 832 7
/-- Blocks. -/
def Launch.nblocks (l : Launch) : Nat := l.f 736 32
/-- Scratchpad bytes per block. -/
def Launch.scratch (l : Launch) : Nat := l.f 768 32
/-- Launch level. -/
def Launch.level (l : Launch) : Nat := l.f 839 3
/-- Devices that may hold blocks; 0 means the submitting device only. -/
def Launch.devices (l : Launch) (self : Nat) : Nat := if l.f 896 16 = 0 then 2 ^ self else l.f 896 16

/-- Misaligned or out-of-range fields, or reserved bits set: refusal 16 (R379). -/
def Launch.badField (l : Launch) : Bool :=
  l.va.toNat % 128 != 0 || l.f 912 112 != 0 || l.f 858 6 != 0 || 4 < l.f 864 4 || 16 < l.f 868 8 || 64 < l.f 876 8 ||
    l.level < 2 || 6 < l.level || l.warps = 0 || 64 < l.warps || l.scratch < l.f 800 32 || l.scratch % 64 != 0 ||
    655360 < l.scratch || l.nblocks = 0 || 2 ^ 24 < l.nblocks || (l.level = 2 && l.nblocks != 1) ||
    l.f 704 32 % 16 != 0 || l.f 640 64 % 16 != 0 || (l.f 704 32 = 0 && l.f 640 64 != 0) || l.f 576 64 % 2 != 0 ||
    l.f 512 64 % 4 != 0 || l.f 384 64 % 4 != 0 || l.f 320 64 % 4 != 0 || l.f 256 64 % 4 != 0 ||
    l.f 128 64 % 4096 != 0 || l.f 64 64 % 4096 != 0

/-- The number of the group of a level that holds core `c` (R7, R8). -/
def groupOf (level c : Nat) : Nat :=
  if level = 2 then c else if level = 3 then c / 4 else if level = 4 then c / 16 else 0

/-- The scratchpad bytes a core offers now; what a pending change takes away is not offered (R388). -/
def Core.padBytes (c : Core) : Nat := 65536 * min c.ways (c.newWays.getD c.ways)

/-- Blocks of the launch that an empty core holds under its current carve-out (R384, R385): slots, scratchpad, cap. -/
def State.coreCap (s : State) (l : Launch) (c : Nat) : Nat :=
  let slots := 4 / max 1 ((l.warps + 15) / 16)
  let pad := if l.scratch = 0 then slots else 65536 * (s.core c).ways / l.scratch
  let k := min slots pad
  if l.f 864 4 = 0 then k else min k (l.f 864 4)

/-- A capped sum: cap 0 means no limit. -/
def capped (cap n : Nat) : Nat := if cap = 0 then n else min cap n

/-- Blocks of the launch that an empty slice group holds. -/
def State.sliceCap (s : State) (l : Launch) (g : Nat) : Nat :=
  capped (l.f 868 8) ((List.range 4).foldl (fun n j => n + s.coreCap l (4 * g + j)) 0)

/-- Blocks of the launch that an empty stack group holds. -/
def State.stackCap (s : State) (l : Launch) (g : Nat) : Nat :=
  capped (l.f 876 8) ((List.range 4).foldl (fun n j => n + s.sliceCap l (4 * g + j)) 0)

/-- Blocks of the launch that this device holds when empty. -/
def State.deviceCap (s : State) (l : Launch) : Nat :=
  capped (l.f 884 12) ((List.range 12).foldl (fun n g => n + s.stackCap l g) 0)

/-- Device and core of block `b`'s placement entry, none where the scheduler chooses. -/
def Launch.entryOf (l : Launch) (b : Nat) : Option (Nat × Nat) :=
  match l.places[b]? with
  | none => none
  | some e => if e = 0xFFFF then none else some (e / 4096, e % 256)

/-- A placement entry with reserved bits set: refusal 16 (R377, R379). -/
def Launch.badEntry (l : Launch) : Bool := l.places.any fun e => e != 0xFFFF && bits e 8 4 != 0

/-- A placement entry outside the launch's devices or cores, entries in different groups, or too many on a core:
refusal 19 (R379). -/
def State.badPlacement (s : State) (l : Launch) : Bool :=
  let es := (List.range l.places.length).filterMap l.entryOf
  es.any (fun e => bits (l.devices s.self) e.1 1 = 0 || 191 < e.2 ||
    (l.f 864 4 != 0 && l.f 864 4 < (es.filter fun x => x == e).length)) ||
  match es with
  | [] => false
  | e :: rest => l.level < 6 && rest.any fun x => x.1 != e.1 || groupOf l.level x.2 != groupOf l.level e.2

/-- The highest declared barrier level, 0 for none of 3 to 6 (R385). -/
def Launch.gangLevel (l : Launch) : Nat :=
  [6, 5, 4, 3].find? (fun k => bits (l.f 842 6) (k - 1) 1 = 1) |>.getD 0

/-- The blocks that share a group at the gang level need the whole launch there. -/
def Launch.isGang (l : Launch) : Bool := l.gangLevel != 0 || l.f 856 1 = 1

/-- The launch forms one gang: a cohort, or one whose group is no larger than those of its gang level (R385, R386). -/
def Launch.isWhole (l : Launch) : Bool := l.f 856 1 = 1 || (l.gangLevel != 0 && l.level ≤ l.gangLevel)

/-- The group of the gang level that holds a core of a device. -/
def Launch.gangKey (l : Launch) (x : Nat × Nat) : Nat × Nat := (x.1, groupOf l.gangLevel x.2)

/-- Blocks of the launch that an empty group of a level on this device holds. -/
def State.capAt (s : State) (l : Launch) (level g : Nat) : Nat :=
  if level = 3 then s.sliceCap l g else if level = 4 then s.stackCap l g else s.deviceCap l

/-- What the placement entries force onto this device's cores, and into its groups up to a level, fits there (R385). -/
def State.forcedFits (s : State) (l : Launch) (level : Nat) : Bool :=
  let here := ((List.range l.places.length).filterMap l.entryOf).filterMap fun e => if e.1 = s.self then some e.2 else none
  let within := fun (size : Nat) (cap : Nat → Nat) => here.all fun c => (here.filter fun x => x / size = c / size).length ≤ cap (c / size)
  within 1 (s.coreCap l) && (level < 3 || within 4 (s.sliceCap l)) && (level < 4 || within 16 (s.stackCap l)) &&
    (level < 5 || here.length ≤ s.deviceCap l)

/-- Blocks of the launch that group `g` of a level holds when it is empty, under the caps of the groups around it. -/
def State.groupCap (s : State) (l : Launch) (level g : Nat) : Nat :=
  let inStack := if level = 2 then s.coreCap l g else if level = 3 then s.sliceCap l g else s.stackCap l g
  if 5 ≤ level then s.deviceCap l else capped (l.f 884 12) (if level < 4 then capped (l.f 876 8) inStack else inStack)

/-- The whole launch fits one empty group of a level, in which its placement entries lie (R385, R386). -/
def State.wholeFits (s : State) (l : Launch) (level : Nat) : Bool :=
  let es := (List.range l.places.length).filterMap l.entryOf
  let groups := if level = 2 then 192 else if level = 3 then 48 else if level = 4 then 12 else 1
  s.forcedFits l level &&
    if 6 ≤ level then l.nblocks ≤ s.deviceCap l * ((List.range 16).filter fun d => bits (l.devices s.self) d 1 = 1).length
    else (List.range groups).any fun g =>
      (es.all fun e => some e.1 == es.head?.map (·.1) && groupOf level e.2 = g) && l.nblocks ≤ s.groupCap l level g

/-- The first refusal that applies, in the order of R379. `host` says that a host queue names the record. -/
def State.refusal (s : State) (l : Launch) (host : Bool) : Option Nat :=
  let absent := (List.range 16).any fun d => bits (l.devices s.self) d 1 = 1 && !s.present.getLsbD d
  let wrongQueue := if host then 48 ≤ l.f 850 6 else l.f 850 6 < 48
  if l.badField || l.badEntry || (s.tableEntry l.ctx) % 2 = 0 then some 16
  else if absent then some 20
  else if wrongQueue then some 21
  else if s.badPlacement l then some 19
  else if (List.range 192).all fun c => s.coreCap l c = 0 then some 22
  else if l.f 856 1 = 1 && !s.wholeFits l (min 4 l.level) then some 18
  else if l.gangLevel != 0 && ((l.level ≤ l.gangLevel && !s.wholeFits l l.level) || !s.forcedFits l (min l.gangLevel l.level)) then some 17
  else none

/-! ### Writes a launch still owes (R379, R452) -/

/-- Performs the writes a launch owes in order, until one faults, must wait for its line, or is still on its way to a peer's memory. -/
def State.pumpWrites (s : State) (lid : Nat) : Nat → State
  | 0 => s
  | fuel + 1 =>
    match SMap.get? s.launches lid with
    | none => s
    | some l =>
      match l.writes, l.owedFault with
      | w :: rest, none =>
        if !s.stored (.launch lid) then s else
        let (va, kind) := match w with
          | .status _ => (l.va.toNat, Access.write)
          | .counter va => (va.toNat, Access.rmw)
        match s.schedLoc l.ctx va kind with
        | .error (.table pa) => (s.request 205 0 (.mem pa) false).1
        | .error c =>
          let (s, fid) := s.newFault (faultOf c va l.queue l.ctx 205 0 0 1 (.write lid))
          { s with launches := SMap.put s.launches lid { l with owedFault := some fid } }
        | .ok loc =>
          if !s.devWritable loc then (s.request 205 0 loc true).1
          else
          let s := match w with
            | .status x => s.devStore 192 (.launch lid) loc (bytesLE 4 x)
            | .counter _ => s.devAddOne loc
          State.pumpWrites { s with launches := SMap.put s.launches lid { l with writes := rest } } lid fuel
      | _, _ => s

/-- A launch owes further writes; those that can be made are made at once. -/
def State.owe (s : State) (lid : Nat) (ws : List SchedWrite) : State :=
  match SMap.get? s.launches lid with
  | none => s
  | some l =>
    let l := { l with writes := l.writes ++ ws }
    State.pumpWrites { s with launches := SMap.put s.launches lid l } lid (l.writes.length + 1)

/-- Status, then the addition to the completion counter where the record names one (R379). -/
def Launch.ending (l : Launch) (status : Nat) : List SchedWrite :=
  .status status :: if l.f 256 64 = 0 then [] else [.counter (BitVec.ofNat 64 (l.f 256 64))]

/-- A launch that is refused: it starts no thread and only owes its writes. -/
def State.refuse (s : State) (lid : Nat) (status : Nat) : State :=
  match SMap.get? s.launches lid with
  | none => s
  | some l => ({ s with launches := SMap.put s.launches lid { l with complete := true } } : State).owe lid (l.ending status)

/-! ### Queues (R380 to R382) -/

/-- A launch as read from a record. -/
def newLaunch (va : DWord) (record ctx queue : Nat) : Launch :=
  { va := va, record := BitVec.ofNat 1024 record, ctx := ctx, queue := queue, startable := false, started := false,
    placed := [], remotePlaced := [], ended := [], remoteTriggered := [], home := none, places := [], tcounted := false, writes := [], owedFault := none,
    complete := false }

/-- The context of a host queue (R392). -/
def State.queueCtx (s : State) (q : Nat) : Nat := (s.reg (32 * q + 0x18) 0).toNat % 4096

/-- A read for a queue's head failed: a scheduler fault holds the head (R452). `what`: 0 entry, 1 record, 2 placement. -/
def State.holdQueue (s : State) (q : Nat) (c : Cause) (ctx va what : Nat)
    (record : Option (DWord × Nat × BitVec 1024) := none) : State :=
  let (s, fid) := s.newFault (faultOf c va q ctx 205 0 0 0 (.queue q what))
  s.setQueue q { s.queue q with hold := some { fid := fid, what := what, record := record } }

/-- The address of the ring entry at a host queue's head (R380). -/
def State.headEntry (s : State) (q : Nat) : Nat :=
  let lg := max 4 (min 15 ((s.reg (32 * q + 8) 8).toNat % 16))
  (s.reg (32 * q) 0).toNat / 4096 * 4096 + 8 * ((s.queue q).head.toNat % 2 ^ lg)

/-- Reads a placement table from block `b` on, 2 bytes a block, `k` blocks; why it fails, and at which address. -/
def State.readPlaces (s : State) (l : Launch) : Nat → Nat → List Nat → Except (Cause × Nat) (State ⊕ List Nat)
  | 0, _, acc => .ok (.inr acc)
  | k + 1, b, acc =>
    match s.schedRead l.ctx (l.f 576 64 + 2 * b) 2 with
    | .error c => .error (c, l.f 576 64 + 2 * b)
    | .ok (.wait s) => .ok (.inl s)
    | .ok (.value x) => s.readPlaces l k (b + 1) (acc ++ [x])

/-- The head entry is taken: it is counted, and a device queue drops its record. -/
def State.takeHead (s : State) (q : Nat) : State :=
  let x := s.queue q
  s.setQueue q { x with head := x.head + 1, records := if 48 ≤ q then x.records.drop 1 else x.records }

/-- A record is read and checked: refused at once, or the queue's current launch. -/
def State.examine (s : State) (q : Nat) (va : DWord) (record ctx : Nat) (places : List Nat) : State :=
  let l := { newLaunch va record ctx q with places := places }
  let lid := SMap.fresh s.launches
  let s := { s with launches := SMap.put s.launches lid l }
  match s.refusal l (q < 48) with
  | some code => (s.takeHead q).refuse lid code
  | none => s.setQueue q { s.queue q with current := some lid }

/-- Reads the placement table of a head's record and examines the launch (R381). -/
def State.placeRecord (s : State) (q : Nat) (va : DWord) (record ctx : Nat) : State :=
  let l := newLaunch va record ctx q
  if l.badField || l.f 576 64 = 0 then s.examine q va record ctx []
  else match s.readPlaces l l.nblocks 0 [] with
    | .error (c, a) => s.holdQueue q c ctx a 2 (some (va, ctx, BitVec.ofNat 1024 record))
    | .ok (.inl s) => s
    | .ok (.inr ps) => s.examine q va record ctx ps

/-- Reads the record at an address for a queue's head (R381). -/
def State.readRecord (s : State) (q : Nat) (va : DWord) (ctx : Nat) : State :=
  match s.schedRead ctx va.toNat 128 with
  | .error c => s.holdQueue q c ctx va.toNat 1
  | .ok (.wait s) => s
  | .ok (.value record) => s.placeRecord q va record ctx

/-- Reads the head's entry and record (R381): a host queue's ring entry names it, a device queue holds the record as it
was when it was submitted. -/
def State.readHead (s : State) (q : Nat) : State :=
  if 48 ≤ q then
    match (s.queue q).records with
    | [] => s
    | (va, ctx, record) :: _ => s.placeRecord q va record.toNat ctx
  else match s.schedRead (s.queueCtx q) (s.headEntry q) 8 with
    | .error c => s.holdQueue q c (s.queueCtx q) (s.headEntry q) 0
    | .ok (.wait s) => s
    | .ok (.value va) => s.readRecord q (BitVec.ofNat 64 va) (s.queueCtx q)

/-- A wait counter has reached its threshold, unsigned (R383); one that is not used counts as met. -/
def State.waitMet (s : State) (l : Launch) (va thr : Nat) : Except Cause (State ⊕ Bool) :=
  if va = 0 then .ok (.inr true)
  else match s.schedRead l.ctx va 4 with
    | .error c => .error c
    | .ok (.wait s) => .ok (.inl s)
    | .ok (.value x) => .ok (.inr (thr ≤ x))

/-- The read of a wait counter faults: the fault is outstanding, and the launch waits for it (R452). -/
def State.counterFault (s : State) (lid : Nat) (l : Launch) (c : Cause) (va which : Nat) : State :=
  let (s, fid) := s.newFault (faultOf c va l.queue l.ctx 205 0 0 0 (.counter lid which))
  { s with launches := SMap.put s.launches lid { l with owedFault := some fid } }

/-- The counters of the queue's current launch are read again (R383); when both are met it may start, and its context
entry is read from the table (R392). -/
def State.tryStart (s : State) (lid : Nat) (l : Launch) : Option State :=
  match s.waitMet l (l.f 384 64) (l.f 448 32) with
  | .error c => some (s.counterFault lid l c (l.f 384 64) 0)
  | .ok (.inl s) => some s
  | .ok (.inr false) => none
  | .ok (.inr true) =>
    match s.waitMet l (l.f 512 64) (l.f 480 32) with
    | .error c => some (s.counterFault lid l c (l.f 512 64) 1)
    | .ok (.inl s) => some s
    | .ok (.inr false) => none
    | .ok (.inr true) =>
      some { s with
        launches := SMap.put s.launches lid { l with startable := true }
        ctxs := SMap.put s.ctxs l.ctx (BitVec.ofNat 512 (s.tableEntry l.ctx)) }

/-- A context whose abort stands (R453): its records wait, and no block of it is placed. -/
def State.aborted (s : State) (ctx : Nat) : Bool := s.aborts.contains ctx

/-- The context of the record at a queue's head: the queue's own, or that of the warp that entered it (R392). -/
def State.headCtx (s : State) (q : Nat) : Nat :=
  if 48 ≤ q then ((s.queue q).records.head?).elim 0 fun r => r.2.1 else s.queueCtx q

/-- `LAUNCH_START` (R383): the queue's head is read and checked, or its counters are read again; a record of an aborted context waits at
the head (R453). -/
def execLaunchStart (queue : Nat) (s : State) : Res :=
  let x := s.queue queue
  if 64 ≤ queue || !((s.reg (32 * queue + 8) 8).getLsbD 31) || x.hold.isSome then notDue s
  else match x.current with
    | none => if x.head = x.tail || s.aborted (s.headCtx queue) then notDue s else .next (s.readHead queue)
    | some lid =>
      match SMap.get? s.launches lid with
      | none => notDue s
      | some l =>
        if l.startable || l.owedFault.isSome || s.aborted l.ctx then notDue s
        else match s.tryStart lid l with
          | none => notDue s
          | some s => .next s

/-- A tail of a host queue (R381): backward, or more than the ring holds beyond head, is ignored. -/
def State.setTail (s : State) (q : Nat) (tail : Word) : State :=
  let x := s.queue q
  let lg := max 4 (min 15 ((s.reg (32 * q + 8) 8).toNat % 16))
  if 48 ≤ q ∨ (tail - x.head).toNat < (x.tail - x.head).toNat ∨ 2 ^ lg < (tail - x.head).toNat then s
  else s.setQueue q { x with tail := tail }

/-- `QUEUE_TAIL_WRITE` (R381). -/
def execQueueTailWrite (queue : Nat) (tail : Word) (s : State) : Res :=
  if 64 ≤ queue then notDue s else .next (s.setTail queue tail)

/-! ### Placement (R10, R384 to R386) -/

/-- The blocks that hold room on a core. -/
def State.blocksOn (s : State) (c : Nat) : List (Nat × Block) := s.blocks.filter fun e => e.2.core = c && !e.2.ended && !e.2.away

/-- The free slots of partition `p` of a core, ascending (R10). -/
def State.freeSlots (s : State) (c p : Nat) : List Nat :=
  ((List.range 4).map fun j => 4 * p + j).filter fun k => (s.warp c k).isNone

/-- The lowest free scratchpad range of `n` bytes of a core (R384). -/
def State.freeRange (s : State) (c n : Nat) : Option Nat :=
  let held := (s.blocksOn c).map fun e => (e.2.base, e.2.base + e.2.size)
  let starts := 0 :: held.map (·.2)
  (starts.filter fun b => b + n ≤ (s.core c).padBytes && held.all fun r => b + n ≤ r.1 || r.2 ≤ b).min?

/-- Warps of the block on partition p: those with index mod 16 = p (R10). -/
def Launch.onPartition (l : Launch) (p : Nat) : Nat := (l.warps + 15 - p) / 16

/-- A block of the launch fits a core now (R384); the core's stack group is ready (R431). -/
def State.fits (s : State) (l : Launch) (c : Nat) : Bool :=
  c < 192 && (s.reg 0x30000 0).getLsbD (12 + c / 16) && (s.freeRange c l.scratch).isSome &&
    (List.range 16).all fun p => l.onPartition p ≤ (s.freeSlots c p).length

/-- The first state of a warp of a block (R17, R21 to R24). -/
def newWarp (l : Launch) (lid bid b w age start : Nat) : Warp :=
  let stack := l.f 640 64 + (b * l.warps + w) * 32 * l.f 704 32
  let lo := fun (x : Nat) => BitVec.ofNat 32 x
  let hi := fun (x : Nat) => BitVec.ofNat 32 (x / 2 ^ 32)
  let regs : Regs :=
    { threads := Lanes.all { pc := { packet := BitVec.ofNat 32 (l.f 32 32), word := 0 }, live := true }
      q := [], y := Lanes.all yLaunch
      s := [(0, lo (l.f 192 64)), (1, hi (l.f 192 64)), (2, lo l.va.toNat), (3, hi l.va.toNat),
            (29, lo (l.f 704 32)), (30, lo stack), (31, hi stack)]
      p := [], loops := [], iters := [], tile := 32, sat := 0, fflags := 0, rc := 1, mshift := 0, phase := 0
      sticky := [], chains := [], sup2 := Lanes.all false }
  { launch := lid, block := bid, index := w, age := age, ctx := l.ctx, code := BitVec.ofNat 64 (l.f 64 64)
    regCount := min 128 (Config.launchRegs l.record), regs := regs, v := [], acc := [], trees := [], sbchk := false, super := false, trapinfo := 0
    rollbacks := 0, clk := start, start := start, fFree := 0, marks := [], loads := [], nextLoad := 0
    windows := [], nextWindow := 1, streak := 0, nextSteady := false, guard := none, pending := none, wait := none
    halt := none, pop := Lanes.all 32, since := Lanes.all 0, issues := 0, regrouped := true, promoted := Lanes.all false
    yielded := Lanes.all false, waits := 0, urgent := false, yieldClock := false, triggered := Lanes.all false, arrived := []
    laneArrived := [], barred := [], wasLive := Lanes.all false, late := []
    arrivals := [], crossed := [], soft := none }

/-- Puts the warps of a new block into their slots: partition w mod 16, the lowest free slot (R10). -/
def State.startWarps (s : State) (l : Launch) (lid bid b c : Nat) : List Nat → State
  | [] => s
  | w :: rest =>
    match s.freeSlots c (w % 16) with
    | [] => s
    | k :: _ =>
      let core := s.core c
      let s := s.setWarp c k (newWarp l lid bid b w core.nextAge (s.warps.foldl (fun n e => max n e.2.clk) 0))
      State.startWarps (s.setCore c { core with nextAge := core.nextAge + 1 }) l lid bid b c rest

/-- Places block `b` of a launch on a core (R382, R384). -/
def State.placeBlock (s : State) (lid : Nat) (l : Launch) (b c : Nat) : State :=
  match s.freeRange c l.scratch with
  | none => s
  | some base =>
    let bid := SMap.fresh s.blocks
    let block : Block :=
      { launch := lid, index := b, core := c, base := base, size := l.scratch, hstatic := l.f 800 32, warps := l.warps
        allocs := [], rings := [], exited := [], inbound := [], triggers := 0, ended := false, away := false }
    let s := { s with blocks := SMap.put s.blocks bid block }
    (s.startWarps l lid bid b c (List.range l.warps))

/-- Blocks of a launch on this device by core: the cores of its blocks that are placed here. -/
def State.coresOf (s : State) (lid : Nat) : List Nat := (s.blocks.filter fun e => e.2.launch = lid).map (·.2.core)

/-- The placement entries of the blocks after block `b` that are still to be placed. -/
def Launch.later (l : Launch) (b : Nat) : List (Nat × Nat) :=
  ((List.range l.places.length).filter fun k => b < k && !l.placed.contains k).filterMap l.entryOf

/-- A block may go to core `c` of device `d` beside others of its launch: group, mask, caps (R8, R377, R384). -/
def State.mayJoin (s : State) (l : Launch) (others : List (Nat × Nat)) (d c : Nat) : Bool :=
  let under := fun (cap n : Nat) => cap = 0 || n < cap
  bits (l.devices s.self) d 1 = 1 &&
    (6 ≤ l.level || others.all fun x => x.1 = d && groupOf l.level x.2 = groupOf l.level c) &&
    under (l.f 864 4) (others.filter fun x => x == (d, c)).length &&
    under (l.f 868 8) (others.filter fun x => x.1 = d && x.2 / 4 = c / 4).length &&
    under (l.f 876 8) (others.filter fun x => x.1 = d && x.2 / 16 = c / 16).length &&
    under (l.f 884 12) (others.filter fun x => x.1 = d).length

/-- Block `b` may go to core `c` of device `d` beside the blocks placed so far and those that entries bind (R377, R384). -/
def State.mayPlace (s : State) (lid : Nat) (l : Launch) (b d c : Nat) : Bool :=
  (match l.entryOf b with
    | none => true
    | some e => e == (d, c)) &&
    s.mayJoin l (l.remotePlaced ++ (s.coresOf lid).map (fun x => (s.self, x)) ++ l.later b) d c

/-- Device and core that a number of a placement names: a number from 256 up names core mod 256 of device div 256 less 1. -/
def State.spot (s : State) (c : Nat) : Nat × Nat := (if c < 256 then s.self else c / 256 - 1, c % 256)

/-- Block `b` goes to the core that a number names; none where it may not. On another device that device's scheduler places it. -/
def State.placeOne (s : State) (lid b n : Nat) : Option State :=
  match SMap.get? s.launches lid with
  | none => none
  | some l =>
    let (d, c) := s.spot n
    if !(s.mayPlace lid l b d c) then none
    else if d = s.self then
      if !(s.fits l c) then none
      else
        let s := s.placeBlock lid l b c
        some { s with launches := SMap.put s.launches lid { l with placed := l.placed ++ [b] } }
    else
      let l := { l with placed := l.placed ++ [b], remotePlaced := l.remotePlaced ++ [(d, c)] }
      let s := s.sendMsg 192 d false false (.place lid l.va l.record l.ctx b c)
      some { s with launches := SMap.put s.launches lid l }

/-- Places blocks on cores, one pair after the other; none when one of them may not go there. -/
def State.placeList (s : State) (lid : Nat) : List (Nat × Nat) → Option State
  | [] => some s
  | (b, n) :: rest =>
    match s.placeOne lid b n with
    | none => none
    | some s => s.placeList lid rest

/-- Places the blocks from block `b` on, in ascending index, on the cores of a list. -/
def State.placeAll (s : State) (lid : Nat) (cores : List Nat) (b : Nat) : Option State :=
  s.placeList lid (cores.zipIdx.map fun x => (b + x.2, x.1))

/-- The blocks of a cohort that a peer's scheduler has named for this device: those whose messages wait, and one more. -/
def State.cohortHere (s : State) (src launch b c : Nat) : List (Nat × Nat) :=
  ((s.peerWait.filterMap fun x => match x.msg with
    | .place n _ _ _ k core => if x.src = src && n = launch then some (k, core) else none
    | _ => none) ++ [(b, c)]).eraseDups

/-- Blocks that a peer placed start on their cores; none where one of them finds no room. -/
def State.placeThese (s : State) (lid : Nat) : List (Nat × Nat) → Option State
  | [] => some s
  | (b, c) :: rest =>
    match SMap.get? s.launches lid with
    | none => none
    | some l =>
      if !s.fits l c then none
      else
        let s := s.placeBlock lid l b c
        State.placeThese { s with launches := SMap.put s.launches lid { l with placed := l.placed ++ [b] } } lid rest

/-- Blocks of a context stand on this device. -/
def State.runsHere (s : State) (ctx : Nat) : Bool := s.blocks.any fun b => (SMap.get? s.launches b.2.launch).any fun l => l.ctx = ctx

/-- Where a placement brings a context to this device, the other devices hear of it (R314). -/
def State.announce (s before : State) (ctx : Nat) : State :=
  if before.runsHere ctx || !s.runsHere ctx then s else s.others.foldl (fun s d => s.sendMsg 192 d false true (.runs ctx)) s

/-- A block that the scheduler of device `src` places on a core here (R384); false: it waits for room, and a block of a cohort for the
others, with which it starts (R280). The context's entry is read as its launch starts here (R392). -/
def State.placeHere (s : State) (src launch : Nat) (va : DWord) (record : BitVec 1024) (ctx b c : Nat) : State × Bool :=
  let (lid, l) := match s.launches.find? fun e => e.2.home = some (src, launch) with
    | some e => e
    | none => (SMap.fresh s.launches, { newLaunch va record.toNat ctx 64 with startable := true, started := true, home := some (src, launch) })
  let mates := if l.f 856 1 = 1 then s.cohortHere src launch b c else [(b, c)]
  if l.placed.contains b then (s, true)
  else if l.f 856 1 = 1 && mates.length < l.nblocks then (s, false)
  else
    let first := !s.launches.any fun e => e.1 = lid
    let t := { s with
      launches := SMap.put s.launches lid l
      ctxs := if first then SMap.put s.ctxs ctx (BitVec.ofNat 512 (s.tableEntry ctx)) else s.ctxs }
    match t.placeThese lid mates with
    | some t => (t.announce s ctx, true)
    | none => (s, false)

/-- The priority class of a launch (R380). -/
def State.classOf (s : State) (l : Launch) : Nat := min (l.f 848 2) (bits (s.reg (32 * l.queue + 8) 8).toNat 8 2)

/-- A pre-emption that runs names the launch: its blocks wait (R408). -/
def State.preempting (s : State) (l : Launch) : Bool :=
  s.preempt.any fun p => (p.whole && p.ctx = l.ctx) || p.launches.any fun k => SMap.get? s.launches k == some l

/-- Blocks of the launch may be placed now: it is startable, not complete, and has blocks left. -/
def State.placing (s : State) (l : Launch) : Bool :=
  l.startable && !l.complete && l.placed.length < l.nblocks && !s.aborted l.ctx && !s.preempting l

/-- The gang groups that placement entries from block `b` on name. -/
def Launch.forcedKeys (l : Launch) (b : Nat) : List (Nat × Nat) :=
  (l.places.drop b).filterMap fun e => if e = 0xFFFF then none else some (l.gangKey (e / 4096, e % 256))

/-- A gang may be placed at a spot (R385): no earlier block of the launch that has not ended shares its group, and no block from
number `b` on is forced there. -/
def State.gangClear (s : State) (lid : Nat) (l : Launch) (b : Nat) (x : Nat × Nat) : Bool :=
  let here := (s.blocks.filter fun e => e.2.launch = lid && !e.2.ended).map fun e => (s.self, e.2.core)
  !((here ++ l.remotePlaced).any fun y => l.gangKey y == l.gangKey x) && !(l.forcedKeys b).contains (l.gangKey x)

/-- The cores are for as many blocks as one step places (R385, R386): one, or whole gangs, a cohort in one stack group. -/
def State.wholeGangs (s : State) (lid : Nat) (l : Launch) (cores : List Nat) : Bool :=
  let b := l.placed.length
  if !l.isGang then cores.length = 1
  else if l.isWhole then
    cores.length = l.nblocks - b &&
      (l.f 856 1 != 1 || ((cores.map fun c => ((s.spot c).1, (s.spot c).2 / 16)).eraseDups).length = 1)
  else !cores.isEmpty && cores.all fun c => s.gangClear lid l (b + cores.length) (s.spot c)

/-- Blocks from block `b` on, at least `k`, with which no later block is forced to share a gang's group. -/
def Launch.gangRun (l : Launch) (b : Nat) : Nat → Nat → Nat
  | 0, k => k
  | fuel + 1, k =>
    let mine := ((l.forcedKeys b).take ((l.forcedKeys b).length - (l.forcedKeys (b + k)).length))
    if (l.forcedKeys (b + k)).any mine.contains then l.gangRun b fuel (k + 1) else k

/-- Blocks that the scheduler places with the next one, on core `c`: the launch's gang; the blocks that entries put together; else as
many as the core's group holds (DESIGN CHOICE, log 83). -/
def State.gangLength (s : State) (l : Launch) (c : Nat) : Nat :=
  let b := l.placed.length
  if l.isWhole then l.nblocks - b
  else if (l.entryOf b).isSome then l.gangRun b l.places.length 1
  else
    let free := if l.places.isEmpty then l.nblocks - b else ((l.places.drop b).takeWhile (· = 0xFFFF)).length
    max 1 (min free (s.capAt l l.gangLevel (groupOf l.gangLevel c)))

/-- The numbers of the cores to which the scheduler may give block `b`: the one that its entry names, else every core of this device. -/
def State.spotsFor (s : State) (l : Launch) (b : Nat) : List Nat :=
  match l.entryOf b with
  | some (d, c) => [if d = s.self then c else 256 * (d + 1) + c]
  | none => List.range 192

/-- Cores, of those that pass a test, for blocks of a step in ascending order, each the lowest that leaves room for the step's blocks that
entries bind; none where they do not fit. -/
def State.gangCores (s : State) (lid : Nat) (l : Launch) (ok : Nat → Bool) : List Nat → List (Nat × Nat) → Option (List Nat)
  | [], done => if (s.placeList lid done).isSome then some (done.map (·.2)) else none
  | b :: rest, done =>
    let bound := rest.flatMap fun k => if (l.entryOf k).isSome then (s.spotsFor l k).map fun c => (k, c) else []
    match (s.spotsFor l b).find? fun c => ok c && (s.placeList lid (done ++ [(b, c)] ++ bound)).isSome with
    | none => none
    | some c => s.gangCores lid l ok rest (done ++ [(b, c)])

/-- Cores for what the launch places next: a block, or gangs (R385, R386). -/
def State.roomFor (s : State) (lid : Nat) (l : Launch) : Option (List Nat) :=
  let b := l.placed.length
  if l.isGang then
    (s.spotsFor l b).findSome? fun c =>
      let n := s.gangLength l (c % 256)
      let near := fun (x : Nat) =>
        let (x, y) := (s.spot x, s.spot c)
        if l.isWhole then l.f 856 1 != 1 || (x.1 = y.1 && x.2 / 16 = y.2 / 16)
        else s.gangClear lid l (b + n) x && ((l.entryOf b).isSome || l.gangKey x == l.gangKey y)
      if near c then
        (s.gangCores lid l near ((List.range (n - 1)).map (b + 1 + ·)) [(b, c)]).filter (s.wholeGangs lid l)
      else none
  else ((s.spotsFor l b).find? fun c => (s.placeOne lid b c).isSome).map fun c => [c]

/-- How long queue `q` waits for its turn in a class: queues are served in ascending order after the last one (R382). -/
def State.turnOf (s : State) (cls q : Nat) : Nat :=
  match SMap.get? s.turn cls with
  | none => q
  | some last => (q + 63 - last) % 64

/-- Another launch places a block first (R382): one of a higher class, or of the same class whose queue's turn comes earlier, that
has room now. -/
def State.outranked (s : State) (lid : Nat) (l : Launch) : Bool :=
  let cls := s.classOf l
  s.launches.any fun e => e.1 != lid && s.placing e.2 &&
    (cls < s.classOf e.2 || (cls = s.classOf e.2 && s.turnOf cls e.2.queue < s.turnOf cls l.queue)) && (s.roomFor e.1 e.2).isSome

/-! ### Ends (R141, R379, R390) -/

/-- Blocks of a launch on a core. -/
def State.holdsLaunch (s : State) (c lid : Nat) : Bool := s.blocks.any fun e => e.2.core = c && e.2.launch = lid && !e.2.ended && !e.2.away

/-- A core's step returns to 16 when no block of the launch that last shifted it remains (R390). -/
def State.settleStep (s : State) (c : Nat) : State :=
  let x := s.core c
  match x.shiftedBy with
  | none => s
  | some lid => if s.holdsLaunch c lid then s else s.setCore c { x with step := 16, shiftedBy := none }

/-- The end of a block that another device's scheduler placed is reported to it (R379); with the last one its launch is over here. -/
def State.reportEnd (s : State) (lid b : Nat) : State :=
  match (SMap.get? s.launches lid).bind (·.home) with
  | none => s
  | some (dev, n) =>
    let s := s.sendMsg 192 dev false false (.ended n b)
    if s.blocks.any fun e => e.2.launch = lid && !e.2.ended then s
    else { s with launches := SMap.del s.launches lid, blocks := s.blocks.filter fun e => e.2.launch != lid }

/-- A block whose warps have all exited and whose engine entries have all completed frees its scratchpad and handles
(R141). -/
def State.settleBlock (s : State) (bid : Nat) : State :=
  match SMap.get? s.blocks bid with
  | none => s
  | some b =>
    if b.ended || b.away || b.exited.length < b.warps || s.entries.any (fun e => e.2.block = bid) then s
    else
      let ls := match SMap.get? s.launches b.launch with
        | none => s.launches
        | some l => SMap.put s.launches b.launch { l with ended := l.ended ++ [b.index] }
      let b' := { b with ended := true, rings := [], allocs := [] }
      (({ s with blocks := SMap.put s.blocks bid b', launches := ls } : State).settleStep b.core).reportEnd b.launch b.index

/-- A block's threads have all triggered: the scheduler of another device that placed it is told, once (R383). -/
def State.reportTriggers (s : State) (lid : Nat) (l : Launch) (dev n : Nat) : State :=
  let ready := s.blocks.filterMap fun e =>
    if e.2.launch = lid && e.2.triggers = e.2.warps && !l.remoteTriggered.contains e.2.index then some e.2.index else none
  let s := { s with launches := SMap.put s.launches lid { l with remoteTriggered := l.remoteTriggered ++ ready } }
  ready.foldl (fun s b => s.sendMsg 192 dev false false (.triggered n b)) s

/-- Every thread of every block of the launch has triggered: the addition to tcounter (R383). -/
def State.settleTrigger (s : State) (lid : Nat) : State :=
  match SMap.get? s.launches lid with
  | none => s
  | some l =>
    let done := s.blocks.all fun e => e.2.launch != lid || e.2.triggers = e.2.warps
    match l.home with
    | some (dev, n) => s.reportTriggers lid l dev n
    | none =>
    if l.tcounted || l.f 320 64 = 0 || l.placed.length < l.nblocks || l.remoteTriggered.length < l.remotePlaced.length || !done then s
    else ({ s with launches := SMap.put s.launches lid { l with tcounted := true } } : State).owe lid
      [.counter (BitVec.ofNat 64 (l.f 320 64))]

/-- A block of a launch has ended on the device where it was placed (R379). -/
def State.remoteEnded (s : State) (lid b : Nat) : State :=
  match SMap.get? s.launches lid with
  | none => s
  | some l => { s with launches := SMap.put s.launches lid { l with ended := l.ended ++ [b] } }

/-- All threads of a block of a launch have triggered on the device where it was placed (R89, R383). -/
def State.remoteTriggered (s : State) (lid b : Nat) : State :=
  match SMap.get? s.launches lid with
  | none => s
  | some l => ({ s with launches := SMap.put s.launches lid { l with remoteTriggered := l.remoteTriggered ++ [b] } } : State).settleTrigger lid

/-- `LAUNCH_COMPLETE` (R379): every block has exited and every entry has completed. -/
def execLaunchComplete (launch : Nat) (s : State) : Res :=
  match SMap.get? s.launches launch with
  | none => notDue s
  | some l =>
    if l.complete || l.home.isSome || l.nblocks != l.placed.length || l.ended.length != l.nblocks ||
        s.entries.any (fun e => e.2.launch = launch) then notDue s
    else
      let s := { s with
        launches := SMap.put s.launches launch { l with complete := true }
        blocks := s.blocks.filter fun e => e.2.launch != launch }
      .next (s.owe launch (l.ending 2))

end Sys2Proof.Machine
end

