-- ==== Sys2Proof/Machine/Records.lean ====
section
/-! DEFINITION. The records of a context record as bytes (R409), and the records that the device keeps in step with what
happens to saved work (R222, R209, R393). -/
namespace Sys2Proof.Machine

/-- Bytes of a record beyond its header, as 16-byte units: the manual lists what a record holds, not its layout. -/
opaque Config.recordUnits : Saved → Nat

/-- Byte `k` of a record beyond its header. -/
opaque Config.recordByte : Saved → Nat → Byte

/-- What the bytes of a record of a type hold, for records this device has not written: their layout is not in the manual. -/
opaque Config.recordOf : Nat → List Byte → Option Saved

/-- The layout version this device writes for a record type (R409). -/
opaque Config.recordVersion : Nat → BitVec 15

/-- The record type (R409). -/
def Saved.type : Saved → Nat
  | .context .. => 1
  | .warp .. => 2
  | .block .. => 3
  | .object .. => 4
  | .entry .. => 5
  | .status .. => 6
  | .inst .. => 7
  | .last => 0xFFFF

/-- A restore must understand the record (R409): types 2 to 6, and 7 when an instance runs. -/
def Saved.req : Saved → Bool
  | .inst _ running _ => running
  | r => 2 ≤ r.type && r.type ≤ 6

/-- Length of a record, header included. -/
def Saved.length (r : Saved) : Nat := if r.type = 0xFFFF then 16 else 16 + 16 * Config.recordUnits r

/-- The 16-byte header (R409). -/
def Saved.header (r : Saved) : List Byte :=
  bytesLE 16 (r.type + (Config.recordVersion r.type).toNat * 2 ^ 16 + (if r.req then 2 ^ 31 else 0) + r.length % 2 ^ 32 * 2 ^ 32)

/-- The bytes of a record. -/
def Saved.bytes (r : Saved) : List Byte := r.header ++ (List.range (r.length - 16)).map (Config.recordByte r)

/-- Bytes of a list of records. -/
def recordsLength (rs : List Saved) : Nat := rs.foldl (fun n r => n + r.length) 0

/-- Writes records one after the other from a physical address, and keeps them. -/
def State.putRecords (s : State) : Nat → List Saved → State
  | _, [] => s
  | pa, r :: rest =>
    State.putRecords { s.writeEvent none (.mem pa) r.bytes with saved := s.saved.filter (fun e => e.1 != pa) ++ [(pa, r)] } (pa + r.length) rest

/-- Saved work changes: its record is written again. -/
def State.mapSaved (s : State) (f : Saved → Saved) : State :=
  let s := { s with waiting := s.waiting.map f }
  s.saved.foldl (fun s e =>
    if f e.2 == e.2 then s
    else { s.writeEvent none (.mem e.1) (f e.2).bytes with saved := s.saved.map fun x => if x.1 = e.1 then (e.1, f e.2) else x }) s

end Sys2Proof.Machine
end

