-- ==== Sys2Proof/Machine/Flags.lean ====
section
/-! DEFINITION. Number formats, rounding and every flag computation (R44 to R52, R60 to R67): values are exact dyadic
numbers, rounded once. -/
namespace Sys2Proof.Machine

/-- How a format uses its top exponent (R46): IEEE infinities and NaNs, E4M3's one NaN, or none. -/
inductive Specials where
  | ieee | e4m3 | none
deriving DecidableEq, Repr

/-- A floating-point format (R46): exponent bits, fraction bits, bias. -/
structure Fmt where
  eb : Nat
  fb : Nat
  bias : Nat
  sp : Specials
deriving DecidableEq, Repr

/-- FP64. -/
def fp64 : Fmt := ⟨11, 52, 1023, .ieee⟩
/-- FP32. -/
def fp32 : Fmt := ⟨8, 23, 127, .ieee⟩
/-- FP16. -/
def fp16 : Fmt := ⟨5, 10, 15, .ieee⟩
/-- BF16. -/
def bf16 : Fmt := ⟨8, 7, 127, .ieee⟩
/-- E4M3. -/
def e4m3 : Fmt := ⟨4, 3, 7, .e4m3⟩
/-- E5M2. -/
def e5m2 : Fmt := ⟨5, 2, 15, .ieee⟩
/-- E3M2. -/
def e3m2 : Fmt := ⟨3, 2, 3, .none⟩
/-- E2M3. -/
def e2m3 : Fmt := ⟨2, 3, 1, .none⟩
/-- E2M1. -/
def e2m1 : Fmt := ⟨2, 1, 1, .none⟩

/-- A value: a NaN, an infinity, or (-1)^neg × m × 2^e. -/
inductive FVal where
  | nan (signalling : Bool)
  | inf (neg : Bool)
  | fin (neg : Bool) (m : Nat) (e : Int)
deriving DecidableEq, Repr

/-- The sign bit's weight. -/
def Fmt.signBit (f : Fmt) : Nat := 2 ^ (f.eb + f.fb)

/-- The canonical NaN (R46, R47). -/
def Fmt.nan (f : Fmt) : Nat :=
  match f.sp with
  | .ieee => (2 ^ f.eb - 1) * 2 ^ f.fb + 2 ^ (f.fb - 1)
  | _ => f.signBit - 1

/-- ±∞ of an IEEE format. -/
def Fmt.inf (f : Fmt) (neg : Bool) : Nat := (2 ^ f.eb - 1) * 2 ^ f.fb + if neg then f.signBit else 0

/-- The pattern of the largest finite magnitude (R46). -/
def Fmt.maxMag (f : Fmt) : Nat :=
  match f.sp with
  | .ieee => (2 ^ f.eb - 1) * 2 ^ f.fb - 1
  | .e4m3 => f.signBit - 2
  | .none => f.signBit - 1

/-- The value of a pattern (R46). -/
def Fmt.val (f : Fmt) (x : Nat) : FVal :=
  let neg := bits x (f.eb + f.fb) 1 = 1
  let ex := bits x f.fb f.eb
  let fr := bits x 0 f.fb
  let top := 2 ^ f.eb - 1
  if f.sp = .ieee ∧ ex = top then
    if fr = 0 then .inf neg else .nan (fr < 2 ^ (f.fb - 1))
  else if f.sp = .e4m3 ∧ ex = top ∧ fr = 2 ^ f.fb - 1 then .nan false
  else if ex = 0 then .fin neg fr (1 - (f.bias : Int) - f.fb)
  else .fin neg (2 ^ f.fb + fr) ((ex : Int) - f.bias - f.fb)

/-- A rounding mode, numbered as R49 and R168 number them. -/
inductive Rnd where
  | rne | rz | ru | rd
deriving DecidableEq, Repr

/-- The flags of R50: nv, dz, of, uf, nx. -/
def fNv : Nat := 1
/-- Division by zero. -/
def fDz : Nat := 2
/-- Overflow. -/
def fOf : Nat := 4
/-- Underflow. -/
def fUf : Nat := 8
/-- Inexact. -/
def fNx : Nat := 16

/-- A result pattern and the flags it raises. -/
structure FOut where
  val : Nat
  flags : Nat
deriving DecidableEq, Repr

/-- Rounds n + rem / 2^k up to n + 1? -/
def roundsUp (mode : Rnd) (neg : Bool) (n rem k : Nat) : Bool :=
  match mode with
  | .rne => 2 ^ k < 2 * rem || (2 * rem == 2 ^ k && n % 2 == 1)
  | .rz => false
  | .ru => !neg && rem != 0
  | .rd => neg && rem != 0

/-- m × 2^e rounded to a multiple of 2^q: the multiple, and whether it differs. -/
def quantize (mode : Rnd) (neg : Bool) (m : Nat) (e q : Int) : Nat × Bool :=
  if q ≤ e then (m * 2 ^ (e - q).toNat, false)
  else
    let k := (q - e).toNat
    let n := m / 2 ^ k
    let rem := m % 2 ^ k
    (if roundsUp mode neg n rem k then n + 1 else n, rem != 0)

/-- The exponent of the leading bit of m × 2^e. -/
def leading (m : Nat) (e : Int) : Int := (Nat.log2 m : Int) + e

/-- The pattern of magnitude n × 2^q, where q is the spacing of the format there. -/
def Fmt.pack (f : Fmt) (n : Nat) (q : Int) : Nat :=
  if n < 2 ^ f.fb then n
  else (q - (1 - (f.bias : Int) - f.fb) + 1).toNat * 2 ^ f.fb + (n - 2 ^ f.fb)

/-- The result of an overflow (R52, R159): ±∞ or ± max finite by the mode; E4M3 and formats without infinity saturate. -/
def Fmt.overflow (f : Fmt) (mode : Rnd) (neg : Bool) : Nat :=
  let away := match mode with
    | .rne => true
    | .rz => false
    | .ru => !neg
    | .rd => neg
  (if f.sp = .ieee ∧ away = true then f.inf false else f.maxMag) + if neg then f.signBit else 0

/-- (-1)^neg × m × 2^e rounded into a format (R48, R50, R52): flags of, uf and nx; underflow after rounding. -/
def Fmt.round (f : Fmt) (mode : Rnd) (neg : Bool) (m : Nat) (e : Int) : FOut :=
  let sgn := if neg then f.signBit else 0
  if m = 0 then ⟨sgn, 0⟩
  else
    let emin := 1 - (f.bias : Int)
    let lead := leading m e
    let q := max (lead - f.fb) (emin - f.fb)
    let (n, nx) := quantize mode neg m e q
    let p := f.pack n q
    if f.maxMag < p then ⟨f.overflow mode neg, fOf + fNx⟩
    else
      let (n1, _) := quantize mode neg m e (lead - f.fb)
      let tiny := leading n1 (lead - f.fb) < emin
      let beyond := f.sp = .e4m3 ∧ nx = true ∧ f.pack (quantize .rz neg m e q).1 q = f.maxMag
      ⟨sgn + p, if beyond then fOf + fNx else if nx then (if tiny then fUf + fNx else fNx) else 0⟩

/-- Rounds a value into a format (R52); NaN operands give the canonical NaN. -/
def Fmt.convert (f : Fmt) (mode : Rnd) : FVal → FOut
  | .nan _ => ⟨f.nan, if f.sp = .e4m3 then fNv else 0⟩
  | .inf neg => if f.sp = .ieee then ⟨f.inf neg, 0⟩ else ⟨f.nan, fNv⟩
  | .fin neg m e => f.round mode neg m e

/-- The exact sum of two finite values, as sign, magnitude and exponent; zero sums are told by `m = 0`. -/
def addFin (n1 : Bool) (m1 : Nat) (e1 : Int) (n2 : Bool) (m2 : Nat) (e2 : Int) : Bool × Nat × Int :=
  let e := min e1 e2
  let a : Int := (m1 * 2 ^ (e1 - e).toNat : Nat)
  let b : Int := (m2 * 2 ^ (e2 - e).toNat : Nat)
  let x := (if n1 then -a else a) + (if n2 then -b else b)
  (x < 0, x.natAbs, e)

/-- x + y rounded once (R159). -/
def Fmt.add (f : Fmt) (x y : FVal) : FOut :=
  match x, y with
  | .nan _, _ | _, .nan _ => ⟨f.nan, 0⟩
  | .inf a, .inf b => if a = b then ⟨f.inf a, 0⟩ else ⟨f.nan, fNv⟩
  | .inf a, .fin .. => ⟨f.inf a, 0⟩
  | .fin .., .inf b => ⟨f.inf b, 0⟩
  | .fin n1 m1 e1, .fin n2 m2 e2 =>
    let (neg, m, e) := addFin n1 m1 e1 n2 m2 e2
    if m = 0 then ⟨if n1 && n2 then f.signBit else 0, 0⟩ else f.round .rne neg m e

/-- -x. -/
def FVal.neg : FVal → FVal
  | .nan s => .nan s
  | .inf n => .inf (!n)
  | .fin n m e => .fin (!n) m e

/-- The exact product of two values; none where it is invalid (0 × ∞). -/
def FVal.mul (x y : FVal) : Option FVal :=
  match x, y with
  | .nan s, _ => some (.nan s)
  | _, .nan s => some (.nan s)
  | .inf a, .inf b => some (.inf (a != b))
  | .inf a, .fin b m _ => if m = 0 then none else some (.inf (a != b))
  | .fin a m _, .inf b => if m = 0 then none else some (.inf (a != b))
  | .fin a m1 e1, .fin b m2 e2 => some (.fin (a != b) (m1 * m2) (e1 + e2))

/-- x × y rounded once (R159). -/
def Fmt.mul (f : Fmt) (x y : FVal) : FOut :=
  match x.mul y with
  | none => ⟨f.nan, fNv⟩
  | some v => f.convert .rne v

/-- x × y + z rounded once (R159): 0 × ∞ is invalid for every z. -/
def Fmt.fma (f : Fmt) (x y z : FVal) : FOut :=
  match x.mul y with
  | none => ⟨f.nan, fNv⟩
  | some v => f.add v z

/-- The order of two values that are no NaNs: x < y, with -0 equal to +0. -/
def FVal.lt (x y : FVal) : Bool :=
  match x, y with
  | .nan _, _ | _, .nan _ => false
  | .inf a, .inf b => a && !b
  | .inf a, .fin .. => a
  | .fin .., .inf b => !b
  | .fin n1 m1 e1, .fin n2 m2 e2 =>
    let (neg, m, _) := addFin n1 m1 e1 (!n2) m2 e2
    neg && m != 0

/-- x = y, with -0 equal to +0; false for a NaN. -/
def FVal.feq (x y : FVal) : Bool :=
  match x, y with
  | .nan _, _ | _, .nan _ => false
  | .inf a, .inf b => a == b
  | .fin n1 m1 e1, .fin n2 m2 e2 => (addFin n1 m1 e1 (!n2) m2 e2).2.1 == 0
  | _, _ => false

/-- The value is a NaN. -/
def FVal.isNan : FVal → Bool
  | .nan _ => true
  | _ => false

/-- The value's sign. -/
def FVal.isNeg : FVal → Bool
  | .nan _ => false
  | .inf n => n
  | .fin n _ _ => n

/-- x comes before y where -0 counts as less than +0 (R160). -/
def FVal.before (x y : FVal) : Bool := x.lt y || (x.feq y && x.isNeg && !y.isNeg)

/-- `FMIN` and `FMAX` of two patterns (R160, R195): one of the operands, never rounded. -/
def Fmt.minMax (f : Fmt) (max : Bool) (a b : Nat) : Nat :=
  match (f.val a).isNan, (f.val b).isNan with
  | true, true => f.nan
  | true, false => b
  | false, true => a
  | false, false =>
    let aFirst := (f.val a).before (f.val b)
    if max then (if aFirst then b else a) else (if aFirst then a else if (f.val b).before (f.val a) then b else a)

/-- `tree_add` (R6): FP32 addition, first operand x; patterns in and out. -/
def treeAddF (x y : Nat) : FOut := fp32.add (fp32.val x) (fp32.val y)

/-- `tree_add` without its flags (R50: engine tree adds never set them). -/
def treeAdd (x y : Nat) : Nat := (treeAddF x y).val

/-- `flush_in` (R6) and the canonical NaN: the ingress of a leaf (R65). -/
def ingress (x : Nat) : Nat :=
  if bits x 23 8 = 0 then x / 2 ^ 31 * 2 ^ 31
  else if (fp32.val x).isNan then fp32.nan else x

/-- The ingress of a node above level 0 (R65). -/
def ingressNode (x : Nat) : Nat := if (fp32.val x).isNan then fp32.nan else x

/-- A root as written (R67). -/
def rootValue (x : Nat) : Nat := if x = 2 ^ 31 then 0 else x

/-- An optional node: absent children pass the other through (R63). -/
def joinNodes (add : Nat → Nat → Nat) : Option Nat → Option Nat → Option Nat
  | none, r => r
  | l, none => l
  | some l, some r => some (add l r)

/-- One level of the tree over a list of leaves (R63). -/
def treeLevel (add : Nat → Nat → Nat) : List (Option Nat) → List (Option Nat)
  | l :: r :: rest => joinNodes add l r :: treeLevel add rest
  | [l] => [l]
  | [] => []

/-- value(m, 0) of R63 over a list of leaves, 2^m at least its length. -/
def treeValue (add : Nat → Nat → Nat) : Nat → List (Option Nat) → Option Nat
  | 0, ls => ls.head?.getD none
  | m + 1, ls => treeValue add m (treeLevel add ls)

/-! ### Special functions (R51) -/

/-- The integer square root, bit by bit from bit `k` down. -/
def isqrtFrom (x : Nat) : Nat → Nat → Nat
  | 0, acc => if (acc + 1) * (acc + 1) ≤ x then acc + 1 else acc
  | k + 1, acc => isqrtFrom x k (if (acc + 2 ^ (k + 1)) * (acc + 2 ^ (k + 1)) ≤ x then acc + 2 ^ (k + 1) else acc)

/-- floor(√x). -/
def isqrt (x : Nat) : Nat := isqrtFrom x (Nat.log2 x / 2 + 1) 0

/-- A truncated magnitude with a sticky bit below it: rounds as the exact value does. -/
def sticky (n : Nat) (inexact : Bool) : Nat := 2 * n + if inexact then 1 else 0

/-- `FRCP` of a finite nonzero value. -/
def rcpFin (neg : Bool) (m : Nat) (e : Int) : FOut :=
  let k := Nat.log2 m + 64
  fp32.round .rne neg (sticky (2 ^ k / m) (2 ^ k % m != 0)) (-e - k - 1)

/-- √(m × 2^e) of a positive value. -/
def sqrtFin (m : Nat) (e : Int) : FOut :=
  let (m, e) := if e % 2 = 0 then (m, e) else (2 * m, e - 1)
  let x := m * 2 ^ 128
  let n := isqrt x
  fp32.round .rne false (sticky n (n * n != x)) (e / 2 - 64 - 1)

/-- 1 / √(m × 2^e) of a positive value. -/
def rsqFin (m : Nat) (e : Int) : FOut :=
  let (m, e) := if e % 2 = 0 then (m, e) else (2 * m, e - 1)
  let x := 2 ^ 256 / m
  let n := isqrt x
  fp32.round .rne false (sticky n (n * n * m != 2 ^ 256)) (-(e / 2) - 128 - 1)

/-- Fixed-point precision of the exponential. -/
def expBits : Nat := 320

/-- Σ 2^P / (k 2^k) for k from `k` on, `fuel` terms: ln 2. -/
def ln2Series : Nat → Nat → Nat
  | 0, _ => 0
  | fuel + 1, k => 2 ^ expBits / (k * 2 ^ k) + ln2Series fuel (k + 1)

/-- Σ y^k / k! in fixed point, from term `t` of index `k`. -/
def expSeries (y : Nat) : Nat → Nat → Nat → Nat
  | 0, _, _ => 0
  | fuel + 1, k, t => t + expSeries y fuel (k + 1) (t * y / 2 ^ expBits / (k + 1))

/-- 2^(x) for x = ±m × 2^e (R51). -/
def ex2Fin (neg : Bool) (m : Nat) (e : Int) : FOut :=
  if m = 0 then ⟨0x3F800000, 0⟩
  else if 9 ≤ leading m e then
    if neg then fp32.round .rne false 1 (-400) else fp32.round .rne false 1 400
  else
    let fixed : Int := (m * 2 ^ (e + expBits).toNat : Nat)
    let x := if neg then -fixed else fixed
    let n := x / 2 ^ expBits
    let f := (x % 2 ^ expBits).toNat
    if f = 0 then fp32.round .rne false 1 n
    else
      let y := f * ln2Series expBits 1 / 2 ^ expBits
      fp32.round .rne false (sticky (expSeries y 80 0 (2 ^ expBits)) true) (n - expBits - 1)

/-- `k` bits of log₂ z for 1 ≤ z < 2 in fixed point (320 bits), by repeated squaring. -/
def log2Digits : Nat → Nat → Nat → Nat
  | 0, _, acc => acc
  | k + 1, z, acc =>
    let z2 := z * z / 2 ^ expBits
    if 2 ^ (expBits + 1) ≤ z2 then log2Digits k (z2 / 2) (2 * acc + 1) else log2Digits k z2 (2 * acc)

/-- log₂ of a positive finite value (R51). -/
def lg2Fin (m : Nat) (e : Int) : FOut :=
  let k := Nat.log2 m
  let lead := (k : Int) + e
  if m = 2 ^ k then fp32.round .rne (lead < 0) lead.natAbs 0
  else
    let z := m * 2 ^ (expBits - k)
    let t : Int := lead * 2 ^ 128 + (log2Digits 128 z 0 : Nat)
    if 0 ≤ t then fp32.round .rne false (sticky t.toNat true) (-129)
    else fp32.round .rne true (sticky (-t - 1).toNat true) (-129)

/-- The special functions of R51. -/
inductive Special where
  | rcp | rsq | sqrt | ex2 | lg2
deriving DecidableEq, Repr

/-- One special function of an FP32 value, with the special cases of R51. -/
def Special.apply (g : Special) : FVal → FOut
  | .nan _ => ⟨fp32.nan, 0⟩
  | .inf neg =>
    match g, neg with
    | .rcp, n => ⟨if n then 0x80000000 else 0, 0⟩
    | .rsq, false => ⟨0, 0⟩
    | .ex2, true => ⟨0, 0⟩
    | _, false => ⟨fp32.inf false, 0⟩
    | _, true => ⟨fp32.nan, fNv⟩
  | .fin neg m e =>
    if m = 0 then
      match g with
      | .rcp | .rsq => ⟨fp32.inf neg, fDz⟩
      | .sqrt => ⟨if neg then 0x80000000 else 0, 0⟩
      | .ex2 => ⟨0x3F800000, 0⟩
      | .lg2 => ⟨fp32.inf true, fDz⟩
    else
      match g with
      | .rcp => rcpFin neg m e
      | .rsq => if neg then ⟨fp32.nan, fNv⟩ else rsqFin m e
      | .sqrt => if neg then ⟨fp32.nan, fNv⟩ else sqrtFin m e
      | .ex2 => ex2Fin neg m e
      | .lg2 => if neg then ⟨fp32.nan, fNv⟩ else lg2Fin m e

/-- An FP32 value rounded to an integral FP32 value; no flag (R163). -/
def frnd (mode : Rnd) (x : Nat) : Nat :=
  match fp32.val x with
  | .nan _ => fp32.nan
  | .inf _ => x
  | .fin neg m e =>
    let (n, _) := quantize mode neg m e 0
    (fp32.round .rne neg n 0).val

/-- `FSCALE` (R162): x × 2^k rounded once. -/
def fscale (x : Nat) (k : Int) : FOut :=
  match fp32.val x with
  | .nan _ => ⟨fp32.nan, 0⟩
  | .inf _ => ⟨x, 0⟩
  | .fin neg m e => if m = 0 then ⟨x, 0⟩ else
      let k := max (-1000) (min 1000 k)
      fp32.round .rne neg m (e + k)

/-- The class mask of `FCLASS` (R164). -/
def fclass (x : Nat) : Nat :=
  let marker := if 0x7FA00000 ≤ x ∧ x ≤ 0x7FA0008F then 2 ^ 10 else 0
  marker + match fp32.val x with
    | .nan true => 2 ^ 8
    | .nan false => 2 ^ 9
    | .inf neg => if neg then 1 else 2 ^ 7
    | .fin neg m _ =>
      if m = 0 then (if neg then 2 ^ 3 else 2 ^ 4)
      else if m < 2 ^ 23 then (if neg then 2 ^ 2 else 2 ^ 5)
      else if neg then 2 else 2 ^ 6

/-! ### Integer conversions and saturation (R45, R52, R171) -/

/-- An integer conversion's result: the value, flags, and whether it saturated. -/
structure IOut where
  val : Int
  flags : Nat
  sat : Bool

/-- Float to integer in [lo, hi] (R52, R169). -/
def toInteger (mode : Rnd) (lo hi : Int) : FVal → IOut
  | .nan _ => ⟨0, fNv, true⟩
  | .inf neg => ⟨if neg then lo else hi, fNv, true⟩
  | .fin neg m e =>
    let (n, nx) := quantize mode neg m e 0
    let x : Int := if neg then -(n : Int) else n
    if x < lo then ⟨lo, fNv, true⟩ else if hi < x then ⟨hi, fNv, true⟩ else ⟨x, if nx then fNx else 0, false⟩

/-- Integer to float (R52). -/
def ofInteger (f : Fmt) (mode : Rnd) (x : Int) : FOut := f.round mode (x < 0) x.natAbs 0

/-- Clamps to [-2^(w-1), 2^(w-1) - 1] (R171). -/
def satTo (w : Nat) (x : Int) : Int := max (-(2 ^ (w - 1) : Int)) (min (2 ^ (w - 1) - 1) x)

/-! ### Ordered dither (R60 to R62) -/

/-- The Bayer matrix B, row by row (R60). -/
def bayer : List Nat :=
  [0, 32, 8, 40, 2, 34, 10, 42] ++ [48, 16, 56, 24, 50, 18, 58, 26] ++ [12, 44, 4, 36, 14, 46, 6, 38] ++
  [60, 28, 52, 20, 62, 30, 54, 22] ++ [3, 35, 11, 43, 1, 33, 9, 41] ++ [51, 19, 59, 27, 49, 17, 57, 25] ++
  [15, 47, 7, 39, 13, 45, 5, 37] ++ [63, 31, 55, 23, 61, 29, 53, 21]

/-- Dithered rounding of a value into a format at position `p` with phase `phi` (R61); the flags are those of rne. -/
def Fmt.dither (f : Fmt) (p phi : Nat) (v : FVal) : FOut :=
  let near := f.convert .rne v
  match v with
  | .fin neg m e =>
    let a := f.round .rz neg m e
    let mag := a.val % f.signBit
    if f.maxMag ≤ mag then near
    else
      match f.val mag, f.val (mag + 1) with
      | .fin _ m1 e1, .fin _ m2 e2 =>
        let lo := min e (min e1 e2)
        let x := m * 2 ^ (e - lo).toNat
        let x1 := m1 * 2 ^ (e1 - lo).toNat
        let x2 := m2 * 2 ^ (e2 - lo).toNat
        let d := 64 * (x - x1) / (x2 - x1)
        let t := bayer.getD ((p + phi) % 64) 0
        ⟨if d ≤ t then a.val else a.val + 1, near.flags⟩
      | _, _ => near
  | _ => near

end Sys2Proof.Machine
end

