-- ==== Sys2Proof/Machine/Sums.lean ====
section
/-! DEFINITION. Deterministic sums (R200 to R204, R281 to R303): objects, lull entries and their pairing, forwarding,
spill, completion, and the words that declare and contribute. -/
namespace Sys2Proof.Machine

/-! ### Labels, residues, bins (R64, R68, R296) -/

/-- The level of a label. -/
def labelLevel (x : Word) : Nat := bits x.toNat 27 5
/-- The index of a label. -/
def labelIndex (x : Word) : Nat := bits x.toNat 0 27
/-- The label word of node (level, index). -/
def labelWord (level index : Nat) : Nat := level * 2 ^ 27 + index
/-- A label that names no node of any object (R203). -/
def labelBad (x : Word) : Bool := 27 < labelLevel x || 2 ^ 27 ≤ labelIndex x * 2 ^ labelLevel x

/-- The root level m of a tree over n leaves (R63). -/
def Decl.m (d : Decl) : Nat := if d.leaves ≤ 1 then 0 else Nat.log2 (d.leaves - 1) + 1
/-- A node is within the object's tree (R64). -/
def Decl.labelOk (d : Decl) (level index : Nat) : Bool := level ≤ d.m && index * 2 ^ level < d.leaves
/-- The number of root lines (R201). -/
def Decl.lines (d : Decl) : Nat := (d.elems + 31) / 32
/-- The address lies in an element of the object. -/
def Decl.holds (d : Decl) (va : Nat) : Bool := d.target ≤ va && va < d.target + 4 * d.elems
/-- The presence mask of the elements of a root line that lie below E. -/
def Decl.full (d : Decl) (line : Nat) : Word :=
  BitVec.ofNat 32 (2 ^ min 32 (d.elems - (line - d.target) / 4) - 1)

/-- The residue of a partial: its significand mod 7 (R296). -/
def residueOf (x : Word) : BitVec 3 :=
  let e := bits x.toNat 23 8
  let f := bits x.toNat 0 23
  BitVec.ofNat 3 (if e = 255 then 0 else if e = 0 then f % 7 else (f + 2 ^ 23) % 7)

/-- The histogram bin of a root (R68). -/
def histBin (x : Nat) : Nat :=
  let e := bits x 23 8
  if bits x 0 31 = 0 then 0
  else if e = 255 then (if bits x 0 23 = 0 then 62 else 63)
  else if e < 8 then 1 else if 244 ≤ e then 61 else e / 4

/-! ### The object table (R281) -/

/-- The object under a number. -/
def State.obj? (s : State) (n : Nat) : Option Obj := SMap.get? s.objs n

/-- Sets an object. -/
def State.setObj (s : State) (n : Nat) (o : Obj) : State := { s with objs := SMap.put s.objs n o }

/-- The live object of a context that holds an element address. -/
def State.objAt (s : State) (ctx va : Nat) : Option Nat :=
  (s.objs.find? fun e => e.2.ctx == ctx && e.2.live && e.2.decl.holds va).map (·.1)

/-- A lull; one that nothing reached is empty. -/
def State.lull (s : State) (k : Nat) : Lull := SMap.getD s.lulls k { kept := [], inbox := [], stopped := [] }

/-- Sets a lull. -/
def State.setLull (s : State) (k : Nat) (l : Lull) : State := { s with lulls := SMap.put s.lulls k l }

/-- The number of a lull (R282, R300): core c, 256 + slice, 512 + Ectal engine, 768 + port. -/
def lullKey : LullId → Nat
  | .core c => c | .slice i => 256 + i | .ectal s => 512 + s | .port p => 768 + p

/-- Entries of an object held in lulls or in spill records (R281). -/
def State.entriesOf (s : State) (n : Nat) (o : Obj) : Nat :=
  o.spills + s.lulls.foldl (fun k e => k + ((e.2.kept ++ e.2.inbox).filter fun x => x.obj == some n).length) 0

/-- Where an access for an object lands, with the rights of the warp that declared it. -/
def State.objLoc (s : State) (o : Obj) (va : Nat) (k : Access) : Except Cause Loc :=
  s.translate hubUnit o.ctx va { mmio := false, host := false } k o.super

/-- One status word goes to its place (R201), on the device where the record was declared; none: it waits for its line. -/
def State.putStatus (s : State) (n dev : Nat) (loc : Loc) (v : Nat) : Option State :=
  let away := fun (s : State) =>
    let m := Config.encodeMsg (.poke loc (bytesLE 4 v))
    ({ s with storesOut := s.storesOut ++ [.obj n] } : State).enqueue dev
      { flit := s.newFlit 1 dev 0 m.1 m.2, core := 192, draw := true, ack := .store (some (.obj n)) none }
  match loc with
  | .mem _ => if s.devWritable loc then some (s.devStore 192 (.obj n) loc (bytesLE 4 v)) else none
  | _ => if dev != s.self then some (away s) else if s.writable loc then some (s.writeEvent none loc (bytesLE 4 v)) else none

/-- The status words that are owed go to their places, in order; the lines that some of them need are asked for. -/
def State.pumpStatus (s : State) : State :=
  s.owedStatus.foldl (fun (s : State) x => match s.putStatus x.1 x.2.1 x.2.2.1 x.2.2.2 with
    | some s => s
    | none => { (s.request 192 0 x.2.2.1 true).1 with owedStatus := s.owedStatus ++ [x] }) { s with owedStatus := [] }

/-- Writes an object's status (R201): into its record where it has one. -/
def State.objStatus (s : State) (n : Nat) (v : Nat) : State :=
  match s.obj? n with
  | none => s
  | some o =>
    let s := s.setObj n { o with status := v }
    match o.statusAt with
    | none => s
    | some (dev, loc) => State.pumpStatus { s with owedStatus := s.owedStatus ++ [(n, dev, loc, v)] }

/-- Every store that the device made for an object has been performed. -/
def State.objStored (s : State) (n : Nat) : Bool := s.stored (.obj n) && !(s.owedStatus.any fun x => x.1 = n)

/-- A port owes the return of a credit of a class (R348, R350). -/
def State.oweCredit (s : State) (p cls : Nat) : State :=
  let x := s.port p
  s.setPort p { x with credOwed := x.credOwed.modify cls (· + 1) }

/-- The credit withheld for an entry is returned. -/
def State.freeCredit (s : State) (e : LullEntry) : State :=
  match e.credit with
  | none => s
  | some p => s.oweCredit p 0

/-! ### The spill area (R291 to R293) -/

/-- Physical base of a context's spill area (R392). -/
def State.spillBase (s : State) (ctx : Nat) : Nat := ctxField (s.ctxEntry ctx) 128 64
/-- Records of a context's spill area (R392). -/
def State.spillRecs (s : State) (ctx : Nat) : Nat :=
  let r := ctxField (s.ctxEntry ctx) 320 32
  if r = 0 then 4194304 else r

/-- Index `j` of the probe sequence of R292. -/
def spillIndex (recs line lab j : Nat) : Nat :=
  ((line / 128 ^^^ (lab * 0x9E3779B1) % 2 ^ 32) % 2 ^ 32 % recs + j) % recs

/-- A record of 256 bytes as a number, and whether it is in use. -/
def State.spillRecord (s : State) (base i : Nat) : Nat := s.memNat (base + 256 * i) 256

/-- The record of an entry (R292). -/
def LullEntry.record (e : LullEntry) : Nat :=
  leNat (rowBytes e.vals) + lanesUp.foldl (fun n l => n + e.res[l].toNat * 2 ^ (1024 + 3 * l.val)) 0 +
    e.present.toNat * 2 ^ 1120 + labelWord e.level e.index * 2 ^ 1152 + (e.obj.getD 0xFFFF) % 2 ^ 16 * 2 ^ 1184 +
    2 ^ 1200 + (if e.rootc then 2 ^ 1201 else 0) + e.line * 2 ^ 1216

/-- The entry of a record of context `ctx`; its object is resolved again (R293). -/
def entryOfRecord (r ctx : Nat) : LullEntry :=
  { ctx := ctx, line := bits r 1216 64, obj := none, level := bits r 1179 5, index := bits r 1152 27
    present := BitVec.ofNat 32 (bits r 1120 32), vals := Lanes.ofFn fun l => BitVec.ofNat 32 (bits r (32 * l.val) 32)
    res := Lanes.ofFn fun l => BitVec.ofNat 3 (bits r (1024 + 3 * l.val) 3), core := 0, block := 0
    rootc := bits r 1201 1 = 1, apart := false, credit := none, seq := 0 }

/-- The record at an index is in use. -/
def State.spillUsed (s : State) (base i : Nat) : Bool := bits (s.spillRecord base i) 1200 1 = 1

/-- Frees the record at an index. -/
def State.spillFree (s : State) (base i : Nat) : State :=
  let pa := base + 256 * i + 150
  s.writeEvent none (.mem pa) [(Memory.read s.mem pa) &&& 0xFE]

/-- The first free index of the 64 where a record may stand (R292). -/
def State.spillSlot (s : State) (base recs line lab : Nat) : Option Nat :=
  ((List.range 64).map (spillIndex recs line lab)).find? fun i => !s.spillUsed base i

/-- The indices of the records in use in an area, ascending. -/
def State.spillValid (s : State) (base recs : Nat) : List Nat :=
  s.mem.filterMap fun c =>
    if base ≤ c.1 && c.1 < base + 256 * recs && (c.1 - base) % 256 == 150 && c.2.getLsbD 0 then some ((c.1 - base) / 256)
    else none

/-- One more record of an object is in use, or one fewer. -/
def State.spillCount (s : State) (n : Option Nat) (up : Bool) : State :=
  match n with
  | none => s
  | some n => match s.obj? n with
    | none => s
    | some o =>
      if up then s.setObj n { o with spilled := true, spills := o.spills + 1 }
      else s.setObj n { o with spills := o.spills - 1 }

/-- The elements of a record that belong to an object: those of its root lines below E (R204). -/
def Obj.covers (o : Obj) (ctx line : Nat) (present : LaneMask) : LaneMask :=
  if o.ctx = ctx && o.decl.target ≤ line && line < o.decl.target + 128 * o.decl.lines then present &&& o.decl.full line else 0

/-- The object that counts an entry's record: its own, or the live one that covers an arrival which no lull has processed (R298). -/
def State.ownerOf (s : State) (e : LullEntry) : Option Nat :=
  match e.obj with
  | some n => some n
  | none => if e.apart then none else (s.objs.find? fun x => x.2.live && x.2.covers e.ctx e.line e.present != 0).map (·.1)

/-- Places a record of an entry (R291, R292); none when the 64 indices are in use. -/
def State.spillPlace (s : State) (e : LullEntry) : Option State :=
  let base := s.spillBase e.ctx
  match s.spillSlot base (s.spillRecs e.ctx) e.line (labelWord e.level e.index) with
  | none => none
  | some i =>
    let s := s.writeEvent none (.mem (base + 256 * i)) (bytesLE 256 e.record)
    some (((s.spillCount (s.ownerOf e) true).countLife 65).freeCredit e)

/-- A spill area with no place for an entry (R292): its lull stops the context, and a fault of cause 2 is raised. -/
def State.spillFull (s : State) (k : Nat) (e : LullEntry) : State :=
  let f := faultOf .pageFault e.line 0 e.ctx (if 512 ≤ k && k < 768 then 193 + (k - 512) else 192) 0 0 1 (.spill k e)
  let (s, _) := s.newFault { f with cause := 2 }
  let l := s.lull k
  s.setLull k { l with stopped := l.stopped ++ [e.ctx] }

/-- Takes a final lull's entry out of the lull and spills it; a full area keeps the entry, stops the context at this lull
and raises a fault of cause 2 (R292). The answer says whether the entry left. -/
def State.spillEntry (s : State) (k : Nat) (e : LullEntry) : State × Bool :=
  match s.spillPlace e with
  | some s =>
    let l := s.lull k
    (s.setLull k { l with kept := l.kept.erase e }, true)
  | none => (s.spillFull k e, false)

/-- The elements of spill record `r` that belong to an object of its context. -/
def Obj.ofRecord (o : Obj) (r : Nat) : LaneMask := o.covers o.ctx (bits r 1216 64) (BitVec.ofNat 32 (bits r 1120 32))

/-- A record loses an object's elements: it is freed, or keeps the elements beyond the object as an undeclared entry's. -/
def State.cutRecord (s : State) (base : Nat) (o : Obj) (i : Nat) : State :=
  let r := s.spillRecord base i
  let mine := o.ofRecord r
  let rest := BitVec.ofNat 32 (bits r 1120 32) &&& ~~~mine
  if mine = 0 then s
  else if rest = 0 then s.spillFree base i
  else s.writeEvent none (.mem (base + 256 * i)) (bytesLE 256 (setBits (setBits r 1120 32 rest.toNat) 1184 16 0xFFFF))

/-- Discards every entry of an object, in lulls and in spill records (R204, R295). -/
def State.dropEntries (s : State) (n : Nat) : State :=
  match s.obj? n with
  | none => s
  | some o =>
    let mine := fun (x : LullEntry) => x.obj == some n
    let s := (s.lulls.flatMap fun e => (e.2.kept ++ e.2.inbox).filter mine).foldl State.freeCredit s
    let s := { s with lulls := s.lulls.map fun e =>
      (e.1, { e.2 with kept := e.2.kept.filter (!mine ·), inbox := e.2.inbox.filter (!mine ·) }) }
    if o.spills = 0 then s
    else
      let base := s.spillBase o.ctx
      (s.spillValid base (s.spillRecs o.ctx)).foldl (fun s i => s.cutRecord base o i) s

/-- An object's entry is freed (R281): it stops being live, its reports are over. What is still held of it, which can pair with nothing
any more, goes with it. -/
def State.eraseObj (s : State) (n : Nat) : State :=
  let s := s.dropEntries n
  { s with objs := SMap.del s.objs n, reports := s.reports.filter (·.obj != n) }

/-- The devices that know an object forget it: those that its home told of it, or its home itself, which stops it for its instance. -/
def State.tellRetired (s : State) (o : Obj) : State :=
  if !o.domain then s
  else if o.home = s.self then s.others.foldl (fun s d => s.sendMsg 192 d false true (.retire o.ctx o.decl.target)) s
  else if o.inst.isSome then s.sendMsg 192 o.home false true (.retire o.ctx o.decl.target)
  else s

/-- An object ends before its last line, and the devices that know it are told. -/
def State.freeObj (s : State) (n : Nat) : State :=
  match s.obj? n with
  | none => s
  | some o => (s.eraseObj n).tellRetired o

/-- The devices that know a completed object forget it; its final counter addition waits for them, so that no reader of it meets the
object live (R202, R303). -/
def State.retireFirst (s : State) (n : Nat) (o : Obj) : State :=
  if !(o.domain && o.home = s.self) then s
  else s.others.foldl (fun s d =>
    let m := Config.encodeMsg (.retire o.ctx o.decl.target)
    ({ s with storesOut := s.storesOut ++ [.obj n] } : State).enqueue d
      { flit := s.newFlit 1 d 0 m.1 m.2, core := 192, draw := true, ack := .store (some (.obj n)) none }) s

/-- The object stops with a status (R202, R204): its entries are discarded, root lines already written stay. -/
def State.stopObj (s : State) (n v : Nat) : State := (s.objStatus n v).freeObj n

/-- A residue mismatch (R296): it is logged; an object whose partial it is takes status 2, and goes on. -/
def State.residueFail (s : State) (n : Option Nat) : State :=
  let o := n.bind s.obj?
  let s := match n, o with
    | some n, some o => if o.status = 0 then s.objStatus n 2 else s
    | _, _ => s
  (s.countLife 66).logSoft
    { struct := 10, corrected := false, action := 3, pa := 0, ctx := BitVec.ofNat 12 (o.elim 0 (·.ctx)) |>.toNat, unit := 0,
      warp := none, window := 0, object := n }

/-- Some partial of the entry disagrees with its residue. -/
def LullEntry.corrupt (e : LullEntry) : Bool := lanesUp.any fun l => e.present.getLsbD l.val && e.res[l] != residueOf e.vals[l]

/-- A lull reads an entry: it checks every residue again (R296). -/
def State.checkEntry (s : State) (e : LullEntry) : State := if e.corrupt then s.residueFail e.obj else s

/-! ### Where an entry goes (R282, R289, R290, R300, R301) -/

/-- The next lull of an entry: one of this device, or the device it crosses to. -/
inductive Dest where
  | here (k : Nat)
  | away (d : Nat)
deriving DecidableEq, Repr

/-- The physical address of a root line; one that does not translate counts as the device's first line. -/
def State.linePa (s : State) (ctx line : Nat) : Nat :=
  match s.leafNow hubUnit ctx line with
  | .error _ => s.self * 2 ^ 48
  | .ok (leaf, lgsz) => match leafLoc leaf lgsz line with
    | .mem pa => pa
    | _ => s.self * 2 ^ 48

/-- The final lull of a local line of an object that is no domain object (R282). -/
def localFinal (pa : Nat) : Nat :=
  if 0x010000000000 ≤ pa % 2 ^ 48 then 256 + homeSlice pa else 512 + pa % 2 ^ 48 / 2 ^ 36

/-- The designated port lull of a line (R300). -/
def portLull (line : Nat) : Nat := 768 + line / 128 % 15

/-- The final lull of an entry. -/
def State.finalOf (s : State) (e : LullEntry) : Dest :=
  let pa := s.linePa e.ctx e.line
  match e.obj.bind s.obj? with
  | some o => if o.domain then (if o.home = s.self then .here (portLull e.line) else .away o.home) else .here (localFinal pa)
  | none => if pa / 2 ^ 48 = s.self then .here (localFinal pa) else .away (pa / 2 ^ 48)

/-- The lull is final for the entry; an undeclared entry that came to a port lull is held there (R302). -/
def State.isFinal (s : State) (k : Nat) (e : LullEntry) : Bool :=
  (e.obj.isNone && 768 ≤ k) || s.finalOf e == .here k

/-- The next lull on the way: core lull, home slice lull, final lull; a domain object's entry skips the slice (R301). -/
def State.nextOf (s : State) (k : Nat) (e : LullEntry) : Dest :=
  match s.finalOf e with
  | .away d => .away d
  | .here f => if k < 256 && f < 768 then .here (256 + homeSlice (s.linePa e.ctx e.line)) else .here f

/-- The payload of a lull-entry flit (R339). -/
def LullEntry.payload (e : LullEntry) : List Byte :=
  rowBytes e.vals ++ bytesLE 12 (lanesUp.foldl (fun n l => n + e.res[l].toNat * 2 ^ (3 * l.val)) 0) ++ w4 e.present ++
    bytesLE 4 (labelWord e.level e.index) ++ List.replicate 4 0 ++ bytesLE 8 e.line ++ bytesLE 4 e.ctx ++
    List.replicate 60 0

/-- An entry leaves lull `k`: into the inbox of a lull here, or as one flit toward another device, on its core's allowance
when it leaves a core lull (R301, R349). -/
def State.sendOn (s : State) (k : Nat) (e : LullEntry) : Dest → State
  | .here f =>
    let l := s.lull f
    s.setLull f { l with inbox := l.inbox ++ [e] }
  | .away d =>
    (s.freeCredit e).enqueue d { flit := s.newFlit 5 d 0 0 e.payload, core := if k < 192 then k else 192, draw := true, ack := .none }

/-- The entry leaves at once (R289, R290): undeclared or at a port that is not its own, or at the breakpoint level. -/
def State.leavesNow (s : State) (k : Nat) (e : LullEntry) : Bool :=
  !s.isFinal k e &&
    match e.obj.bind s.obj? with
    | none => true
    | some o => 512 ≤ k || e.rootc || min (if k < 256 then o.decl.corebp else o.decl.slicebp) o.decl.m ≤ e.level

/-- Capacities (R283, R301). -/
def lullCap (k : Nat) : Nat := if k < 256 then 512 else if k < 512 then 2048 else if k < 768 then 8192 else 1024

/-- A reduce entry of a plan instance that has not started is held in a port lull (R302, R313). -/
def HeldWrite.heldAt (k : Nat) (a : HeldWrite) : Bool := a.place == .lull && portLull a.line = k

/-- Held reduce entries of plan instances take room in their port lull. -/
def State.planHeld (s : State) (k : Nat) : Nat := (s.heldWrites.filter (HeldWrite.heldAt k)).length

/-- A held reduce entry as the undeclared lull entry that it is (R313). -/
def HeldWrite.entry (a : HeldWrite) : LullEntry :=
  let (lab, present, res) := a.label.getD (0, 0, 0)
  { ctx := a.ctx, line := a.line, obj := none, level := labelLevel lab, index := labelIndex lab, present := present
    vals := Lanes.ofFn fun l => BitVec.ofNat 32 (leNat ((a.data.drop (4 * l.val)).take 4))
    res := Lanes.ofFn fun l => BitVec.ofNat 3 (res / 2 ^ (3 * l.val)), core := 192, block := 0, rootc := false, apart := false
    credit := a.credit, seq := a.seq }

/-- A held reduce entry spills (R313): its record stands for it, and its credit goes back. One that came through an Ultra Ethernet port
names no address, and stays. -/
def State.spillHeld (s : State) (k : Nat) (a : HeldWrite) : State × Bool :=
  if (a.rx.isNone && a.work.isNone) || (s.lull k).stopped.contains a.ctx then (s, false)
  else match s.spillPlace a.entry with
    | some s => ({ s with heldWrites := s.heldWrites.map fun x =>
        if x.seq = a.seq then { x with place := .spilled, credit := none } else x }, true)
    | none => (s.spillFull k a.entry, false)

/-- A held reduce entry takes its place among the entries of its lull, by age. -/
def placeHeld (a : HeldWrite) : List (LullEntry ⊕ HeldWrite) → List (LullEntry ⊕ HeldWrite)
  | [] => [.inr a]
  | .inl e :: rest => if a.seq < e.seq then .inr a :: .inl e :: rest else .inl e :: placeHeld a rest
  | .inr b :: rest => .inr b :: placeHeld a rest

/-- What a lull may give up, oldest first, root collections last (R289, R291). -/
def State.leavers (s : State) (k : Nat) : List (LullEntry ⊕ HeldWrite) :=
  let l := s.lull k
  (s.heldWrites.filter (HeldWrite.heldAt k)).foldl (fun xs a => placeHeld a xs) ((l.kept.filter fun e => !e.rootc).map .inl) ++
    (l.kept.filter fun e => e.rootc).map .inl

/-- Entry by entry, until one leaves or spills; those of a stopped context stay (R292). -/
def State.makeRoomFrom (k : Nat) : List (LullEntry ⊕ HeldWrite) → State → State × Bool
  | [], s => (s, false)
  | .inr a :: rest, s =>
    match s.spillHeld k a with
    | (s, true) => (s, true)
    | (s, false) => State.makeRoomFrom k rest s
  | .inl e :: rest, s =>
    if s.isFinal k e then
      if (s.lull k).stopped.contains e.ctx then State.makeRoomFrom k rest s
      else match s.spillEntry k e with
        | (s, true) => (s, true)
        | (s, false) => State.makeRoomFrom k rest s
    else
      let l := s.lull k
      ((s.setLull k { l with kept := l.kept.erase e }).sendOn k e (s.nextOf k e), true)

/-- A full lull makes room: its oldest entry leaves or spills, root collections last (R289, R291); false: no entry can go. -/
def State.makeRoom (s : State) (k : Nat) : State × Bool :=
  let l := s.lull k
  if l.kept.length + s.planHeld k < lullCap k then (s, true)
  else State.makeRoomFrom k (s.leavers k) s

/-- The lull keeps an entry; one for which no room can be made waits before its other arrivals. -/
def State.hold (s : State) (k : Nat) (e : LullEntry) : State :=
  match s.makeRoom k with
  | (s, true) =>
    let l := s.lull k
    s.setLull k { l with kept := l.kept ++ [e] }
  | (s, false) =>
    let l := s.lull k
    s.setLull k { l with inbox := e :: l.inbox }

/-- The lull keeps an entry, or lets it leave at once. -/
def State.keepEntry (s : State) (k : Nat) (e : LullEntry) : State :=
  if s.leavesNow k e then s.sendOn k e (s.nextOf k e) else s.hold k e

/-- The kept entries that satisfy a test leave for their next lull, oldest first. -/
def State.forwardWhere (s : State) (k : Nat) (p : LullEntry → Bool) : State :=
  let l := s.lull k
  let go := l.kept.filter fun e => p e && !s.isFinal k e
  let s := s.setLull k { l with kept := l.kept.filter fun e => !(p e && !s.isFinal k e) }
  go.foldl (fun s e => s.sendOn k e (s.nextOf k e)) s

/-- Every entry made by a block leaves its core lull (R289). -/
def State.forwardBlock (s : State) (bid : Nat) : State :=
  match SMap.get? s.blocks bid with
  | none => s
  | some b => s.forwardWhere b.core fun e => e.block == bid

/-! ### Work entries and counters of a plan instance (R307, R309, R310) -/

/-- The fields of a work entry. -/
structure Work where
  thr : Nat
  arm : Nat
  sig : Nat
  done : Nat
  reduce : Bool
  ue : Bool
  peer : Nat
  fromDst : Bool
  label : Word
  len : Nat
  doff : Nat
  soff : Nat

/-- Reads a work entry. -/
def Work.of (b : BitVec 256) : Work :=
  let w := b.toNat
  { thr := bits w 224 32, arm := bits w 212 12, sig := bits w 200 12, done := bits w 188 12, reduce := bits w 184 4 = 1
    ue := bits w 183 1 = 1, peer := bits w 168 8, fromDst := bits w 160 1 = 1, label := BitVec.ofNat 32 (bits w 128 32)
    len := bits w 96 32, doff := bits w 32 32, soff := bits w 0 32 }

/-- A work entry that has not fired is armed (R310). -/
def Inst.armed (x : Inst) (index : Nat) : Bool :=
  !x.fired.contains index && match x.plan.work[index]? with
    | none => false
    | some b => (Work.of b).thr ≤ (x.ctrs.getD (Work.of b).arm 0).toNat

/-- The entries that are armed now will fire, whatever their counters do later (R310): each begins to read. -/
def Inst.latch (x : Inst) : Inst :=
  { x with got := (List.range x.plan.work.length).foldl (fun g k =>
      if x.armed k && (SMap.get? g k).isNone then SMap.put g k [] else g) x.got }

/-- A counter of an instance advances, modulo 2^32 (R309). -/
def State.advanceCtr (s : State) (i c n : Nat) : State :=
  match SMap.get? s.insts i with
  | none => s
  | some x =>
    let x := x.latch
    { s with insts := SMap.put s.insts i (Inst.latch { x with ctrs := x.ctrs.modify c (· + BitVec.ofNat 32 n) }) }

/-! ### Pairing and completion (R285, R294) -/

/-- A kept entry of the same object, line and label (level, `index`) that is no root collection. -/
def State.keptAt (s : State) (k : Nat) (e : LullEntry) (index : Nat) : Option LullEntry :=
  (s.lull k).kept.find? fun x =>
    x.obj == e.obj && x.line == e.line && x.ctx == e.ctx && x.level == e.level && x.index == index && !x.rootc

/-- Takes an entry out of a lull, kept or not processed yet. -/
def State.takeAny (s : State) (k : Nat) (e : LullEntry) : State :=
  let l := s.lull k
  s.setLull k (if l.kept.contains e then { l with kept := l.kept.erase e } else { l with inbox := l.inbox.erase e })

/-- Takes an entry out of a lull. -/
def State.takeKept (s : State) (k : Nat) (e : LullEntry) : State :=
  let l := s.lull k
  s.setLull k { l with kept := l.kept.erase e }

/-- The device that holds a location. -/
def State.homeOf (s : State) : Loc → Nat
  | .mem pa => pa / 2 ^ 48
  | _ => s.self

/-- Writes the roots of a complete collection (R294): one event per element, the histogram increment, the report. A page
that faults suspends the line under a fault of cause 3 (R202); a line that is not here is asked for. -/
def State.writeRoots (s : State) (k n : Nat) (o : Obj) (e : LullEntry) : State :=
  match s.objLoc o e.line .write with
  | .error (.table pa) => (s.request 192 0 (.mem pa) false).1
  | .error c =>
    let f := faultOf c e.line ((e.line - o.decl.target) / 4) o.ctx
      (if 512 ≤ k && k < 768 then 193 + (k - 512) else o.core) o.slot 0 1 (.root k e.ctx e.line)
    (s.newFault { f with cause := 3, block := o.block }).1
  | .ok loc =>
    if s.homeOf loc != o.home then
      let f := faultOf (.protection 2) e.line ((e.line - o.decl.target) / 4) o.ctx
        (if 512 ≤ k && k < 768 then 193 + (k - 512) else o.core) o.slot 0 1 (.root k e.ctx e.line)
      (s.newFault { f with cause := 3, block := o.block }).1
    else match (if o.decl.full e.line &&& 0xFFFF0000 = 0 then [loc] else [loc, loc.plus 64]).find? fun l => !s.writable l with
    | some l => (s.request 192 0 l true).1
    | none =>
      let s := (s.checkEntry e).takeKept k e
      let els := lanesUp.filter fun l => (o.decl.full e.line).getLsbD l.val
      let s := els.foldl (fun s l => s.writeEvent none (loc.plus (4 * l.val)) (bytesLE 4 (rootValue e.vals[l].toNat))) s
      let incr := (List.range 64).map fun b => (els.filter fun l => histBin (rootValue e.vals[l].toNat) == b).length
      let s := match s.obj? n with
        | none => s
        | some o => s.setObj n { o with wrote := o.wrote ++ [e.line] }
      let s := match o.inst, o.instOf with
        | some i, _ => s.advanceCtr i 1 1
        | none, some (d, i) => s.sendMsg 192 d true false (.rootLine i)
        | none, none => s
      { s with reports := s.reports ++ [{ obj := n, incr := incr, fault := none, stage := 0 }] }

/-- Every complete collection of a final lull whose line is not yet written is written, unless a fault holds it. -/
def State.flushRoots (s : State) (k : Nat) : State :=
  (s.lull k).kept.foldl (fun s e =>
    match e.obj.bind fun n => (s.obj? n).map fun o => (n, o) with
    | none => s
    | some (n, o) =>
      if e.rootc && e.present &&& o.decl.full e.line == o.decl.full e.line && !o.wrote.contains e.line &&
          !(s.efaults.any fun f => f.2.what == .root k e.ctx e.line) then s.writeRoots k n o e
      else s) s

/-- A root arrives at the final lull and joins its line's collection (R294); the same root twice gives status 3. -/
def State.collectRoot (s : State) (k n : Nat) (e : LullEntry) : State :=
  match (s.lull k).kept.find? fun x => x.rootc && x.obj == some n && x.line == e.line with
  | none => s.hold k { e with rootc := true }
  | some c =>
    let s := s.checkEntry c
    if c.present &&& e.present != 0 then s.stopObj n 3
    else
      let c' := { c with
        present := c.present ||| e.present
        vals := Lanes.ofFn fun l => if e.present.getLsbD l.val then e.vals[l] else c.vals[l]
        res := Lanes.ofFn fun l => if e.present.getLsbD l.val then e.res[l] else c.res[l] }
      let l := s.lull k
      s.setLull k { l with kept := l.kept.map fun x => if x == c then c' else x }

/-- Two entries of one label become one (R285). -/
def mergeEntries (a b : LullEntry) : LullEntry :=
  { a with
    present := a.present ||| b.present
    vals := Lanes.ofFn fun l => if b.present.getLsbD l.val then b.vals[l] else a.vals[l]
    res := Lanes.ofFn fun l => if b.present.getLsbD l.val then b.res[l] else a.res[l] }

/-- Significand with the hidden bit, exponent field of the significand's unit, and sign of a partial. -/
def partialOf (x : Word) : Nat × Nat × Int :=
  let e := bits x.toNat 23 8
  let f := bits x.toNat 0 23
  (if e = 0 then f else f + 2 ^ 23, max e 1, if x.getLsbD 31 then -1 else 1)

/-- The adder's check before it rounds (R296): the residues of two partials against their exact aligned sum. An infinity or a NaN
has no significand to check. -/
def adderOk (x y : Word) (rx ry : BitVec 3) : Bool :=
  let (mx, ex, sx) := partialOf x
  let (my, ey, sy) := partialOf y
  if ex = 255 || ey = 255 then true
  else
    let dx := ex - min ex ey
    let dy := ey - min ex ey
    (sx * rx.toNat * 2 ^ (dx % 3) + sy * ry.toNat * 2 ^ (dy % 3)) % 7 == (sx * mx * 2 ^ dx + sy * my * 2 ^ dy) % 7

/-- Two siblings, the lower index first. -/
def inOrder (a b : LullEntry) : LullEntry × LullEntry := if a.index % 2 = 0 then (a, b) else (b, a)

/-- An addition of two siblings over the elements of `q` fails the adder's check. -/
def adderFails (a b : LullEntry) (q : LaneMask) : Bool :=
  let (l, r) := inOrder a b
  lanesUp.any fun e => q.getLsbD e.val && !adderOk l.vals[e] r.vals[e] l.res[e] r.res[e]

/-- The parent of two siblings over the elements of `q` (R285, R66): the lower index is the first operand. Its block is that of `a`, which
arrived (DESIGN CHOICE, log entry 109). -/
def parentEntry (a b : LullEntry) (q : LaneMask) : LullEntry :=
  let (l, r) := inOrder a b
  let v : Lanes Word := Lanes.ofFn fun e => BitVec.ofNat 32 (treeAdd l.vals[e].toNat r.vals[e].toNat)
  { a with level := a.level + 1, index := a.index / 2, present := q, vals := v, res := Lanes.ofFn fun e => residueOf v[e] }

/-- An entry's object now: a stopped one matches nothing (R204); an undeclared entry is split between a live object that
holds its line and what lies beyond that object. -/
def State.resolve (s : State) (e : LullEntry) : List LullEntry :=
  match e.obj with
  | some n => if (s.obj? n).isSome then [e] else [{ e with obj := none }]
  | none =>
    if e.apart then [e]
    else match s.objs.find? fun x => x.2.live && x.2.covers e.ctx e.line 0xFFFFFFFF != 0 with
      | none => [e]
      | some (n, o) =>
        let inside := o.covers e.ctx e.line e.present
        let outside := e.present &&& ~~~inside
        (if inside = 0 then [] else [{ e with obj := some n, present := inside }]) ++
          if outside = 0 then [] else [{ e with present := outside, apart := true, credit := if inside = 0 then e.credit else none }]

/-- A record's entry becomes a kept entry (R291): it joins what the lull keeps under its label. -/
def State.absorb (s : State) (k : Nat) (x : LullEntry) : State :=
  let s := s.checkEntry x
  match x.obj with
  | none => s.hold k x
  | some n =>
    if x.rootc then s.collectRoot k n x
    else match s.keptAt k x x.index with
      | none => s.hold k x
      | some b => if b.present &&& x.present != 0 then s.stopObj n 3 else (s.takeKept k b).hold k (mergeEntries b x)

/-- A final lull reads back the spilled records of a label and of its sibling (R291), whose object is resolved again (R293). -/
def State.searchSpill (s : State) (k : Nat) (e : LullEntry) : State :=
  let base := s.spillBase e.ctx
  let recs := s.spillRecs e.ctx
  let labels := [labelWord e.level e.index, labelWord e.level (e.index ^^^ 1)]
  let places := labels.flatMap fun lab => ((List.range 64).map (spillIndex recs e.line lab)).eraseDups.map fun i => (lab, i)
  places.foldl (fun s p =>
    let r := s.spillRecord base p.2
    if bits r 1200 1 = 1 && bits r 1216 64 == e.line && bits r 1152 32 == p.1 then
      let xs := s.resolve (entryOfRecord r e.ctx)
      let s := (s.spillFree base p.2).spillCount ((xs.head?).bind (·.obj)) false
      xs.foldl (fun s x => s.absorb k x) s
    else s) s

/-- The loop of R285 for an entry of a live object at lull `k`; an object that has stopped discards it. -/
def State.pairLoop (k : Nat) : Nat → State → LullEntry → State
  | 0, s, a => s.keepEntry k a
  | fuel + 1, s, a =>
    match a.obj.bind fun n => (s.obj? n).map fun o => (n, o) with
    | none => s
    | some (n, o) =>
      let s := if s.isFinal k a && o.spilled then s.searchSpill k a else s
      if (s.obj? n).isNone then s
      else if a.level = o.decl.m && a.index = 0 then
        if s.isFinal k a then s.collectRoot k n a else s.sendOn k { a with rootc := true } (s.finalOf a)
      else if o.decl.leaves ≤ (a.index ^^^ 1) * 2 ^ a.level then
        State.pairLoop k fuel s { a with level := a.level + 1, index := a.index / 2 }
      else match s.keptAt k a a.index with
        | some b =>
          let s := s.checkEntry b
          if b.present &&& a.present != 0 then s.stopObj n 3
          else State.pairLoop k fuel (s.takeKept k b) (mergeEntries a b)
        | none => match s.keptAt k a (a.index ^^^ 1) with
          | none => s.keepEntry k a
          | some sib =>
            let q := sib.present &&& a.present
            if q = 0 then s.keepEntry k a
            else
              let s := s.checkEntry sib
              let s := if adderFails a sib q then s.residueFail a.obj else s
              let rest := { sib with present := sib.present &&& ~~~q }
              let l := s.lull k
              let s := if rest.present = 0 then s.takeKept k sib
                else s.setLull k { l with kept := l.kept.map fun x => if x == sib then rest else x }
              let mine := { a with present := a.present &&& ~~~q }
              let s := if mine.present = 0 then s else s.keepEntry k mine
              State.pairLoop k fuel s (parentEntry a sib q)

/-- One resolved entry at lull `k`: undeclared ones are held, after a search (R291), or go on; declared ones pair (R285, R288). -/
def State.process (s : State) (k : Nat) (e : LullEntry) : State :=
  match e.obj.bind fun n => (s.obj? n).map fun o => (n, o) with
  | none => (if s.isFinal k e then s.searchSpill k e else s).keepEntry k e
  | some (n, o) =>
    let s := s.freeCredit e
    let e := { e with credit := none }
    if !o.decl.labelOk e.level e.index then s.stopObj n 5
    else State.pairLoop k (200 + (s.lull k).kept.length) (s.checkEntry e) e

/-- An entry arrives at lull `k`; one of a context that is stopped there waits (R292, R393). -/
def State.arriveAt (s : State) (k : Nat) (e : LullEntry) : State :=
  let l := s.lull k
  if l.stopped.contains e.ctx then s.setLull k { l with inbox := l.inbox ++ [e] }
  else
    let e := { e with seq := s.lullSeq }
    ((s.resolve e).foldl (fun (s : State) x => s.process k x) { s with lullSeq := s.lullSeq + 1 }).flushRoots k

/-- `LULL_ARRIVAL` (R285): a lull takes the oldest arrival of a context that is not stopped there. -/
def execLullArrival (lull : LullId) (s : State) : Res :=
  let k := lullKey lull
  let l := s.lull k
  match l.inbox.find? fun e => !l.stopped.contains e.ctx with
  | none => notDue s
  | some e => .next ((s.setLull k { l with inbox := l.inbox.erase e }).arriveAt k e)

/-- `LULL_FORWARD_TIMEOUT` (R289): 4,096 clocks without a change pass for entry number `key` of a core or slice lull. -/
def execLullForwardTimeout (lull : LullId) (key : Nat) (s : State) : Res :=
  let k := lullKey lull
  match (s.lull k).kept[key]? with
  | none => notDue s
  | some e =>
    if 512 ≤ k || s.isFinal k e then notDue s
    else .next ((s.takeKept k e).sendOn k e (s.nextOf k e))

/-! ### Completion at the object home slice (R295) -/

/-- The bytes of the histogram (R68). -/
def histBytes (bins : List Nat) : List Byte := bins.flatMap fun b => bytesLE 4 b

/-- Where the counter, and at the last line the status and the four 64-byte parts of the histogram, stand. -/
def State.reportLocs (s : State) (o : Obj) (last : Bool) : List (Except Cause Loc) :=
  s.objLoc o o.decl.counter .rmw ::
    if last then (List.range 4).map fun j => s.objLoc o (o.decl.hist + 64 * j) .write else []

/-- The oldest report of an object goes on from its stage (R295); the answer none: it waits for a line, which is asked for, or for
stores that are on their way. The last line's status precedes the histogram, and that the counter. -/
def State.lineStage (s : State) (r : LineDone) (o : Obj) (ok : List Loc) : State × Bool :=
  let set := fun (s : State) (k : Nat) => { s with reports := s.reports.replace r { r with stage := k } }
  match r.stage with
  | 0 =>
    let bins := (o.bins.zip r.incr).map fun x => min (2 ^ 32 - 1) (x.1 + x.2)
    let s := s.setObj r.obj { o with bins := bins, lines := o.lines + 1 }
    if o.lines + 1 != o.decl.lines then (set s 2, true)
    else
      let held : Bool := s.entriesOf r.obj o != 0
      let s := if held then s.dropEntries r.obj else s
      (set (if o.status = 0 then s.objStatus r.obj (if held then 3 else 1) else s) 1, true)
  | 1 =>
    if !s.objStored r.obj then (s, false)
    else match ok.tail.find? fun l => !s.devWritable l with
      | some l => ((s.request 192 0 l true).1, false)
      | none =>
        let s := (ok.tail.zipIdx).foldl (fun s x => s.devStore 192 (.obj r.obj) x.1 ((histBytes o.bins).drop (64 * x.2) |>.take 64)) s
        (set (s.retireFirst r.obj o) 2, true)
  | _ =>
    match ok.head? with
    | none => (s, false)
    | some l =>
      if !s.objStored r.obj then (s, false)
      else if !s.devWritable l then ((s.request 192 0 l true).1, false)
      else
        let s := { s with reports := s.reports.erase r }.devAddOne l
        (if o.lines = o.decl.lines then s.eraseObj r.obj else s, true)

/-- A report is handled as far as it comes; a page that faults holds it (R202, R405). -/
def State.lineRun (obj : Nat) : Nat → State → State
  | 0, s => s
  | fuel + 1, s =>
    match s.reports.find? (·.obj = obj), s.obj? obj with
    | some r, some o =>
      if r.fault.isSome then s
      else
        let last := r.stage = 1 || (r.stage = 0 && o.lines + 1 = o.decl.lines)
        let locs := s.reportLocs o last
        match (locs.findSome? fun x => match x with | .error c => some c | .ok _ => none : Option Cause) with
        | some (.table pa) => (s.request 192 0 (.mem pa) false).1
        | some c =>
          let f := faultOf c o.decl.counter 0 o.ctx o.core o.slot 0 1 (.report obj)
          let (s, fid) := s.newFault { f with cause := 3, block := o.block }
          { s with reports := s.reports.replace r { r with fault := some fid } }
        | none =>
          match s.lineStage r o (locs.filterMap fun x => match x with | .error _ => none | .ok l => some l) with
          | (s, true) => if r.stage = 2 then s else State.lineRun obj fuel s
          | (s, false) => s
    | some r, none => { s with reports := s.reports.erase r }
    | none, _ => s

/-- `LINE_DONE` (R294, R295): the object home slice handles the oldest report that no fault and no earlier report of its
object holds. Where the status, the histogram or the counter lies on another device, what follows waits for it. -/
def execLineDone (s : State) : Res :=
  match s.reports.find? fun r => (s.reports.find? fun x => x.obj == r.obj) == some r && r.fault.isNone &&
      (r.stage = 0 || s.objStored r.obj) with
  | none => notDue s
  | some r => .next (State.lineRun r.obj 3 s)

/-! ### Contributions (R203, R284) -/

/-- The entry of one root line from the elements a word contributes to it. -/
def lineEntry (ctx core block : Nat) (obj : Option Nat) (apart : Bool) (lab : Word) (line : Nat) (els : List (Nat × Word)) : LullEntry :=
  let at_ := fun (l : Fin 32) => (els.find? fun x => x.1 == line + 4 * l.val).map (·.2)
  let v : Lanes Word := Lanes.ofFn fun l => (at_ l).getD 0
  { ctx := ctx, line := line, obj := obj, level := labelLevel lab, index := labelIndex lab
    present := BitVec.ofNat 32 (lanesUp.foldl (fun n l => n + if (at_ l).isSome then 2 ^ l.val else 0) 0)
    vals := v, res := Lanes.ofFn fun l => residueOf v[l], core := core, block := block, rootc := false
    apart := apart, credit := none, seq := 0 }

/-- Ingress of a contributed value under a label (R65). -/
def ingressAt (lab x : Word) : Word :=
  BitVec.ofNat 32 (if labelLevel lab = 0 then ingress x.toNat else ingressNode x.toNat)

/-- Delivers the elements (address, value) of one word to the core lull (R203, R204, R284): one entry for each root line,
in ascending order. `base` is the address of lane 0's element. -/
def State.contribute (s : State) (w : Warp) (core base : Nat) (lab : Word) (els : List (Nat × Word)) : State :=
  let els := els.map fun x => (x.1, ingressAt lab x.2)
  let own := s.objAt w.ctx base
  let inside := fun (a : Nat) => match own.bind s.obj? with
    | none => true
    | some o => o.decl.holds a
  let lines := fun (xs : List (Nat × Word)) => (xs.map fun x => x.1 / 128 * 128).eraseDups
  let ins := els.filter fun x => inside x.1
  let outs := els.filter fun x => !inside x.1
  let es := (lines ins).map (fun n => lineEntry w.ctx core w.block own false lab n ins) ++
    (lines outs).map fun n => lineEntry w.ctx core w.block none true lab n outs
  es.foldl (fun s e => s.arriveAt core e) s

/-- The unpaired entries of a core for the object that holds `base` leave (R203, R289). -/
def State.forwardFin (s : State) (ctx core base : Nat) : State :=
  match s.objAt ctx base with
  | none => s
  | some n => s.forwardWhere core fun e => e.obj == some n

/-- Device memory that `RDECL` could accept as a target (R202): not the second tier of another device. -/
def State.targetClass (s : State) : Loc → Bool
  | .mem pa => pa / 2 ^ 48 == s.self || pa % 2 ^ 48 < 0x010000000000
  | _ => false

/-- The check of a contributed element under R181 and R203. The target's class is judged before the page's rights. -/
def State.contribLoc (s : State) (w : Warp) (core : Nat) (va : DWord) : Except Cause Loc :=
  match s.globalLoc w core { mmio := false, host := false } .write 4 va with
  | .error (.protection 3) => match s.leafOf core w.ctx va.toNat with
    | .ok (leaf, lgsz) => .error (.protection (if s.targetClass (leafLoc leaf lgsz va.toNat) then 3 else 2))
    | .error c => .error c
  | .error c => .error c
  | .ok loc => if s.targetClass loc then .ok loc else .error (.protection 2)

/-- The label of a contribution is out of range: of every object, or of the live object that holds `base` (R203). -/
def State.labelRange (s : State) (ctx base : Nat) (lab : Word) : Bool :=
  labelBad lab || match (s.objAt ctx base).bind s.obj? with
    | none => false
    | some o => !o.decl.labelOk (labelLevel lab) (labelIndex lab)

/-- The element address of lane `l` (R203). -/
def elementVa (base : DWord) (l : Fin 32) : DWord := base + BitVec.ofNat 64 (4 * l.val)

/-- `CONTRIB.f32` (R203). -/
def execContribF32 (h : Hdr) (d base : Near) (flag : Bool) (lab : Near) (s : State) : Res :=
  irrevocable (.contribF32 h d base flag lab) h s fun w cur act =>
    let lo := (LaneSet.lowest act).getD 0
    let b := cur.before.read64 base lo
    let la := cur.before.read32 .int lab lo
    match collect (fun l => s.contribLoc w cur.core (elementVa b l)) (LaneSet.list act) with
    | .error (l, c) => trapWord s cur w act (c.trap l (elementVa b l) .write)
    | .ok _ =>
      if s.labelRange w.ctx b.toNat la then
        trapWord s cur w act { kind := .labelRange, lane := lowLane act, pattern := la }
      else
        let els := (LaneSet.list act).map fun l => ((elementVa b l).toNat, cur.before.read32 .f32 d l)
        let s := s.contribute w cur.core b.toNat la els
        let s := if flag then s.forwardFin w.ctx cur.core b.toNat else s
        finish s cur (w.advance cur.pc cur.lanes 0)

/-! ### Declarations (R200 to R202, R288, R302) -/

/-- Puts a held entry in its place among entries in the order in which they arrived. -/
def insertHeld (x : Nat × LullEntry) : List (Nat × LullEntry) → List (Nat × LullEntry)
  | [] => [x]
  | y :: rest => if x.2.seq < y.2.seq then x :: y :: rest else y :: insertHeld x rest

/-- The held undeclared entries that a newly declared object covers, with their lulls, in order of arrival (R302). -/
def State.heldFor (s : State) (o : Obj) : List (Nat × LullEntry) :=
  (s.lulls.flatMap fun l => (l.2.kept.filter fun e => e.obj.isNone && o.covers e.ctx e.line 0xFFFFFFFF != 0).map fun e =>
    (l.1, e)).foldl (fun xs x => insertHeld x xs) []

/-- The records that hold elements of an object are read back and processed as arrivals at their final lull: entries that spilled before
the object was declared (R288, R299), or when its context was saved (R298), meet their siblings as if they had not spilled (R287). -/
def State.releaseSpilled (s : State) (n : Nat) : State :=
  match s.obj? n with
  | none => s
  | some o =>
    let base := s.spillBase o.ctx
    if o.home != s.self then s
    else (s.spillValid base (s.spillRecs o.ctx)).foldl (fun s i =>
      let r := s.spillRecord base i
      if (s.obj? n).isNone || !s.spillUsed base i || o.ofRecord r = 0 then s
      else
        let e := entryOfRecord r o.ctx
        let k := if o.domain then portLull e.line else localFinal (s.linePa o.ctx e.line)
        ((s.spillFree base i).spillCount (some n) false).arriveAt k e) s

/-- Releases the held entries of a newly declared object (R288, R302): a domain object's go to their port lull first. A
record of one of its lines in the spill area makes the object search there, and is released after them. Once one of them stops the
object, the others' elements of it are discarded (R204). -/
def State.releaseHeld (s : State) (n : Nat) : State :=
  match s.obj? n with
  | none => s
  | some o =>
    let base := s.spillBase o.ctx
    let spilled := (s.spillValid base (s.spillRecs o.ctx)).filter fun i => o.ofRecord (s.spillRecord base i) != 0
    let s := if spilled.isEmpty then s else s.setObj n { o with spilled := true, spills := spilled.length }
    let held := s.heldFor o
    let s := held.foldl (fun s x => s.takeKept x.1 x.2) s
    let s := held.foldl (fun s x =>
      let k := if o.domain && o.home = s.self then portLull x.2.line else x.1
      if (s.obj? n).isSome then s.arriveAt k { x.2 with apart := false }
      else
        let rest := x.2.present &&& ~~~(o.covers x.2.ctx x.2.line x.2.present)
        if rest = 0 then s.freeCredit x.2 else s.arriveAt k { x.2 with present := rest }) s
    s.releaseSpilled n

/-- Makes an object live on this device's view; every other device learns of a domain object, its home among them (R200, R300, R303). -/
def State.declare (s : State) (n : Nat) (o : Obj) : State :=
  let s := s.setObj n o
  let ack := if o.inst.isSome then AckTo.none else .declare o.core o.slot
  let tell := fun (s : State) (d : Nat) =>
    let m := Config.encodeMsg (.declare o.ctx o.decl o.home o.statusVa o.statusAt o.inst)
    s.enqueue d { flit := s.newFlit 1 d 0 m.1 m.2, core := if o.inst.isSome then 192 else o.core, draw := true, ack := ack }
  (if o.domain then s.others.foldl tell s else s).releaseHeld n

/-- A new live object. -/
def newObj (d : Decl) (ctx : Nat) (super : Bool) (home : Nat) (domain : Bool) (core slot : Nat) (statusVa : Option Nat)
    (statusAt : Option (Nat × Loc)) (inst : Option Nat) : Obj :=
  { decl := d, ctx := ctx, super := super, home := home, domain := domain, core := core, slot := slot
    statusVa := statusVa, statusAt := statusAt, inst := inst, status := 0, live := true, lines := 0, wrote := []
    bins := List.replicate 64 0, spilled := false, spills := 0 }

/-- Byte ranges [a, a + m) and [b, b + n) meet. -/
def overlaps (a m b n : Nat) : Bool := a < b + n && b < a + m

/-- The declaration fields of a record (R201). -/
def declOf (r : Nat) : Decl :=
  { target := bits r 0 64, leaves := bits r 64 32, elems := bits r 96 32, counter := bits r 128 64
    hist := bits r 192 64, corebp := bits r 256 8, slicebp := bits r 264 8 }

/-- The checks of R202 that need no translation. -/
def Decl.bad (d : Decl) : Bool :=
  d.leaves = 0 || 2 ^ 27 < d.leaves || d.elems = 0 || 2 ^ 24 < d.elems || d.target % 128 != 0 || d.counter % 4 != 0 ||
    d.hist % 64 != 0 || overlaps d.hist 256 d.target (4 * d.elems) || overlaps d.hist 256 d.counter 4 ||
    overlaps d.counter 4 d.target (4 * d.elems)

/-- The target overlaps a live object of the context. -/
def State.declOverlaps (s : State) (ctx : Nat) (d : Decl) : Bool :=
  s.objs.any fun e => e.2.ctx == ctx && e.2.live && overlaps d.target (4 * d.elems) e.2.decl.target (4 * e.2.decl.elems)

/-- A counter or histogram location that R202 accepts: device memory of the domain. -/
def Loc.isDevice : Loc → Bool
  | .mem _ => true
  | _ => false

/-- The class checks of R202 on the translations of target, counter and histogram. -/
def State.declClass (s : State) (target counter hist : Loc) : Bool :=
  s.targetClass target && counter.isDevice && hist.isDevice

/-- Translates the three pages of a declaration in order (R202), as accesses of the issuing warp. -/
def State.declPages (s : State) (w : Warp) (core : Nat) (d : Decl) : Except (Nat × Cause) (Loc × Loc × Loc) :=
  let one := fun (va : Nat) => s.globalLoc w core { mmio := true, host := true } .write 1 (BitVec.ofNat 64 va)
  match one d.target with
  | .error c => .error (d.target, c)
  | .ok t => match one d.counter with
    | .error c => .error (d.counter, c)
    | .ok k => match one d.hist with
      | .error c => .error (d.hist, c)
      | .ok h => .ok (t, k, h)

/-- The object table is full: 16,384 objects have this device as their home (R281). -/
def State.tableFull (s : State) : Bool := 16384 ≤ (s.objs.filter fun e => e.2.home = s.self).length

/-- `RDECL` (R200, R202): while the object table of this device is full, the word of an object of it waits at its commit point
(R281). A guard granule under the record is touched and reads as 0 (R76). A fault of a page comes before the field checks (DESIGN CHOICE,
log entry 104). -/
def execRdecl (h : Hdr) (a : Near) (s : State) : Res :=
  irrevocable (.rdecl h a) h s fun w cur act =>
    let lo := (LaneSet.lowest act).getD 0
    let va := cur.before.read64 a lo
    match s.globalLoc w cur.core { mmio := false, host := true } .read 64 va with
    | .error c => trapWord s cur w act (c.trap lo va .read)
    | .ok loc =>
      if !s.readable loc then
        let (s, why) := s.request cur.core cur.slot loc false
        .next (s.holdWord cur w why)
      else
        let r := s.recordAt w loc 64
        let d := declOf r
        let w := (s.noteTouches w 64 [(lo, loc)]).noteError (s.poisoned [(lo, loc)])
        let s0 := s
        let s := s.setWarp cur.core cur.slot w
        match s.declPages w cur.core d with
        | .error (x, c) => trapWord (if c.waits then s0 else s) cur w act (c.trap lo (BitVec.ofNat 64 x) .write)
        | .ok (t, k, hl) =>
          if bits r 272 16 != 0 || bits r 320 192 != 0 || d.bad || !s.declClass t k hl || s.declOverlaps w.ctx d then
            trapWord s cur w act { kind := .illegalOperand, lane := lo.val }
          else if s.homeOf t = s.self && s.tableFull then .next (s.holdWord cur w none)
          else if !s.writable loc then
            let (s, why) := s.request cur.core cur.slot loc true
            .next (s.holdWord cur w why)
          else
            let s := s.storeNow (warpKey cur.core cur.slot) [(loc.plus 36, bytesLE 4 0)] false
            let home := s.homeOf t
            let level := s.recordField w.launch 839 3
            let o := newObj d w.ctx w.super home (level = 6 || home != s.self) cur.core cur.slot (some (va.toNat + 36))
              (some (s.self, loc.plus 36)) none
            let o := { o with block := some w.block }
            let w := { w with declares := if o.domain then s.others.length else 0 }
            finish (s.declare (SMap.fresh s.objs) o) cur (w.advance cur.pc cur.lanes 0)

/-! ### Moving the spill area (R393) -/

/-- Copies the records of the old area into the new one; none when a placement finds its 64 indices in use. -/
def State.moveRecords (s : State) (old base recs : Nat) : List Nat → Option State
  | [] => some s
  | i :: rest =>
    let r := s.spillRecord old i
    match s.spillSlot base recs (bits r 1216 64) (bits r 1152 32) with
    | none => none
    | some j => (s.writeEvent none (.mem (base + 256 * j)) (bytesLE 256 r)).moveRecords old base recs rest

/-- Replaces the spill area of a context entry, in the table, as the device has read it and in saved records (R409). -/
def State.setSpillArea (s : State) (ctx base recs : Nat) : State :=
  let e := setBits (setBits (s.ctxEntry ctx) 128 64 base) 320 32 recs
  let s := s.writeEvent none (.mem ((s.reg 0x2000 0).toNat / 4096 * 4096 + 64 * ctx)) (bytesLE 64 e)
  let s := s.mapSaved fun r => match r with
    | .context c _ d g w => if c = ctx then .context c (BitVec.ofNat 512 e) d g w else r
    | r => r
  if (SMap.get? s.ctxs ctx).isSome then { s with ctxs := SMap.put s.ctxs ctx (BitVec.ofNat 512 e) } else s

/-- `SPILL_AREA_MOVE` (R393): a write of `SP_CTL`; op 1 moves the area of its context. The move is one step. -/
def execSpillAreaMove (value : Word) (s : State) : Res :=
  let ctx := bits value.toNat 0 12
  let put := fun (s : State) (err : Bool) =>
    { s with mmio := SMap.put s.mmio 0x204C (BitVec.ofNat 64 (ctx + if err then 2 ^ 30 else 0)) }
  let old := bits (s.reg 0x204C 0).toNat 30 1 = 1
  if bits value.toNat 28 2 != 1 then .next (put s old)
  else
    let base := (s.reg 0x2040 0).toNat / 4096 * 4096
    let recs := (s.reg 0x2048 0).toNat
    let from_ := s.spillBase ctx
    let n := s.spillRecs ctx
    let outside := base / 2 ^ 48 != s.self || !paExists base || !paExists (base + 256 * recs - 1)
    if recs < n || overlaps base (256 * recs) from_ (256 * n) || outside then .next (put s true)
    else match s.moveRecords from_ base recs (s.spillValid from_ n) with
      | none => .next (put s true)
      | some s => .next (put (s.setSpillArea ctx base recs) false)

end Sys2Proof.Machine
end

