-- ==== Sys2Proof/Machine/Barriers.lean ====
section
/-! DEFINITION. Warps that meet and end: barriers (R206 to R209, R390), `TRIGGER` (R211), `EXIT` (R141), `COMMIT`
(R210). -/
namespace Sys2Proof.Machine

/-! ### Members and instances (R206) -/

/-- The number of a warp among the members of barriers: its block and its index. -/
def memberKey (w : Warp) : Nat := w.block * 64 + w.index

/-- The group of a level to which an instance belongs (R206): a warp, in user or supervisor mode, a block, a slice group, a
stack group, the device, the domain. -/
def barGroup (level core : Nat) (w : Warp) : Nat :=
  match level with
  | 1 => 2 * memberKey w + if w.super then 1 else 0
  | 2 => w.block
  | 3 => core / 4
  | 4 => core / 16
  | _ => 0

/-- The mask bit of the unit of core `core` at levels 3 to 6 (R206). -/
def unitBit (level core self : Nat) : Nat :=
  match level with
  | 3 => core % 4
  | 4 => core / 4 % 4
  | 5 => core / 16
  | _ => self

/-- The members that arrive by a word: the lanes of `active`, the warp of a block, the warp of the launch (R207). -/
def barMembers (level : Nat) (w : Warp) (act : LaneSet) : List Nat :=
  match level with
  | 1 => (LaneSet.list act).map (·.val)
  | 2 => [w.index]
  | _ => [memberKey w]

/-- The mask of a `BAR` (R206). -/
def barMask (before : Warp) (level n : Nat) : Nat :=
  (before.readS n).toNat + if level = 2 then (before.readS (n + 1)).toNat * 2 ^ 32 else 0

/-- A mask has a bit beyond its level's range (R206). -/
def barRange (level mask warps : Nat) : Bool :=
  match level with
  | 1 => false
  | 2 => 2 ^ warps ≤ mask
  | 3 | 4 => 16 ≤ mask
  | 5 => 4096 ≤ mask
  | _ => 65536 ≤ mask

/-- The lane whose arrival fails the checks of the mask's bits (R206, R208). -/
def State.barMaskBad (s : State) (w : Warp) (core level mask : Nat) (act : LaneSet) : Option Nat :=
  if barRange level mask ((s.blockOf w).elim 0 (·.warps)) then some (lowLane act)
  else match level with
    | 1 => ((LaneSet.list act).find? fun l => !mask.testBit l.val).map (·.val)
    | 2 => if mask.testBit w.index then none else some (lowLane act)
    | _ => if mask.testBit (unitBit level core s.self) then none else some (lowLane act)

/-- What an earlier `.arrive` of the member left: per lane at level 1, per warp above. -/
def Warp.barMark (w : Warp) (level lane : Nat) : Option BarMark :=
  if level = 1 then SMap.get? w.laneArrived lane else SMap.get? w.arrived level

/-- The lanes, or the lowest of them, for which marks of a level are kept. -/
def markLanes (level : Nat) (act : LaneSet) : List Nat :=
  if level = 1 then (LaneSet.list act).map (·.val) else [lowLane act]

/-- Drops the marks of a level for the lanes of `act`. -/
def Warp.dropMarks (w : Warp) (level : Nat) (act : LaneSet) : Warp :=
  if level = 1 then { w with laneArrived := (LaneSet.list act).foldl (fun m l => SMap.del m l.val) w.laneArrived }
  else { w with arrived := SMap.del w.arrived level }

/-- The marks of an instance that ended say how. -/
def Warp.endMarks (w : Warp) (n : Nat) (x : BarMark) : Warp :=
  let f := fun (e : Nat × BarMark) => if e.2 = .joined n then (e.1, x) else e
  { w with arrived := w.arrived.map f, laneArrived := w.laneArrived.map f }

/-- Changes every warp, resident or saved. -/
def State.mapWarps (s : State) (f : Warp → Warp) : State :=
  ({ s with warps := s.warps.map fun e => (e.1, f e.2) } : State).mapSaved fun r => match r with
    | .warp a b c k w arr => .warp a b c k (f w) arr
    | r => r

/-- The warp, in the mode of the group, that owns a level-1 instance. -/
def State.barWarp (s : State) (group : Nat) : Option (Nat × Warp) :=
  s.warps.find? fun e => memberKey e.2 = group / 2 && e.2.super == (group % 2 == 1)

/-- The lanes of a set that are live and stand at `pc`. -/
def Warp.lanesAt (w : Warp) (lanes : LaneSet) (pc : Pc) : LaneSet :=
  Lanes.ofFn fun l => lanes[l] && w.regs.threads[l].live && w.regs.threads[l].pc == pc

/-- The lanes that wait in a `BAR`, in the warp's present mode. -/
def Warp.waiting (w : Warp) : LaneSet :=
  w.barred.foldl (fun m b => if b.super == w.super then LaneSet.union m (w.lanesAt b.lanes b.pc) else m) (Lanes.all false)

/-- The program counter at which the lowest of some lanes stands. -/
def Warp.pcOf (w : Warp) (m : LaneSet) : Option Pc := (LaneSet.lowest m).map fun l => (w.regs.threads[l]).pc

/-- Where the first lanes of an issue cycle's `BAR` went on; none while all its lanes wait. -/
def Warp.wentOn (w : Warp) (issue : Nat) : Option Pc := w.barred.findSome? fun b => if b.issue = issue then b.next else none

/-- The lanes of a wait pass to the next word. The first ones of an issue cross its packet for all of them (R136). -/
def Warp.passOne (w : Warp) (b : BarWait) : Warp :=
  let m := w.lanesAt b.lanes b.pc
  match w.wentOn b.issue with
  | some p => w.setPcs m fun _ => p
  | none =>
    let w := w.advance b.pc m 0
    { w with barred := w.barred.map fun x => if x.issue = b.issue then { x with next := w.pcOf m } else x }

/-- Waits whose instance has completed are over, in the mode in which the warp is: their lanes pass to the next word, in the
checkpoints of the windows that the warp's other lanes opened since too. -/
def Warp.passBars (w : Warp) : Warp :=
  let past := w.barred.filter fun b => b.inst.isNone && b.super == w.super
  let pass := fun (w : Warp) => past.foldl Warp.passOne w
  let now := pass w
  { now with
    barred := now.barred.filter fun b => !(b.inst.isNone && b.super == w.super)
    windows := w.windows.map fun (x : Window) => { x with ck := (pass { w with regs := x.ck }).regs } }

/-- Instance `n` has completed: a warp's lanes that wait at it pass their `BAR`. -/
def Warp.passBar (n : Nat) (w : Warp) : Warp :=
  if w.barred.any fun b => b.inst = some n then
    Warp.passBars { w with barred := w.barred.map fun b => if b.inst = some n then { b with inst := none } else b }
  else w

/-! ### Poison (R208) -/

/-- The lanes of a warp that wait at instance `n`. -/
def Warp.waitingAt (w : Warp) (n : Nat) : LaneSet :=
  w.barred.foldl (fun m b => if b.inst = some n then LaneSet.union m b.lanes else m) (Lanes.all false)

/-- The waits at a poisoned instance become marks: the lanes find it poisoned when they issue their `BAR` again. -/
def Warp.voidWaits (n : Nat) (w : Warp) : Warp :=
  let w := w.barred.foldl (fun w b => if b.inst = some n then w.setMarks b.level b.lanes .poisoned else w) w
  { w with barred := w.barred.filter fun b => b.inst != some n }

/-- A warp's waits at instance `n` are gone, without marks. -/
def Warp.dropWaits (n : Nat) (w : Warp) : Warp := { w with barred := w.barred.filter fun b => b.inst != some n }

/-- A member that waits on the poisoned instance `n` traps at once, once its windows have committed (R334). In its handler, it finds the
poison when it returns. -/
def State.trapWaiter (s : State) (key n : Nat) (w : Warp) (t : Trap) : State :=
  let lanes := w.waitingAt n
  if !LaneSet.any lanes then s
  else if w.super && w.barred.all (fun b => b.inst != some n || !b.super) then s.setWarp (key / 64) (key % 64) (w.voidWaits n)
  else
    let w := w.dropWaits n
    let t := { t with lane := lowLane lanes, amask := LaneSet.mask lanes }
    if w.windows.isEmpty then s.enterSupervisor (key / 64) (key % 64) { w with wait := none } t
    else s.setWarp (key / 64) (key % 64) { w.closeOpen with pending := some (w.pending.getD t) }

/-- The other members that wait on a poisoned instance trap; a saved one finds the poison when it resumes. -/
def State.trapWaiters (s : State) (n : Nat) (but : Option Nat) (t : Trap) : State :=
  let s := s.mapSaved fun r => match r with
    | .warp a b c k w arr => .warp a b c k (w.voidWaits n) (arr.filter fun x => x.1 != n)
    | r => r
  s.warps.foldl (fun s e => if some e.1 == but then s else s.trapWaiter e.1 n e.2 t) s

/-- Discards a poisoned instance: members that arrived without waiting find it poisoned at their `.wait`. -/
def State.poisonBar (s : State) (n : Nat) (but : Option Nat) (t : Trap) : State :=
  ({ s.mapWarps (·.endMarks n .poisoned) with bars := SMap.del s.bars n } : State).trapWaiters n but t

/-! ### Arrival and waiting (R207) -/

/-- The open instances of a level and group. -/
def State.openBars (s : State) (level group launch : Nat) : List (Nat × BarInst) :=
  s.bars.filter fun e => e.2.level = level && e.2.group = group && e.2.launch = launch

/-- The device whose scheduler has a launch, and its number there. -/
def State.launchName (s : State) (lid : Nat) : Nat × Nat := ((SMap.get? s.launches lid).bind (·.home)).getD (s.self, lid)

/-- The launch of a name. -/
def State.launchOf (s : State) (home n : Nat) : Option Nat :=
  if home = s.self then (if (SMap.get? s.launches n).any fun l => l.home.isNone then some n else none)
  else (s.launches.find? fun e => e.2.home = some (home, n)).map (·.1)

/-- A level-6 instance that opens is told to the other devices that its mask names (R208). -/
def State.tellBar (s : State) (level launch mask : Nat) : State :=
  if level != 6 then s
  else
    let x := s.launchName launch
    (s.others.filter mask.testBit).foldl (fun s d => s.sendMsg 192 d false false (.barOpen x.1 x.2 mask)) s

/-- The masks of the level-6 instances of a launch that are open here or on other devices. -/
def State.farMasks (s : State) (launch : Nat) : List Nat :=
  let x := s.launchName launch
  s.farBars.filterMap fun f => if f.2.1 = x.1 && f.2.2.1 = x.2 then some f.2.2.2 else none

/-- Level-6 instances of a launch whose mask satisfies a test are discarded (R208): the members here that wait trap, and the other
devices of each mask are told. -/
def State.breakBars (s : State) (launch : Nat) (bad : Nat → Bool) (but : Option Nat) (t : Trap) : State :=
  let x := s.launchName launch
  let here := (s.openBars 6 0 launch).filter fun e => bad e.2.mask
  let masks := (here.map (·.2.mask) ++ (s.farMasks launch).filter bad).eraseDups
  let s := here.foldl (fun s e => s.poisonBar e.1 but t) s
  let s := { s with farBars := s.farBars.filter fun f => !(f.2.1 = x.1 && f.2.2.1 = x.2 && bad f.2.2.2) }
  masks.foldl (fun s m => (s.others.filter m.testBit).foldl (fun s d => s.sendMsg 192 d false false (.barPoison x.1 x.2 m)) s) s

/-- Members arrive at the instance of a mask, which opens when there is none; its number. -/
def State.joinBar (s : State) (level group launch mask : Nat) (ms : List Nat) : State × Nat :=
  match (s.openBars level group launch).find? fun e => e.2.mask = mask with
  | some (n, b) =>
    let b := { b with arrived := b.arrived ++ ms.filter fun m => !b.arrived.contains m }
    ({ s with bars := SMap.put s.bars n b }, n)
  | none =>
    let n := SMap.fresh s.bars
    let b : BarInst := { level := level, group := group, launch := launch, mask := mask, arrived := ms }
    (({ s with bars := SMap.put s.bars n b } : State).tellBar level launch mask, n)

/-- The lanes of `act` wait at instance `n`, at the word; the issuing lanes whose guard fails pass on (R207). -/
def waitBar (s : State) (cur : Cur) (w : Warp) (act : LaneSet) (level n : Nat) : Res :=
  let on := LaneSet.diff cur.lanes act
  let w := w.advance cur.pc on 0
  let b : BarWait := { inst := some n, level := level, pc := cur.pc, lanes := act, super := w.super, issue := w.issues, next := w.pcOf on }
  finish s cur { w with barred := w.barred ++ [b] }

/-- `BAR.warp.wait` of lanes whose marks name instances that are open: each lane waits at its own. The issue's other lanes have gone
on to `next`. -/
def Warp.waitLanes (w : Warp) (pc : Pc) (act : LaneSet) (next : Option Pc) : Warp :=
  { w with barred := w.barred ++ (LaneSet.list act).filterMap fun l => match w.barMark 1 l.val with
      | some (.joined n) => some ({ inst := some n, level := 1, pc := pc, lanes := Lanes.ofFn fun k => k == l, super := w.super
                                    issue := w.issues, next := next } : BarWait)
      | _ => none }

/-- The marks of poisoned instances go with the trap that reports them (R208). -/
def Warp.dropPoison (w : Warp) (level : Nat) (act : LaneSet) : Warp :=
  let gone := (markLanes level act).filter fun l => w.barMark level l = some .poisoned
  if gone.isEmpty then w
  else if level = 1 then { w with laneArrived := gone.foldl SMap.del w.laneArrived }
  else { w with arrived := SMap.del w.arrived level }

/-- `BAR` in mode `.wait` (R207). -/
def barWait (s : State) (cur : Cur) (w : Warp) (act : LaneSet) (level : Nat) : Res :=
  let bad := (markLanes level act).find? fun l => match w.barMark level l with
    | none | some .poisoned => true
    | _ => false
  match bad with
  | some l =>
    trapWord s cur (w.dropPoison level act) act { kind := .barrierMask, aux := level, lane := l }
  | none =>
    if level = 1 then
      let still : LaneSet := Lanes.ofFn fun l => act[l] && match w.barMark 1 l.val with
        | some (.joined _) => true
        | _ => false
      let on := LaneSet.diff cur.lanes still
      let w := w.advance cur.pc on 0
      finish s cur ((w.waitLanes cur.pc still (w.pcOf on)).dropMarks 1 act)
    else match SMap.get? w.arrived level with
      | some (.joined n) => waitBar s cur (w.dropMarks level act) act level n
      | _ => finish s cur ((w.dropMarks level act).advance cur.pc cur.lanes 0)

/-- The arrival of a `BAR` whose mask passed its checks (R207, R208). -/
def barArrive (s : State) (cur : Cur) (w : Warp) (act : LaneSet) (level mask : Nat) (sync : Bool) : Res :=
  let group := barGroup level cur.core w
  let t : Trap := { kind := .barrierMask, aux := level, lane := lowLane act }
  let clash := fun (m : Nat) => m != mask && m &&& mask != 0
  let others := (s.openBars level group w.launch).filter fun e => clash e.2.mask
  if !others.isEmpty || (level = 6 && (s.farMasks w.launch).any clash) then
    let mine := others.foldl (fun m e => LaneSet.union m (w.waitingAt e.1)) act
    let me := some (warpKey cur.core cur.slot)
    let s := if level = 6 then s.breakBars w.launch clash me t else others.foldl (fun s e => s.poisonBar e.1 me t) s
    trapWord s cur (others.foldl (fun w e => (w.endMarks e.1 .poisoned).dropWaits e.1) w) mine t
  else
    let (s, n) := s.joinBar level group w.launch mask (barMembers level w act)
    let s := s.forwardBlock w.block
    if sync then waitBar s cur w act level n
    else finish s cur ((w.setMarks level act (.joined n)).advance cur.pc cur.lanes 0)

/-- The trap that reports a recorded guard touch (R76). -/
def GuardTouch.trap (g : GuardTouch) (act : LaneSet) : Trap :=
  { kind := .guardTouch, aux := g.bank, pattern := BitVec.ofNat 32 g.offset, count := g.count, lane := lowLane act }

/-- `BAR` (R206 to R208), after its commit point, with the checks in the order of R207. -/
def execBar (h : Hdr) (level : Fin 8) (n : Fin 32) (mode : Fin 4) (s : State) : Res :=
  irrevocable (.bar h level n mode) h s fun w cur act =>
    let lv := level.val
    if s.recordField w.launch (841 + lv) 1 = 0 then
      trapWord s cur w act { kind := .barrierLevel, aux := lv, lane := lowLane act }
    else match w.guard with
      | some g => trapWord s cur { w with guard := none } act (g.trap act)
      | none =>
        if mode.val = 2 then barWait s cur w act lv
        else
          let mask := barMask cur.before lv n.val
          match s.barMaskBad w cur.core lv mask act with
          | some l => trapWord s cur w act { kind := .barrierMask, aux := lv, lane := l }
          | none =>
            match (markLanes lv act).find? fun l => (w.barMark lv l).isSome with
            | some l => trapWord s cur (w.dropPoison lv act) act { kind := .barrierMask, aux := lv, lane := l }
            | none => barArrive s cur w act lv mask (mode.val = 0)

/-! ### Completion (R207, R209, R390) -/

/-- Every warp of a block has arrived at an instance above level 2, or has exited. -/
def Block.arrivedAt (b : Block) (bid : Nat) (x : BarInst) : Bool :=
  (List.range b.warps).all fun i => b.exited.contains i || x.arrived.contains (bid * 64 + i)

/-- A block of the launch is a member of an instance above level 2 (R206). -/
def State.isMember (s : State) (b : Block) (x : BarInst) : Bool :=
  b.launch = x.launch && x.mask.testBit (unitBit x.level b.core s.self) &&
    (match x.level with | 3 => b.core / 4 = x.group | 4 => b.core / 16 = x.group | _ => true)

/-- Another device may hold blocks of the launch: one on which this scheduler placed some, or, for a launch of another scheduler, any
that its record names. -/
def Launch.mayHold (l : Launch) (self d : Nat) : Bool :=
  match l.home with
  | none => l.remotePlaced.any fun r => r.1 = d
  | some (home, _) => d = home || bits (l.devices self) d 1 = 1

/-- Every member of an instance has arrived or exited (R207, R209). `remote` are the other devices whose member blocks have arrived,
or that hold none, for a level-6 instance. -/
def State.barFull (s : State) (x : BarInst) (remote : BitVec 16) : Bool :=
  match x.level with
  | 1 => match s.barWarp x.group with
    | none => false
    | some (_, w) => lanesUp.all fun l => !x.mask.testBit l.val || x.arrived.contains l.val || !w.regs.threads[l].live
  | 2 => match SMap.get? s.blocks x.group with
    | none => false
    | some b => (List.range 64).all fun j => !x.mask.testBit j || x.arrived.contains j || b.exited.contains j
  | level =>
    (s.blocks.all fun e => !s.isMember e.2 x || e.2.arrivedAt e.1 x) &&
      (level != 6 || match SMap.get? s.launches x.launch with
        | none => true
        | some l => (List.range 16).all fun d => d = s.self || !x.mask.testBit d || !l.mayHold s.self d ||
            (remote.getLsbD d && s.present.getLsbD d))

/-- The cores of an instance's members here, ordered by the arrival of their last member (R390). -/
def State.arrivalCores (s : State) (x : BarInst) : List Nat :=
  x.arrived.foldl (fun acc m => match SMap.get? s.blocks (m / 64) with
    | none => acc
    | some b => acc.filter (· != b.core) ++ [b.core]) []

/-- One step of frequency moves from the earliest core that can give it to the last (R390); no core goes above step 32. -/
def State.shiftBudget (s : State) (x : BarInst) : State :=
  let cores := s.arrivalCores x
  match cores.reverse with
  | [] => s
  | top :: _ =>
    let t := s.core top
    if !((s.reg 0x1800 0x80000000).getLsbD 31) || min 32 t.hi ≤ t.step then s
    else match cores.find? fun c => c != top && (s.core c).lo < (s.core c).step with
      | none => s
      | some c =>
        let d := s.core c
        (s.setCore c { d with step := d.step - 1, shiftedBy := some x.launch }).setCore top
          { t with step := t.step + 1, shiftedBy := some x.launch }

/-- A level-6 instance has completed here: the other devices of its mask are told, and their part of it is over for this one. -/
def State.tellDone (s : State) (launch mask : Nat) : State :=
  let x := s.launchName launch
  let s := { s with farBars := s.farBars.filter fun f => !(f.2.1 = x.1 && f.2.2.1 = x.2 && f.2.2.2 = mask) }
  (s.others.filter mask.testBit).foldl (fun s d => s.sendMsg 192 d false false (.barDone x.1 x.2 mask)) s

/-- `BARRIER_COMPLETE` (R207): releases every member that waits on the instance. -/
def execBarrierComplete (bar : Nat) (remote : BitVec 16) (s : State) : Res :=
  match SMap.get? s.bars bar with
  | none => notDue s
  | some x =>
    if !s.barFull x remote then notDue s
    else
      let s := { s with bars := SMap.del s.bars bar }
      let s := if x.level = 6 then s.tellDone x.launch x.mask else s
      let s := s.mapWarps fun w => (w.endMarks bar .completed).passBar bar
      .next (if 4 ≤ x.level then s.shiftBudget x else s)

/-- Another device has opened a level-6 instance of a launch (R208): with an instance whose different mask shares a bit with its mask,
both are poisoned; else it is kept in mind until it ends. -/
def State.barOpened (s : State) (src home n mask : Nat) : State :=
  match s.launchOf home n with
  | none => s
  | some lid =>
    let clash := fun (m : Nat) => m != mask && m &&& mask != 0
    if (s.openBars 6 0 lid).any (fun e => clash e.2.mask) || (s.farMasks lid).any clash then
      (s.breakBars lid clash none { kind := .barrierMask, aux := 6 }).sendMsg 192 src false false (.barPoison home n mask)
    else { s with farBars := s.farBars ++ [(src, home, n, mask)] }

/-- A level-6 instance is poisoned by another device's: a device that has it open tells the others. -/
def State.barPoisoned (s : State) (src home n mask : Nat) : State :=
  match s.launchOf home n with
  | none => s
  | some lid =>
    let s := { s with farBars := s.farBars.filter fun f => !(f.2.1 = home && f.2.2.1 = n && f.2.2.2 = mask && f.1 = src) }
    if (s.openBars 6 0 lid).any fun e => e.2.mask = mask then s.breakBars lid (· == mask) none { kind := .barrierMask, aux := 6 }
    else { s with farBars := s.farBars.filter fun f => !(f.2.1 = home && f.2.2.1 = n && f.2.2.2 = mask) }

/-- A level-6 instance has completed on another device. -/
def State.barEnded (s : State) (src home n mask : Nat) : State := { s with farBars := s.farBars.erase (src, home, n, mask) }

/-! ### TRIGGER, EXIT, COMMIT -/

/-- The threads of `act` trigger (R89, R211): once all threads of the warp have, the block counts it. -/
def State.triggerLanes (s : State) (cur : Cur) (w : Warp) (act : LaneSet) : State × Warp :=
  let t := LaneSet.union w.triggered act
  let w' := { w with triggered := t }
  if LaneSet.count w.triggered = 32 || LaneSet.count t != 32 then (s, w')
  else match SMap.get? s.blocks w.block with
    | none => (s, w')
    | some b =>
      let s := { s with blocks := SMap.put s.blocks w.block { b with triggers := b.triggers + 1 } }
      ((s.setWarp cur.core cur.slot w').settleTrigger w.launch, w')

/-- `TRIGGER` (R211). -/
def execTrigger (h : Hdr) (s : State) : Res :=
  irrevocable (.trigger h) h s fun w cur act =>
    let (s, w) := s.triggerLanes cur w act
    finish s cur (w.advance cur.pc cur.lanes 0)

/-- Faults that the handler of an exiting warp was to take are reported again (R406). -/
def State.dropHandler (s : State) (core slot : Nat) : State :=
  let mine := fun (f : EFault) => match f.what with
    | .entry n => match SMap.get? s.entries n with
      | none => false
      | some e => e.core == core && e.slot == slot && e.bound
    | _ => false
  { s with efaults := s.efaults.map fun e =>
      if mine e.2 && e.2.handler && !e.2.entered then (e.1, { e.2 with handler := false }) else e }

/-- The last live thread of a warp has exited (R141): its slot is freed, its entries run on unbound from it, and
its accumulators stay while a matrix entry needs them. -/
def State.endWarp (s : State) (core slot : Nat) (w : Warp) : State :=
  let s := s.dropHandler core slot
  let free := fun (e : Nat × Entry) =>
    if e.2.core == core && e.2.slot == slot && e.2.bound then (e.1, { e.2 with bound := false }) else e
  let busy := s.entries.any fun e => e.2.core == core && e.2.slot == slot && e.2.bound && e.2.queue == 1
  let s := { s with
    warps := SMap.del s.warps (warpKey core slot)
    left := if busy then SMap.put s.left (w.block * 64 + slot) w else s.left
    entries := s.entries.map free
    bars := s.bars.filter fun e => !(e.2.level = 1 && e.2.group / 2 = memberKey w) }
  match SMap.get? s.blocks w.block with
  | none => s.reportFaults
  | some b =>
    let b := { b with exited := b.exited ++ [w.index] }
    let s := { s with blocks := SMap.put s.blocks w.block b }
    let s := if b.exited.length = b.warps then s.forwardBlock w.block else s
    (s.settleBlock w.block).reportFaults

/-- The threads of `act` trigger and cease to be live (R141). -/
def State.exitLanes (s : State) (cur : Cur) (w : Warp) (act : LaneSet) : State :=
  let (s, w) := s.triggerLanes cur w act
  let dead := Lanes.write w.regs.threads act fun l => { w.regs.threads[l] with live := false }
  let w := { w with regs := { w.regs with threads := dead } }
  if lanesUp.any fun l => dead[l].live then s.setWarp cur.core cur.slot w else s.endWarp cur.core cur.slot w

/-- `EXIT` (R141). -/
def execExit (h : Hdr) (s : State) : Res :=
  irrevocable (.exit h) h s fun w cur act =>
    match w.guard with
    | some g => trapWord s cur { w with guard := none } act (g.trap act)
    | none => .next (s.exitLanes cur (w.advance cur.pc (LaneSet.diff cur.lanes act) 0) act)

/-- `COMMIT` (R210): a window with no access, entry or `v` write is not closed. -/
def execCommit (h : Hdr) (s : State) : Res :=
  ordinary (.commit h) h 0 [] s fun w cur act =>
    let held := match w.openWin with
      | none => false
      | some x => x.accesses != 0 || !x.entries.isEmpty || !x.vregs.isEmpty
    let w := if LaneSet.any act && held then w.closeOpen else w
    finish s cur (w.advance cur.pc cur.lanes 0)

end Sys2Proof.Machine
end

