-- ==== Sys2Proof/Machine/Windows.lean ====
section
/-! DEFINITION. Windows that close, commit and roll back (R316 to R335): `WINDOW_COMMIT`, `ROLLBACK`, steady windows. -/
namespace Sys2Proof.Machine

/-- A load-scoreboard mark that belongs to the accesses and waits of its window (R323): not a status word, which comes after
the commit. -/
def LoadKind.ofWindow : LoadKind → Bool
  | .status _ => false
  | _ => true

/-- The slot load on which a warp waits, with its handle (R216). -/
def Warp.slotLoad (w : Warp) (room : Bool) : Option (PendLoad × Nat) :=
  w.loads.findSome? fun ld => match ld.kind with
    | .slot k r => if r = room then some (ld, k) else none
    | _ => none

/-- Every load and wait of a window has been released (R323). -/
def Warp.released (w : Warp) (serial : Nat) : Bool := !w.loads.any fun ld => ld.win = serial && ld.kind.ofWindow

/-- The first store of a core's window that is not performed now (R323); stores to sync pages wait for their updates instead. -/
def State.unwritable (s : State) (core : Nat) (x : Window) : Option StoreEv :=
  x.stores.find? fun e => !e.sync && !s.coreWritable core e.loc

/-- The lines of the stores to sync pages (R415). -/
def Window.syncLines (x : Window) : List Nat :=
  (x.stores.filterMap fun e => match e.sync, e.loc with
    | true, .mem pa => some (pa / 128)
    | _, _ => none).eraseDups

/-- Every update of the window's sync stores has been acknowledged by every sharer (R415). -/
def Window.synced (x : Window) : Bool := x.syncLines.all fun n => x.updates.any fun u => u.1 = n && u.2.isEmpty

/-- The lines of a window's stores that need an end of their own: sync lines, and peers' lines. -/
def Window.heldLines (x : Window) (self : Nat) : List (Nat × Bool) :=
  (x.stores.filterMap fun e => match e.loc with
    | .mem pa => if e.sync || pa / 2 ^ 48 != self then some (pa / 128, e.sync) else none
    | _ => none).eraseDups

/-- The window's stores to one line, in program order. -/
def Window.storesTo (x : Window) (line : Nat) : List (Nat × List Byte) :=
  x.stores.filterMap fun e => match e.loc with
    | .mem pa => if pa / 128 = line then some (pa, e.data) else none
    | _ => none

/-! ### What a copy has read by its place in the order (R55, R83) -/

/-- The location of an engine's access (R74, R181, R222): an operand that may lie in the aperture names the issuing block's
scratchpad; nobody reaches MMIO. -/
def State.engineLoc (s : State) (e : Entry) (aper : Bool) (k : Access) (va : Nat) : Except Cause Loc :=
  let base := s.spbase.toNat
  if 2 ^ 57 ≤ va then .error (.protection 0)
  else if aper && base ≤ va && va < base + 2 ^ 20 then
    match SMap.get? s.blocks e.block with
    | none => .error (.protection 1)
    | some b => if b.size ≤ va - base then .error (.protection 1) else .ok (.scratch b.core (b.base + (va - base)))
  else s.translate e.core e.ctx va { mmio := false, host := true } k e.super

/-- `n` bytes from `va` as pieces inside 64-byte sectors. -/
def pieces (va n : Nat) : List (Nat × Nat) :=
  (List.range ((va % 64 + n + 63) / 64)).map fun k =>
    let lo := max va ((va / 64 + k) * 64)
    (lo, min (va + n) ((va / 64 + k + 1) * 64) - lo)

/-- The bytes of a location as an entry finds them: those it has read already, else what memory holds (R55, R83). -/
def State.seenAt (s : State) (e : Entry) (loc : Loc) (n : Nat) : List Byte :=
  match e.seen.find? fun x => x.1 == loc && x.2.length = n with
  | some x => x.2
  | none => s.bytesAt loc n

/-- The layout record of an entry as it has been read, else as memory holds it now; none where its address fails. -/
def State.peekRecord (s : State) (e : Entry) : Option Nat :=
  let loc := match s.engineLoc e true .read e.addr.toNat with
    | .error (.table _) => s.translateNow e.core e.ctx e.addr.toNat { mmio := false, host := true } .read e.super
    | x => x
  match loc with
  | .error _ => none
  | .ok loc => some (leNat (s.seenAt e loc 64))

/-- What an entry can see of the LQ8 table that it names: there is none to read, a location is not here, or its bytes. -/
inductive TableSight where
  | none
  | missing (loc : Loc)
  | known (bytes : List (Loc × List Byte))

/-- The LQ8 table of a copy of a window, at the place of the copy's issue among the window's stores (R55). A table whose record or page
faults has no bytes yet: it is read when the entry starts. -/
def State.tableSight (s : State) (x : Window) (e : Entry) : TableSight :=
  let copies := match e.kind with
    | .cpy | .gath | .scat | .cpym => true
    | _ => false
  let at_ := fun (loc : Loc) (n : Nat) => overlay (x.stores.take e.issuedAt) loc (s.seenAt e loc n)
  match copies, s.engineLoc e true .read e.addr.toNat with
  | true, .ok loc =>
    let r := leNat (at_ loc 64)
    if !s.readable loc then .missing loc
    else if bits r 384 5 != 16 then .none
    else
      let ps := pieces (bits r 128 64) 1024
      let away := ps.findSome? fun p => match s.engineLoc e false .read (p.1 % 2 ^ 64) with
        | .error (.table pa) => some (Loc.mem pa)
        | _ => Option.none
      let places := ps.filterMap fun p => match s.engineLoc e false .read (p.1 % 2 ^ 64) with
        | .ok loc => some (loc, p.2)
        | .error _ => Option.none
      if let some loc := away then .missing loc
      else if places.length != ps.length then .none
      else match places.find? fun p => !s.readable p.1 with
        | some p => .missing p.1
        | Option.none => .known (places.map fun p => (p.1, at_ p.1 p.2))
  | true, .error (.table pa) => .missing (.mem pa)
  | _, _ => .none

/-- The location of a record or an LQ8 table that a copy of a window reads by its place in the order and that is not here (R55): the
window commits once it is. -/
def State.tableMissing (s : State) (x : Window) : Option Loc :=
  (x.entries.filterMap fun n => SMap.get? s.entries n).findSome? fun e => match s.tableSight x e with
    | .missing loc => some loc
    | _ => none

/-- An entry of a committing window keeps the LQ8 table that it names (R55). -/
def State.latchTable (s : State) (x : Window) (e : Entry) : Entry :=
  match s.tableSight x e with
  | .known bytes => { e with seen := e.seen ++ bytes }
  | _ => e

/-- The entries of a window keep the tables they name. -/
def State.latchTables (s : State) (x : Window) : State :=
  { s with entries := s.entries.map fun (e : Nat × Entry) => if x.entries.contains e.1 then (e.1, s.latchTable x e.2) else e }

/-- The window's stores take their places, in program order (R323, R324); then its sync lines and its peers' lines end (R415,
R418). -/
def State.commitStores (s : State) (key : Nat) (x : Window) : State :=
  let s := x.stores.foldl (fun s e => (s.writeEvent (some key) e.loc e.data e.sync)) (s.latchTables x)
  (x.heldLines s.self).foldl (fun s e => s.endStores (key / 64) e.1 (x.storesTo e.1) e.2) s

/-- The first guard touch of a committed window is recorded (R76). -/
def Warp.keepTouch (w : Warp) (t : Option GuardTouch) : Warp :=
  match t with
  | none => w
  | some t => { w with guard := match w.guard with
      | none => some t
      | some g => some { g with count := min 255 (g.count + 1) } }

/-- Two entries stand in the queues of one warp. -/
def Entry.sameWarp (a b : Entry) : Bool := a.core == b.core && a.slot == b.slot && a.block == b.block && a.bound == b.bound

/-- The queues a fence names. -/
def Entry.fences (f : Entry) (queue : Nat) : Bool := f.kind == .fence && f.mode.testBit queue

/-- An earlier entry of a queue that a fence names is still there. -/
def State.fenceHolds (s : State) (n : Nat) (f : Entry) : Bool :=
  s.entries.any fun e => e.1 < n && e.2.kind != .fence && f.sameWarp e.2 && f.fences e.2.queue

/-- Fences that hold nothing back any more are dropped. -/
def State.dropFences (s : State) : State :=
  { s with entries := s.entries.filter fun e => !(e.2.kind == .fence && e.2.win.isNone && !s.fenceHolds e.1 e.2) }

/-- The entries of a window may start (R83). -/
def State.freeEntries (s : State) (ns : List Nat) : State :=
  let free := fun (e : Nat × Entry) => if ns.contains e.1 then (e.1, { e.2 with win := none }) else e
  ({ s with entries := s.entries.map free } : State).dropFences

/-- Lines that left the device with the stores of a window to them (R418) are no longer watched for the warp's own younger windows, so
what these read there is read again (R99, R325). -/
def State.leftLines (s : State) (core slot : Nat) (x : Window) : State :=
  let gone := (x.heldLines s.self).filter fun e => !e.2 && (SMap.get? s.loans (e.1 / 32)).isNone
  gone.foldl (fun s e => s.triggerWarp (warpKey core slot) (.line e.1)) s

/-- The window at the head of a warp's list commits (R323). A trap that waited for the last window enters now (R334). -/
def State.commitHead (s : State) (core slot : Nat) (x : Window) : State :=
  let s := (s.commitStores (warpKey core slot) x).freeEntries x.entries
  match s.warp core slot with
  | none => s
  | some w =>
    let w := { w with windows := w.windows.drop 1 }.keepTouch x.touch
    match w.pending with
    | some t => if w.windows.isEmpty then s.enterSupervisor core slot w t else (s.setWarp core slot w).leftLines core slot x
    | none => (s.setWarp core slot w).leftLines core slot x

/-- The oldest window of a warp commits now, if it is closed and every condition of R323 holds, and an atomic before it that went to a
peer has been performed (R95). -/
def State.commitOldest (s : State) (core slot : Nat) : Option State :=
  match s.warp core slot with
  | none => none
  | some w =>
    match w.windows with
    | [] => none
    | x :: _ =>
      if x.isClosed && w.released x.serial && !w.atomsOut && (s.unwritable core x).isNone && (s.tableMissing x).isNone && x.synced then some (s.commitHead core slot x)
      else none

/-- The lines that the stores of a window lack are asked for again (R323), and those of its copies' tables (R55). -/
def State.askLines (s : State) (core slot : Nat) (x : Window) : State :=
  let s := x.stores.foldl (fun s e => if e.sync || s.coreWritable core e.loc then s else (s.request core slot e.loc true).1) s
  (s.tableMissing x).elim s fun loc => (s.request core slot loc false).1

/-- The warp holds the window of a pair whose second word acts with the commit (R107, R329). -/
def Warp.inPair (w : Warp) : Bool :=
  match w.wait with
  | some (.pair ..) => true
  | _ => false

/-- `WINDOW_COMMIT` (R323): a closed window commits; one whose stores lost a line asks for it again. The window of a pair whose
second word is irrevocable commits in the step in which that word acts. -/
def execWindowCommit (core slot : Nat) (s : State) : Res :=
  match s.commitOldest core slot with
  | some t => if (s.warp core slot).any (·.inPair) then notDue s else .next t
  | none =>
    match s.warp core slot with
    | none => notDue s
    | some w =>
      match w.windows with
      | [] => notDue s
      | x :: _ =>
        if x.isClosed && w.released x.serial && ((s.unwritable core x).isSome || (s.tableMissing x).isSome) then .next (s.askLines core slot x)
        else notDue s

/-- `ROLLBACK` (R325 to R327): a trigger reaches a line or granule in the read set of an uncommitted window. -/
def execRollback (core slot : Nat) (trigger : Gran) (s : State) : Res :=
  match s.warp core slot with
  | none => notDue s
  | some w =>
    match w.victim trigger with
    | none => notDue s
    | some n => .next (s.rollbackTo core slot n true)

/-- A steady window whose accesses are all performed commits what it holds, and its checkpoint advances (R332): what comes next
stands under a new serial number, so a rollback takes back nothing of what has committed, and the counts of R318 go on. -/
def State.flushSteady (s : State) (core slot : Nat) : State :=
  match s.warp core slot with
  | none => s
  | some w =>
    match w.windows with
    | [x] =>
      if !x.steady || x.isClosed || !w.released x.serial || w.atomsOut || !x.synced then s
      else if (s.unwritable core x).isSome || (s.tableMissing x).isSome then s.askLines core slot x
      else
        let s := (s.commitStores (warpKey core slot) x).freeEntries x.entries
        let x' := { x with
          serial := w.nextWindow, ck := w.regs, vOld := [], stores := [], ringOps := [], entries := [], touch := none, updates := [] }
        s.setWarp core slot ({ w with windows := [x'], nextWindow := w.nextWindow + 1 }.keepTouch x.touch)
    | _ => s

/-- The open window closes after the word that reached a limit of R317. -/
def Warp.closeFull (w : Warp) : Warp := w.mapOpen fun x => if x.full then { x with isClosed := true } else x

end Sys2Proof.Machine
end

