-- ==== Sys2Proof/Machine/Issue.lean ====
section
/-! DEFINITION. Issue (R11 to R16, R104 to R107, R123, R124): which warp may issue, which program counters rank first, the
fetch of a packet, chained pairs and dual issue, and what the end of an issue cycle changes. `run` is the meaning of a
word, `exec`. -/
namespace Sys2Proof

/-- The irrevocable words (R93), and `RFT`, which performs `commit_point()` too (R399). -/
def Instr.isIrrevocable : Instr → Bool
  | .atomIadd .. | .atomImin .. | .atomImax .. | .atomLogic .. | .atomXchg .. | .atomFmin .. | .atomFmax .. | .cas ..
  | .contribF32 .. | .mcontrib .. | .xfer .. | .xmc .. | .coll .. | .gemvn .. | .sweep .. | .kset .. | .kprod .. | .krel ..
  | .rdecl .. | .salloc .. | .sfree .. | .bar .. | .trigger .. | .launch .. | .snap .. | .trap .. | .svc .. | .exit .. | .rft .. => true
  | .setsr _ _ n => n.val = 14
  | _ => false

/-- `LIT` and `LIT2`. -/
def Instr.isLit : Instr → Bool
  | .lit .. | .lit2 .. => true
  | _ => false

/-- A word's stall count (R102). -/
def Instr.stall (i : Instr) : Nat := (i.hdr?).elim 0 fun h => h.w.val

/-- A word's chain bit. -/
def Instr.chained (i : Instr) : Bool := (i.hdr?).elim false fun h => h.c

end Sys2Proof

namespace Sys2Proof.Machine

/-! ### Pipes and classes (R93, R122) -/

/-- The pipes of R16. -/
inductive Pipe where
  | f | x | m | c
deriving DecidableEq, Repr

/-- The pipe of an instruction word (R122). -/
def pipeOf (word : Word) : Pipe :=
  let p := fld word.toNat 0 23
  if p < 0x400000 then
    let op := fld p 15 7
    if op < 0x2A then .f else if op < 0x30 then .m else if op < 0x36 then .f else .x
  else if p < 0x700000 then .m
  else if p < 0x780000 then .x
  else if p < 0x7C0000 then .c
  else
    let op := fld p 12 6
    if op ≤ 13 || op = 16 || op = 56 then .c else if op < 24 then .x else .m

/-- A chaining rule of R107 is broken by these two words of a packet. -/
def pairBroken (i j : Instr) (wi wj : Word) : Bool :=
  j.chained || pipeOf wi == pipeOf wj || pipeOf wi == .c || i.isLit || j.isLit || i.stall != 0

/-! ### Eligibility (R11) -/

/-- A fault whose handler the warp enters at its next issue cycle (R406). -/
def State.faultOwed (s : State) (core slot : Nat) : Option Nat :=
  (s.efaults.find? fun e => (e.2.recorded || e.2.handler) && !e.2.entered && s.faultSlot e.2 == some (core, slot)).map (·.1)

/-- A live thread whose program counter has not issued for 64 issue cycles and is not yet promoted (R14). -/
def Warp.promotable (w : Warp) : LaneSet :=
  Lanes.ofFn fun l => w.regs.threads[l].live && 64 ≤ w.since[l] && !w.promoted[l]

/-- A word of the warp can issue: a live lane does not wait in a `BAR`, and a checkpoint slot is free for it, or its window open. -/
def Warp.mayRun (w : Warp) : Bool :=
  let waiting := w.waiting
  (w.windows.length < 2 || w.openWin.isSome) && lanesUp.any fun l => w.regs.threads[l].live && !waiting[l]

/-- The state in which the second word of a pair acts, once what the first one did has been performed (R95, R329). -/
def State.pairDone (s : State) (core slot : Nat) (w : Warp) : Option State :=
  if w.windows.isEmpty then (if w.atomsOut then none else some s) else s.commitOldest core slot

/-- The warp with its ended waits dropped; none while it is not eligible (R11). Regrouping, promotion, a pending trap, a
soft error and a fault's handler come before its next issue; a pair under way ends first (R107). -/
def State.ready (s : State) (core slot : Nat) (w : Warp) : Option Warp :=
  if w.inPair then (if w.halt.isNone && w.pending.isNone && (s.pairDone core slot w).isSome then some w else none)
  else if w.halt.isSome || w.pending.isSome || w.soft.isSome || !w.mayRun || !w.regrouped || LaneSet.any w.promotable ||
      (!w.super && (s.faultOwed core slot).isSome) || (w.slotLoad true).isSome || (w.slotLoad false).isSome then none
  else
    let free := { w with wait := none }
    match w.wait with
    | none => some w
    | some .commit => if w.atCommit then some free else none
    | some (.pair ..) => none
    | some (.slot _) => some free
    | some (.drain ns) => if ns.any fun n => (SMap.get? s.entries n).isSome then none else some free
    | some (.line _) | some (.becalmed _) => none

/-! ### Candidates (R12, R14) -/

/-- A program counter where threads of the warp stand, with what ranks it; `solo` threads issue the first word of a pair
alone (R399). -/
structure Cand where
  pc : Pc
  lanes : LaneSet
  pop : Nat
  since : Nat
  promoted : Bool
  low : Bool
  solo : Bool

/-- The candidate of one program counter. Where threads of two bundles stand at it, it takes the larger population, as R14 says;
DESIGN CHOICE: it also takes the larger count since issue, and it is promoted if a thread of either bundle is, which the manual
leaves open (log 71). -/
def Warp.cand (w : Warp) (waiting : LaneSet) (pc : Pc) (solo : Bool) : Cand :=
  let here : LaneSet := Lanes.ofFn fun l => w.regs.threads[l].live && w.regs.threads[l].pc == pc && !waiting[l] &&
    w.regs.sup2[l] == solo
  let ls := LaneSet.list here
  { pc := pc, lanes := here, pop := ls.foldl (fun n l => max n w.pop[l]) 0, since := ls.foldl (fun n l => max n w.since[l]) 0
    promoted := ls.any fun l => w.promoted[l], low := ls.any fun l => w.yielded[l], solo := solo }

/-- Every candidate of a warp: the program counters of the live threads that do not wait in a `BAR`. -/
def Warp.cands (w : Warp) : List Cand :=
  let waiting := w.waiting
  ((lanesUp.filter fun l => w.regs.threads[l].live && !waiting[l]).map
    fun l => ((w.regs.threads[l]).pc, w.regs.sup2[l])).eraseDups.map fun x => w.cand waiting x.1 x.2

/-- `a` ranks ahead of `b` (R14, R142). DESIGN CHOICE: promoted counters that have waited equally long rank by population, then
lower packet index, then lower word number, an order that the manual gives only to unpromoted ones (log 71). -/
def Cand.ahead (a b : Cand) : Bool :=
  if a.low != b.low then b.low
  else if a.promoted != b.promoted then a.promoted
  else if a.promoted && a.since != b.since then b.since < a.since
  else if a.pop != b.pop then b.pop < a.pop
  else if a.pc.packet != b.pc.packet then a.pc.packet.toNat < b.pc.packet.toNat
  else a.pc.word < b.pc.word

/-- The candidates of a warp at the clock at which one of them may issue: the start packet of a long loop waits for fetch
(R367). -/
def Warp.pastCrossings (w : Warp) (all : List Cand) : Warp × List Cand :=
  let dues := fun (c : Cand) => w.crossed.filterMap fun x => if x.1 = c.pc && w.clk < x.2 then some x.2 else none
  let free := all.filter fun c => (dues c).isEmpty
  if !free.isEmpty then (w, free)
  else
    let now := ((all.map fun c => (dues c).foldl max w.clk).min?).getD w.clk
    ({ w with clk := now }, all.filter fun c => (dues c).all (· ≤ now))

/-- The first of a list of candidates. -/
def bestCand : List Cand → Option Cand
  | [] => none
  | c :: cs => match bestCand cs with
    | none => some c
    | some b => some (if b.ahead c then b else c)

/-! ### Fetch (R104, R105, R402) -/

/-- What the fetch of a packet gives. -/
inductive CodeFetch where
  | packet (ws : List Word)
  | fault (c : Cause) (va : Nat)
  | wait (loc : Loc)

/-- The code base of a warp: its launch's, or the handler's (R392, R396). -/
def State.codeBase (s : State) (w : Warp) : Nat :=
  if w.super then ctxField (s.ctxEntry w.ctx) 256 64 else w.code.toNat

/-- Where bytes of code stand. -/
def State.codeLoc (s : State) (core : Nat) (w : Warp) (va : Nat) : Except Cause Loc :=
  if 2 ^ 57 ≤ va then .error (.protection 0) else s.translate core w.ctx va { mmio := true, host := true } .fetch w.super

/-- Bytes `bs` at `a` before a store that replaced `old` at `b`. -/
def underlay (a : Nat) (bs : List Byte) (b : Nat) (old : List Byte) : List Byte :=
  bs.mapIdx fun k x => if b ≤ a + k then (old[a + k - b]?).getD x else x

/-- The values that a word of code has had since its launch's start, the first one first (R109): `now` stands at `a`, and stores replaced
the bytes listed, oldest first. -/
def wordsSince (a : Nat) (now : List Byte) : List (Nat × List Byte) → List (List Byte)
  | [] => [now]
  | (b, old) :: rest =>
    match wordsSince a now rest with
    | [] => []
    | x :: xs => if b < a + 4 && a < b + old.length then underlay a x b old :: x :: xs else x :: xs

/-- Bytes of code as a warp's fetch finds them (R109): each word is one of the values it has had since its launch's start. -/
def State.codeWords (s : State) (core : Nat) (w : Warp) (loc : Loc) (n : Nat) : List Byte :=
  let bs := s.bytesAt loc n
  let base := match loc with
    | .mem pa => pa
    | .host pa => 2 ^ 53 + pa
    | _ => 0
  let mine := s.stale.filterMap fun x => if x.1 = w.launch && x.2.1 < base + n && base < x.2.1 + x.2.2.length then some x.2 else none
  if mine.isEmpty then bs
  else (List.range ((n + 3) / 4)).flatMap fun k =>
    let a := base + 4 * k
    let vs := wordsSince a ((bs.drop (4 * k)).take 4) mine
    (vs[Config.staleFetch core w.age w.clk s.free a % max 1 vs.length]?).getD ((bs.drop (4 * k)).take 4)

/-- Fetches a packet whole: both pages when it straddles two. -/
def State.fetchPacket (s : State) (core : Nat) (w : Warp) (packet : Word) : CodeFetch :=
  let va := s.codeBase w + 12 * packet.toNat
  let n := min 12 (4096 - va % 4096)
  match s.codeLoc core w va with
  | .error (.table pa) => .wait (.mem pa)
  | .error c => .fault c va
  | .ok a =>
    if n = 12 then
      if s.readable a then .packet (wordsOfBytes (s.codeWords core w a 12)) else .wait a
    else match s.codeLoc core w (va + n) with
      | .error (.table pa) => .wait (.mem pa)
      | .error c => .fault c (va + n)
      | .ok b =>
        if !s.readable a then .wait a
        else if !s.readable b then .wait b
        else .packet (wordsOfBytes (s.codeWords core w a n ++ s.codeWords core w b (12 - n)))

/-- The trap of a failed fetch (R105): precise, at the program counter that was to issue. -/
def State.fetchTrap (s : State) (cur : Cur) (c : Cause) (va : Nat) : State :=
  s.raise cur cur.lanes { c.trap ((LaneSet.lowest cur.lanes).getD 0) (BitVec.ofNat 64 va) .fetch with } (roll := false)

/-- `FETCH_FAULT` (R105): the packet that the issue under way needs cannot be fetched. -/
def execFetchFault (kind : FetchFaultKind) (va : DWord) (s : State) : Res :=
  match s.cur with
  | none => notDue s
  | some cur =>
    .next (s.fetchTrap cur (match kind with
      | .absent => .pageFault
      | .notExecutable => .protection 3
      | .malformed => .protection 5
      | .badAddress => .protection 0) va.toNat)

/-- `ILLEGAL_ENCODING` (R123): the word of the issue under way is not a legal instruction. -/
def execIllegalEncoding (kind : IllegalKind) (s : State) : Res :=
  match s.cur with
  | none => notDue s
  | some cur =>
    .next (s.raise cur cur.lanes
      { kind := match kind with
          | .instruction => .illegalInstruction
          | .operand => .illegalOperand
          | .pairing => .illegalPairing
        lane := lowLane cur.lanes })

/-! ### The end of an issue cycle -/

/-- Sticky flags that have arrived are set (R133, R153). -/
def Regs.settle (r : Regs) (clk : Nat) : Regs :=
  let arrived := r.sticky.filter fun e => e.due < clk
  { r with
    sat := arrived.foldl (fun x e => x ||| e.sat) r.sat
    fflags := arrived.foldl (fun x e => x ||| e.fflags) r.fflags
    sticky := r.sticky.filter fun e => clk ≤ e.due }

/-- Records of results that have arrived, and that nothing older can show through, are dropped (R361). -/
def Warp.prune (w : Warp) : Warp := { w with marks := w.marks.dropWhile fun m => m.due ≤ w.clk }

/-- An issue cycle ends: the stall count passes (R102), the counts of R14 advance, the window may close. -/
def Warp.endCycle (w : Warp) (issued : LaneSet) (stall : Nat) : Warp :=
  let w := { w with
    clk := w.clk + 1 + stall
    issues := w.issues + 1
    regrouped := (w.issues + 1) % 4 != 0
    since := Lanes.ofFn fun l => if issued[l] then 0 else w.since[l] + 1
    promoted := LaneSet.diff w.promoted issued
    yieldClock := w.yieldClock && stall = 0
    arrivals := w.arrivals.filter fun a => w.clk + 1 + stall < a.2.1
    crossed := (w.crossed.map fun (x : Pc × Nat) => if x.2 = w.clk + 5 then (x.1, x.2 + stall) else x).filter fun x => w.clk + 1 + stall < x.2 }
  let w := { w with regs := w.regs.settle w.clk }
  w.closeFull.prune.trimY

/-- The F pipe of a partition is busy for every warp of it while one warp's word occupies it (R158, R360). -/
def State.shareF (s : State) (core slot : Nat) : State :=
  match s.warp core slot with
  | none => s
  | some w => { s with warps := s.warps.map fun e =>
      if e.1 / 4 = warpKey core slot / 4 then (e.1, { e.2 with fFree := max e.2.fFree w.fFree }) else e }

/-- The issue cycle of a warp, of `words` words, is over; a warp that exited is no longer there. The core counts its issued
words (R438). -/
def State.endIssue (s : State) (core slot : Nat) (issued : LaneSet) (stall : Nat) (words : Nat := 1) : State :=
  let s := State.shareF { s with cur := none, issued := SMap.put s.issued core (SMap.getD s.issued core 0 + BitVec.ofNat 64 words) } core slot
  match s.warp core slot with
  | none => s
  | some w => (s.setWarp core slot (w.endCycle issued stall)).flushSteady core slot

/-- How the issue under way ended. -/
def State.ended (s : State) : IssueEnd := (s.cur).elim .done (·.ended)

/-- The line of a page table that a word lacks is asked for, and the warp waits for it (R403). -/
def State.askTable (s : State) (core slot pa : Nat) : State :=
  let (s, why) := s.request core slot (.mem pa) false
  match s.warp core slot with
  | none => { s with cur := none }
  | some w => { s.setWarp core slot { w with wait := why } with cur := none }

/-- The word waits or trapped: no issue cycle passes for a wait. -/
def State.dropIssue (s : State) (core slot : Nat) (lanes : LaneSet) : State :=
  match s.ended with
  | .trapped => s.endIssue core slot lanes 0 0
  | .table pa => s.askTable core slot pa
  | _ => { s with cur := none }

/-- The word has not acted and waits. -/
def IssueEnd.waiting : IssueEnd → Bool
  | .waits | .table _ => true
  | _ => false

/-! ### Pairs and slot B (R13, R107) -/

/-- The open window of a warp closes and all its windows commit now, if they can. -/
def State.commitNow (s : State) (core slot : Nat) : Option State :=
  match s.warp core slot with
  | none => none
  | some w => (s.setWarp core slot w.closeOpen).commitOldest core slot

/-- Item 4 of R124 for a word. -/
def Warp.badOperands (w : Warp) (i : Instr) : Bool := !i.wellFormed || beyondFile i w.regCount

/-- The lanes whose reads item 5 of R124 checks. -/
def readLanes (i : Instr) (lanes : LaneSet) : LaneSet := if crossLane i then Lanes.all true else lanes

/-- `active` of a word as it issues. -/
def Warp.activeOf (w : Warp) (i : Instr) (lanes : LaneSet) : LaneSet := (i.hdr?).elim lanes fun h => w.active h lanes

/-- The check of items 4 and 5 that only the second word of a pair fails: its trap. -/
def secondTrap (cur : Cur) (i j : Instr) : Option Trap :=
  let w := cur.before
  let lane := lowLane (w.activeOf j cur.lanes)
  if w.badOperands i then none
  else if w.badOperands j then some { kind := .illegalOperand, lane := lane }
  else if w.heldByLoad i || w.heldByLoad j || (w.stallShort i (readLanes i cur.lanes)).isSome then none
  else (w.stallShort j (readLanes j cur.lanes)).map fun x => { kind := .stallShort, aux := x.1, lane := x.2 }

/-- The `q` registers that an operand writes. -/
def opndDsts : Opnd → List Nat
  | .dst32 (.q n) | .rw32 (.q n) => [n.val]
  | .dst64 (.q n) | .rw64 (.q n) => [n.val, n.val + 1]
  | .dst128 (.q n) | .rw128 (.q n) => [n.val, n.val + 1, n.val + 2, n.val + 3]
  | .rw256 (.q n) => (List.range 8).map (n.val + ·)
  | _ => []

/-- The second word of a pair wrote `q` registers in the lanes of `m`: a late value of the first word, whose loads are numbered
from `first` on and below `mid`, is discarded there (R32, R361). -/
def Warp.overruled (w : Warp) (first mid : Nat) (j : Instr) (m : LaneSet) : Warp :=
  let regs := j.operands.flatMap opndDsts
  let cut := fun (ld : PendLoad) =>
    if first ≤ ld.id && ld.id < mid then { ld with lost := ld.lost ++ (regs.filter ld.regs.contains).map fun r => (r, m) } else ld
  { w with loads := w.loads.map cut }

/-- The number of a warp's next load. -/
def State.loadNo (s : State) (core slot : Nat) : Nat := (s.warp core slot).elim 0 (·.nextLoad)

/-- Both words of a pair have acted, the second one's loads numbered from `mid` on. What the second one did beside a first word that acted outside any window is committed
at once, so that no checkpoint lies between them (R366). -/
def State.endPair (s : State) (cur2 : Cur) (mid : Nat) (j : Instr) (outside : Bool) : State :=
  let s := match s.warp cur2.core cur2.slot with
    | none => s
    | some w => s.setWarp cur2.core cur2.slot (w.overruled cur2.before.nextLoad mid j (cur2.before.activeOf j cur2.lanes))
  let s := if outside then (s.commitNow cur2.core cur2.slot).getD s else s
  s.endIssue cur2.core cur2.slot cur2.lanes j.stall 2

/-- No window of a warp is uncommitted. -/
def State.noWindow (s : State) (core slot : Nat) : Bool := (s.warp core slot).all fun w => w.windows.isEmpty

/-- A word that acted outside any window has moved the warp past the checkpoint whose rollbacks it counted (R331). -/
def State.noStreak (s : State) (core slot : Nat) : State :=
  match s.warp core slot with
  | none => s
  | some w => if w.windows.isEmpty then s.setWarp core slot { w with streak := 0, nextSteady := false } else s

/-- The second word of a pair acts on the state that the first one left. A trap or a wait of the second word undoes the
first (R107). One that acts only outside a window, such as a load from a register, acts once what the first did in registers
has committed. -/
def secondWord (run : Instr → State → Res) (s0 : State) (cur2 : Cur) (j : Instr) (after : State) : Res :=
  let after := (after.shareF cur2.core cur2.slot).noStreak cur2.core cur2.slot
  let mid := after.loadNo cur2.core cur2.slot
  match run j { after with cur := some cur2 } with
  | .next s =>
    if s.ended = .done then .next (s.endPair cur2 mid j (after.noWindow cur2.core cur2.slot))
    else match run j { s0 with cur := some cur2 } with
      | .next t =>
        if t.ended = .done then
          match after.commitNow cur2.core cur2.slot with
          | none => .next { s0 with cur := none }
          | some now => match run j { now with cur := some cur2 } with
            | .next u => .next (if u.ended = .done then u.endPair cur2 mid j true else { s0 with cur := none })
            | r => r
        else .next (t.dropIssue cur2.core cur2.slot cur2.lanes)
      | r => r
  | r => r

/-- What the first word of a pair did is performed now, if it can be. -/
def State.commitForSecond (s : State) (core slot : Nat) : Option State :=
  match s.warp core slot with
  | none => none
  | some w => if w.windows.isEmpty then s.pairDone core slot w else s.commitNow core slot

/-- The irrevocable second word of a pair waits until what the first one did, in `after`, has been performed. A first word that acted
outside any window, an atomic at a peer, does so only where the second word would act (R107). -/
def pairWaits (run : Instr → State → Res) (s0 : State) (cur2 : Cur) (j : Instr) (after : State) (w : Warp) : Res :=
  let waits := Host.Outcome.next { after.setWarp cur2.core cur2.slot
    { w.closeOpen with wait := some (.pair cur2.pc cur2.lanes cur2.before.regs) } with cur := none }
  if !w.windows.isEmpty then waits
  else match run j { s0 with cur := some cur2 } with
    | .next t => if t.ended = .done then waits else .next (t.dropIssue cur2.core cur2.slot cur2.lanes)
    | r => r

/-- A chained pair (R13): both words act for the same threads, or neither does (R107). Before an irrevocable second word the
warp's windows commit; then the first word issues, and the second acts as soon as what the first one did can commit, in one
step with that commit. -/
def issuePair (run : Instr → State → Res) (s : State) (cur : Cur) (i j : Instr) : Res :=
  let cur2 := { cur with second := true, pc := { cur.pc with word := cur.pc.word + 1 } }
  match secondTrap cur i j with
  | some t => .next ((s.raise cur2 (cur.before.activeOf j cur.lanes) t).endIssue cur.core cur.slot cur.lanes 0 0)
  | none =>
    let irr := j.isIrrevocable && LaneSet.any (cur.before.activeOf j cur.lanes)
    if !cur.before.badOperands i && cur.before.heldByLoad j then
      .next { s.setWarp cur.core cur.slot (cur.before.closeForStatus j) with cur := none }
    else if irr && !cur.before.windows.isEmpty then
      .next ({ (s.setWarp cur.core cur.slot { cur.before.closeOpen with wait := some .commit }) with cur := none })
    else match run i { s with cur := some cur } with
      | .next a =>
        if a.ended ≠ .done then .next (a.dropIssue cur.core cur.slot cur.lanes)
        else if irr then
          match a.commitForSecond cur.core cur.slot, a.warp cur.core cur.slot with
          | some a', _ => secondWord run s cur2 j a'
          | none, some w => pairWaits run s cur2 j a w
          | none, none => .next (a.endIssue cur.core cur.slot cur.lanes 0)
        else secondWord run s cur2 j a
      | r => r

/-- The warp of a pair whose first word has issued, as it stood before, with the registers of then: what its second word reads (R32,
R133). The first word made what its window made; outside a window, what it left in flight last. -/
def Warp.beforePair (w : Warp) (regs : Regs) : Warp :=
  let serial := w.windows.head?.elim 0 (·.serial)
  let mine := fun (ld : PendLoad) => if w.windows.isEmpty then w.nextLoad ≤ ld.id + 1 else ld.win = serial
  { w with
    regs := regs, windows := [], wait := none, loads := w.loads.filter fun ld => !mine ld
    marks := if w.windows.isEmpty then [] else w.marks.filter fun m => m.win != serial
    nextLoad := ((w.loads.filter mine).map (·.id)).foldl min w.nextLoad }

/-- The irrevocable second word of a pair acts, in one step with the commit of what the first one did (R329). Where it waits
for a line nothing of the pair is committed; where it traps neither word takes effect (R107). -/
def issueSecond (run : Instr → State → Res) (s : State) (core slot : Nat) (w : Warp) (pc : Pc) (lanes : LaneSet) (before : Regs) : Res :=
  match s.fetchPacket core w pc.packet, s.pairDone core slot w with
  | .packet ws, some now =>
    match decode (ws.drop pc.word) with
    | .error _ => notDue s
    | .ok j =>
      let cur2 : Cur :=
        { core := core, slot := slot, pc := pc, lanes := lanes, before := w.beforePair before, second := true, ended := .done }
      match now.warp core slot with
      | none => notDue s
      | some w' =>
        let mid := now.loadNo core slot
        match run j { now.setWarp core slot { w' with wait := none, yielded := Lanes.all false } with cur := some cur2 } with
        | .next t =>
          match t.ended with
          | .done => .next (t.endPair cur2 mid j true)
          | .waits | .table _ =>
            match run j { s.setWarp core slot { w with windows := [], wait := none } with cur := some cur2 } with
            | .next u =>
              let u := match u.ended with
                | .table pa => u.askTable core slot pa
                | _ => u
              .next { u.setWarp core slot w with cur := none }
            | r => r
          | .trapped =>
            let back := match w.windows with
              | [] => s.setWarp core slot { w with regs := before, wait := none }
              | x :: _ => s.rollbackTo core slot x.serial false
            match run j { back with cur := some cur2 } with
            | .next u => .next (u.endIssue core slot lanes 0 0)
            | r => r
        | r => r
  | _, _ => notDue s

/-- The clock from which the loaded values that a word names can be there (R186). -/
def Warp.arrivalOf (w : Warp) (i : Instr) : Nat :=
  let named := i.operands.flatMap opndQRegs
  w.arrivals.foldl (fun n a => if named.contains a.1 then max n a.2.1 else n) 0

/-- The word that may issue in slot B beside slot A's (R13): decoded, unchained, ready, not irrevocable, no check fails. -/
def State.slotB (s : State) (cur : Cur) (pipeA : Pipe) (b : Cand) : Option (Instr × Pipe) :=
  match s.fetchPacket cur.core cur.before b.pc.packet with
  | .packet ws =>
    match ws.drop b.pc.word with
    | [] => none
    | word :: rest =>
      match decode (word :: rest) with
      | .error _ => none
      | .ok j =>
        let w := cur.before
        let busy := pipeOf word == .f && w.clk < w.fFree || w.clk < w.arrivalOf j
        if j.chained || pipeOf word == pipeA || busy || j.isIrrevocable || w.badOperands j || w.heldByLoad j ||
            (w.stallShort j (readLanes j b.lanes)).isSome then none
        else some (j, pipeOf word)
  | _ => none

/-- The warp waits for more than a slot: after slot A's word no window may open (R329). -/
def Warp.waitsAlone (w : Warp) : Bool :=
  match w.wait with
  | none | some (.slot _) => false
  | _ => true

/-- Threads that need not issue the first word of a pair alone any more (R399). -/
def Warp.noSolo (w : Warp) (lanes : LaneSet) : Warp := { w with regs := { w.regs with sup2 := LaneSet.diff w.regs.sup2 lanes } }

/-- What slot B's word left in flight since `w` is checked by the scoreboard in force as it issued (R155). -/
def Warp.checkedAs (w' w : Warp) (chk : Bool) : Warp :=
  let fix := fun (l : Fin 32) => (w'.regs.y[l]).mapIdx fun k e =>
    if k + (w.regs.y[l]).length < (w'.regs.y[l]).length then { e with chk := chk } else e
  { w' with
    marks := w'.marks.mapIdx fun k m => if k < w.marks.length then m else { m with chk := chk }
    regs := { w'.regs with y := Lanes.ofFn fix } }

/-- Slot B issues in the clock of slot A (R13), also beside a `KROOM` or `KWAIT` that waits from then on; a word that cannot
issue there, because it waits for its line or a checkpoint slot, leaves the slot empty. -/
def issueB (run : Instr → State → Res) (a : State) (cur : Cur) (i : Instr) (pipeA : Pipe) (b : Option Cand) : Res :=
  let alone := Host.Outcome.next (a.endIssue cur.core cur.slot cur.lanes i.stall)
  match b, a.warp cur.core cur.slot with
  | some b, some w =>
    if w.pending.isSome || w.waitsAlone || w.halt.isSome || w.super != cur.before.super then alone
    else match a.slotB cur pipeA b with
      | none => alone
      | some (j, _) =>
        let curB := { cur with pc := b.pc, lanes := b.lanes, slotB := true }
        match run j { a.setWarp cur.core cur.slot (w.closeFull.noSolo b.lanes) with cur := some curB } with
        | .next s =>
          let s := match s.ended, s.warp cur.core cur.slot with
            | .done, some w' => if w.sbchk == cur.before.sbchk then s else s.setWarp cur.core cur.slot (w'.checkedAs w cur.before.sbchk)
            | _, _ => s
          if s.ended.waiting then alone
          else .next (s.endIssue cur.core cur.slot (LaneSet.union cur.lanes b.lanes) (max i.stall j.stall) 2)
        | r => r
  | _, _ => alone

/-! ### One issue cycle -/

/-- A word of the F pipe issues when that pipe is free (R158, R360), and no word issues before a load's values that it
names can be there (R186). -/
def Warp.toPipe (w : Warp) (f : Bool) (is : List Instr) : Warp :=
  let clk := is.foldl (fun n i => max n (w.arrivalOf i)) w.clk
  { w with clk := if f then max clk w.fFree else clk }

/-- The first word of a pair issues alone, and its threads go on after the pair (R399). -/
def issueSolo (run : Instr → State → Res) (s : State) (cur : Cur) (i : Instr) (wi : Word) : Res :=
  let w := cur.before.toPipe (pipeOf wi == .f) [i]
  let cur := { cur with before := w }
  match run i { s.setWarp cur.core cur.slot w with cur := some cur } with
  | .next a =>
    if State.ended a != .done then .next (a.dropIssue cur.core cur.slot cur.lanes)
    else match a.warp cur.core cur.slot with
      | none => .next (a.endIssue cur.core cur.slot cur.lanes 0)
      | some w =>
        let w := (w.advance { cur.pc with word := cur.pc.word + 1 } cur.lanes 0).noSolo cur.lanes
        .next ((a.setWarp cur.core cur.slot w).endIssue cur.core cur.slot cur.lanes 0)
  | r => r

/-- `RFT` outside the handler is no instruction (R247): item 2 of R124. -/
def Warp.illegal (w : Warp) (i : Instr) : Bool := match i with
  | .rft _ => !w.super
  | _ => false

/-- The words at the first candidate are decoded and issue, alone, as a pair, or beside slot B. -/
def issueWords (run : Instr → State → Res) (s : State) (cur : Cur) (ws : List Word) (solo : Bool) (b : Option Cand) : Res :=
  let core := cur.core
  let slot := cur.slot
  let trap := fun (c : Cur) (k : TrapKind) (act : LaneSet) =>
    Host.Outcome.next ((s.raise c act { kind := k, lane := lowLane act }).endIssue core slot cur.lanes 0 0)
  match ws.drop cur.pc.word with
  | [] => trap cur .illegalInstruction cur.lanes
  | wi :: rest =>
    match decode (wi :: rest) with
    | .error _ => trap cur .illegalInstruction cur.lanes
    | .ok i =>
      if cur.before.illegal i then trap cur .illegalInstruction (cur.before.activeOf i cur.lanes)
      else if i.chained then
        let act := cur.before.activeOf i cur.lanes
        if i.isLit then trap cur .illegalPairing act
        else match rest with
          | [] => trap cur .illegalPairing act
          | wj :: _ =>
            match decode rest with
            | .error _ => trap { cur with second := true } .illegalInstruction cur.lanes
            | .ok j =>
              if cur.before.illegal j then trap { cur with second := true } .illegalInstruction (cur.before.activeOf j cur.lanes)
              else if pairBroken i j wi wj then trap cur .illegalPairing act
              else if solo then issueSolo run s cur i wi
              else
                let w := cur.before.toPipe (pipeOf wi == .f || pipeOf wj == .f) [i, j]
                issuePair run (s.setWarp core slot w) { cur with before := w } i j
      else
        let w := (cur.before.toPipe (pipeOf wi == .f) [i]).noSolo cur.lanes
        let cur := { cur with before := w }
        match run i { s.setWarp core slot w with cur := some cur } with
        | .next a => if State.ended a = .done then issueB run (a.noStreak core slot) cur i (pipeOf wi) b else .next (a.dropIssue core slot cur.lanes)
        | r => r

/-- Where the warp only waited no issue cycle passed, so what ranks its counters in its next one, and its wait count, stand as
before the attempt (R142, R389). -/
def State.keepRank (s : State) (core slot : Nat) (w0 : Warp) : State :=
  match s.warp core slot with
  | none => s
  | some w =>
    if w.issues = w0.issues then s.setWarp core slot { w with yielded := w0.yielded, waits := w0.waits, urgent := w0.urgent } else s

/-- The words of a warp's candidate issue, with the warp as the issue finds it. -/
def issueNow (run : Instr → State → Res) (core slot delay : Nat) (w : Warp) (s0 : State) : Res :=
  match w.wait with
  | some (.pair pc lanes before) =>
    let w := { w with clk := w.clk + delay }
    issueSecond run (s0.setWarp core slot w) core slot w pc lanes before
  | _ =>
      let s := (s0.setWarp core slot { w with clk := w.clk + delay, waits := 0, urgent := false }).flushSteady core slot
      match s.warp core slot with
      | none => notDue s0
      | some w =>
        let (w, all) := w.pastCrossings (w.cands)
        match bestCand all with
        | none => notDue s0
        | some a =>
          let w := { w with yielded := Lanes.all false }
          let cur : Cur := { core := core, slot := slot, pc := a.pc, lanes := a.lanes, before := w, second := false, ended := .done }
          let s := s.setWarp core slot w
          match s.fetchPacket core w a.pc.packet with
          | .fault c va => .next ((s.fetchTrap cur c va).endIssue core slot a.lanes 0 0)
          | .wait loc =>
            let (s, why) := s.request core slot loc false
            .next { s.holdWord cur w why with cur := none }
          | .packet ws => issueWords run s cur ws a.solo (bestCand (all.filter fun c => c.pc != a.pc))

/-- AN ISSUE CYCLE of a warp (R12 to R14), `delay` clocks after it could have issued. -/
def issueCycle (run : Instr → State → Res) (core slot delay : Nat) (s : State) : Res :=
  match s.warp core slot with
  | none => notDue s
  | some w0 =>
    match s.ready core slot w0 with
    | none => notDue s
    | some w =>
      match issueNow run core slot delay w s with
      | .next t => .next (t.keepRank core slot w0)
      | r => r

/-! ### Eligible warps (R11, R389) -/

/-- A word of a packet with its pipe. -/
def wordAt (ws : List Word) (k : Nat) : Option (Instr × Pipe) :=
  match ws.drop k with
  | [] => none
  | word :: rest => match decode (word :: rest) with
    | .error _ => none
    | .ok i => some (i, pipeOf word)

/-- The words that a candidate would issue. -/
def wordsAt (ws : List Word) (c : Cand) : List (Instr × Pipe) :=
  match wordAt ws c.pc.word with
  | none => []
  | some i => if i.1.chained && !c.solo then i :: (wordAt ws (c.pc.word + 1)).toList else [i]

/-- The words of the first candidate of a warp that is ready, with the warp at the clock at which that may issue. -/
def State.firstWords (s : State) (core : Nat) (w : Warp) : Warp × List (Instr × Pipe) :=
  let (w, all) := w.pastCrossings (w.cands)
  match bestCand all with
  | none => (w, [])
  | some a => match s.fetchPacket core w a.pc.packet with
    | .packet ws => (w, wordsAt ws a)
    | _ => (w, [])

/-- The clock at which a warp can issue its candidate's word; none while it is not eligible (R11): it waits, or the load
scoreboard holds an operand of that word. -/
def State.issueAt (s : State) (core slot : Nat) (w : Warp) : Option Nat :=
  match s.ready core slot w with
  | none => none
  | some w =>
    if w.loads.isEmpty && w.arrivals.isEmpty && w.crossed.isEmpty && w.fFree ≤ w.clk || w.wait.isSome then some w.clk
    else
      let (w, is) := s.firstWords core w
      if is.any fun i => w.heldByLoad i.1 then none else some (w.toPipe (is.any fun i => i.2 == .f) (is.map (·.1))).clk

/-- A window closes whose entry's status the warp's next word reads (R38): its entry starts after the commit. -/
def State.closeHeld (s : State) (core slot : Nat) : State :=
  match s.warp core slot with
  | none => s
  | some w => match s.ready core slot w with
    | none => s
    | some r => s.setWarp core slot ((s.firstWords core r).2.foldl (fun w i => w.closeForStatus i.1) w)

/-! ### Bookkeeping of the issue stage -/

/-- `BUNDLE_REGROUP` (R14): at every fourth issue cycle the live threads regroup into bundles by program counter. -/
def execBundleRegroup (core slot : Nat) (s : State) : Res :=
  match s.warp core slot with
  | none => notDue s
  | some w =>
    if w.regrouped then notDue s
    else
      let size := fun (l : Fin 32) => (lanesUp.filter fun k =>
        w.regs.threads[k].live && w.regs.threads[k].pc == w.regs.threads[l].pc).length
      .next (s.setWarp core slot { w with pop := Lanes.ofFn size, regrouped := true })

/-- `COUNTER_PROMOTION` (R14): program counters that have not issued for 64 issue cycles of the warp are promoted. -/
def execCounterPromotion (core slot : Nat) (s : State) : Res :=
  match s.warp core slot with
  | none => notDue s
  | some w =>
    if !LaneSet.any w.promotable then notDue s
    else .next (s.setWarp core slot { w with promoted := LaneSet.union w.promoted w.promotable })

/-- `WARP_URGENT` (R389): a wait count reaches 16. -/
def execWarpUrgent (core slot : Nat) (s : State) : Res :=
  match s.warp core slot with
  | none => notDue s
  | some w => if w.urgent || w.waits < 16 then notDue s else .next (s.setWarp core slot { w with urgent := true })

end Sys2Proof.Machine
end

