-- ==== Sys2Proof/Machine/Boot.lean ====
section
/-! DEFINITION. A device with one packet of code ready to issue: what a driver and a launch put in place before the first
word of a warp (R104, R377, R392, R402, R431). -/
namespace Sys2Proof.Machine

/-- Physical and virtual address of the packet. -/
def bootCode : Nat := 0x10000

/-- Context entry 0 of the table at 0x1000: valid, root table at 0x2000, handler code and frames elsewhere (R392). -/
def bootContext : Nat := 1 + 0x2000 + 0x20000 * 2 ^ 256 + 0x100000 * 2 ^ 384

/-- The page tables: three tables to one leaf of 1 GiB over the start of stack 0, readable, writable, executable (R402). -/
def bootTables : List (Nat × Nat) :=
  [(0x2000, 1 + 0x3000), (0x3000, 1 + 0x4000), (0x4000, 1 + 8 + 16 + 32 + 64)]

/-- The launch whose warp issues: one block of one warp at level 2, entry packet 0 at the code base (R377). -/
def bootLaunch (self : Nat) : Launch :=
  { newLaunch 0 (bootCode * 2 ^ 64 + 2 ^ 736 + 2 ^ 832 + 2 * 2 ^ 839 + 2 ^ (896 + self)) 0 0 with
    startable := true, started := true, placed := [0] }

/-- Its block, on core 0. -/
def bootBlock : Block :=
  { launch := 0, index := 0, core := 0, base := 0, size := 0, hstatic := 0, warps := 1, allocs := [], rings := []
    exited := [], inbound := [], triggers := 0, ended := false, away := false }

/-- Places code, tables and context in memory. -/
def bootMemory (m : Memory) (code : List Byte) : Memory :=
  let m := bootTables.foldl (fun m e => Memory.write m e.1 (bytesLE 8 e.2)) m
  Memory.write (Memory.write m 0x1000 (bytesLE 64 bootContext)) bootCode code

/-- The state with a packet's bytes at the code base of a warp in slot 0 of core 0, whose issue comes next. -/
def State.withCode (s : State) (code : List Byte) : State :=
  { s with
    cur := none
    agenda := [.issue 0 0 0]
    self := 0
    present := s.present ||| 1
    mem := bootMemory s.mem code
    stale := []
    mmio := SMap.put (SMap.put s.mmio 0x2000 0x1000) 0x30000 (s.reg 0x30000 0 ||| 1)
    ctxs := SMap.del s.ctxs 0
    tlb := s.tlb.filter fun t => t.ctx != 0
    launches := SMap.put s.launches 0 (bootLaunch 0)
    blocks := SMap.put s.blocks 0 bootBlock
    warps := SMap.put s.warps 0 { newWarp (bootLaunch 0) 0 0 0 0 0 0 with regCount := 128 }
    efaults := []
    bars := []
    updates := SMap.del s.updates (bootCode / 128)
    hostSec := SMap.del s.hostSec (bootCode / 64)
    pages := SMap.del s.pages (bootCode / 4096) }

end Sys2Proof.Machine
end

