-- ==== Sys2Proof/Machine/Atomics.lean ====
section
/-! DEFINITION. Atomics and compare-and-swap (R192 to R199). -/
namespace Sys2Proof.Machine

/-- The targets of R198. -/
inductive AtomTarget where
  | own | peer | host
deriving DecidableEq, Repr

/-- Where an atomic's location lies for R198: a page lent to this device counts as own. -/
def State.atomTarget (s : State) (loc : Loc) : AtomTarget :=
  match loc with
  | .mem pa => if pa / 2 ^ 48 = s.self ∨ (SMap.get? s.loans (pa / 4096)).isSome then .own else .peer
  | .host _ => .host
  | _ => .own

/-- An atomic form as R198 lists it: whether hardware performs it on a peer's and on host memory. -/
structure AtomForm where
  peer : Bool
  host : Bool

/-- The table of R198. -/
def AtomForm.allows (f : AtomForm) : AtomTarget → Bool
  | .own => true
  | .peer => f.peer
  | .host => f.host

/-- The smaller or larger of old and x, as `imin` and `imax` choose it (R193): m 0 and 2 signed, 1 and 3 unsigned. -/
def atomPick (m : Nat) (max : Bool) (old x : Nat) : Nat :=
  let w := if m < 2 then 32 else 64
  let less := if m % 2 = 0 then sextNat x w < sextNat old w else x < old
  let more := if m % 2 = 0 then sextNat old w < sextNat x w else old < x
  if max then (if more then x else old) else if less then x else old

/-- The functions of `ATOM.logic` (R193): m[2:1] 0 and, 1 or, 2 xor. -/
def atomLogicOp (m old x : Nat) : Nat :=
  match m / 2 with
  | 0 => old &&& x
  | 1 => old ||| x
  | _ => old ^^^ x

/-- Elementwise minimum or maximum by type m (R195): 0 FP32, 1 FP16 pairs, 2 BF16 pairs, 3 FP64. -/
def atomFloat (m : Nat) (max : Bool) (old x : Nat) : Nat :=
  let two := fun (f : Fmt) => f.minMax max (bits old 0 16) (bits x 0 16) + f.minMax max (bits old 16 16) (bits x 16 16) * 2 ^ 16
  match m with
  | 0 => fp32.minMax max old x
  | 1 => two fp16
  | 2 => two bf16
  | _ => fp64.minMax max old x

/-- The new value that an atomic of an operation code gives (R193 to R196); none where it writes nothing. -/
def atomApply (code m size old x y : Nat) : Option Nat :=
  match code with
  | 46 => some ((old + x) % 2 ^ (8 * size))
  | 47 => some (atomPick m false old x)
  | 48 => some (atomPick m true old x)
  | 49 => some (atomLogicOp m old x)
  | 50 => some x
  | 51 => some (atomFloat m false old x)
  | 52 => some (atomFloat m true old x)
  | _ => if old = x then some y else none

/-- A write event of an atomic (R197): in the L1, which takes the line M and whose weathervane falls; at the home slice with every
holder invalidated; on a SYNC line at the home slice, whose result is sent after it (R415). -/
def State.atomWrite (s : State) (key : Nat) (loc : Loc) (bs : List Byte) (sync : Bool) : State :=
  let core := key / 64
  match loc with
  | .mem pa =>
    let line := pa / 128
    if sync then s.writeEvent (some key) loc bs true
    else if (s.tag core line).vane ≤ 1 then
      (s.writeEvent (some key) loc bs).tagLines core [line] fun t => { t with vane := t.vane - 1, valid := true }
    else ((s.dirTake line (some key)).writeEvent (some key) loc bs true)
  | _ => s.writeEvent (some key) loc bs

/-- A compare that does not swap takes its line all the same, with its effect on the weathervane (R197), and writes nothing. -/
def State.atomRead (s : State) (key : Nat) (loc : Loc) (sync : Bool) : State :=
  match loc with
  | .mem pa =>
    let line := pa / 128
    if sync then s
    else if (s.tag (key / 64) line).vane ≤ 1 then
      (if pa / 2 ^ 48 = s.self then s.dirWrite (key / 64) line (some key) else s).tagLines (key / 64) [line] fun t =>
        { t with vane := t.vane - 1, valid := true }
    else if pa / 2 ^ 48 = s.self then s.dirTake line (some key) else s
  | _ => s

/-- One lane's read-modify-write here: the old value, the new state, whether a SYNC line was written. A guard touch gives 0 and
writes nothing (R76). -/
def State.atomLane (s : State) (w : Warp) (key n : Nat) (r : AtomReq) : Nat × State × Bool :=
  if (s.touch w r.loc n).isSome then (0, s, false)
  else
    let old := leNat (s.bytesAt r.loc n)
    let sync := s.isSync (key / 64) w.ctx r.va r.loc
    match atomApply r.code r.m n old r.x r.y with
    | none => (old, s.atomRead key r.loc sync, false)
    | some x =>
      let s := s.atomWrite key r.loc (bytesLE n x) sync
      (old, (match r.loc with
        | .mem pa => s.endStores (key / 64) (pa / 128) [] false
        | _ => s), sync)

/-- The lanes of a word in the order in which they act: ascending, the lanes that name one address together (R80, R194). -/
def atomOrder (rs : List AtomReq) : List AtomReq :=
  ((rs.map (·.loc)).eraseDups).flatMap fun loc => rs.filter fun r => r.loc == loc

/-- How far the lanes of an atomic word come: the state, the old values of lanes that acted here, how many lanes were sent to a peer,
the lanes that follow, and the device toward which the core has no allowance for the first of them (R354). -/
structure AtomRun where
  state : State
  olds : List (Nat × Nat)
  away : Nat
  rest : List AtomReq
  calm : Option Nat := none

/-- The device may act on the location now for a core: where the atomic performs in the L1 (R197), a way of its set is free (R322). -/
def State.atomReady (s : State) (core : Nat) (loc : Loc) : Bool :=
  s.writable loc && s.readable loc && (match loc with
    | .mem pa => 2 ≤ (s.tag core (pa / 128)).vane || (s.noWay core [pa / 128]).isNone
    | _ => true)

/-- Lanes act in order. Those at own and host memory act here while the device may, and what the lanes of one address left on a
SYNC line is sent once, after the last of them (`owes`: one of them has written); the lanes that follow one another at one line of
a peer go in one request, drawn from the core's allowance, and the lanes behind them wait for its answer; this device keeps no copy
of that line meanwhile. -/
def State.atomRun (s : State) (w : Warp) (core slot n load : Nat) (owes : Bool) : List AtomReq → AtomRun
  | [] => { state := s, olds := [], away := 0, rest := [] }
  | r :: rest =>
    if s.atomTarget r.loc = .peer then
      let dev := r.loc.flat.2 / 2 ^ 48
      let run := r :: rest.takeWhile fun x => x.loc.gran == r.loc.gran
      if s.busyLine r.loc.lineNo then { state := s, olds := [], away := 0, rest := r :: rest }
      else
      let s := s.addInterest core dev
      if s.allowance core dev = 0 then { state := s, olds := [], away := 0, rest := r :: rest, calm := some dev }
      else
        let s := s.dropLine r.loc.lineNo
        { state := (({ s with away := s.away ++ [r.loc.lineNo] } : State).drawAllowance core dev).sendMsg core dev false false
            (.atomic n run core slot load (s.isSync core w.ctx r.va r.loc))
          olds := [], away := run.length, rest := (r :: rest).drop run.length }
    else if !s.atomReady core r.loc then { state := s, olds := [], away := 0, rest := r :: rest }
    else
      let (old, s, wrote) := s.atomLane w (warpKey core slot) n r
      let owes := owes || wrote
      let last := !rest.any fun x => x.loc == r.loc
      let s := match owes && last, r.loc with
        | true, .mem pa => s.sendResult (pa / 128) [(pa, s.bytesAt r.loc n)]
        | _, _ => s
      let more := State.atomRun s w core slot n load (owes && !last) rest
      { more with olds := (r.lane, old) :: more.olds }

/-- A warp is becalmed at a later request of an atomic word (R354): it issues nothing until the core has allowance again. -/
def AtomRun.becalms (run : AtomRun) (key : Nat) (w : Warp) : State × Warp :=
  match run.calm, w.wait with
  | some dev, none => (run.state.becalm key dev, { w with wait := some (.becalmed dev) })
  | _, _ => (run.state, w)

/-- The lanes of an atomic word that wait for no answer act as far as they can (R80). -/
def State.atomGo (s : State) (core slot load : Nat) : State :=
  match s.warp core slot with
  | none => s
  | some w =>
    match w.load? load with
    | some ld => match ld.kind with
      | .remote size 0 (r :: rest) =>
        let dev := r.loc.flat.2 / 2 ^ 48
        if s.atomTarget r.loc != .peer && !s.atomReady core r.loc then (s.request core slot r.loc true).1
        else if s.atomTarget r.loc == .peer && s.allowance core dev = 0 && w.wait == some (.becalmed dev) then s
        else
          let run := s.atomRun w core slot size load false (r :: rest)
          match run.state.warp core slot with
          | none => run.state
          | some w =>
            let w := w.deliver ld (Lanes.ofFn fun l => run.olds.any fun v => v.1 = l.val) fun l =>
              ((run.olds.find? fun v => v.1 = l.val).map (·.2)).getD 0
            let (s, w) := run.becalms (warpKey core slot) w
            s.setWarp core slot (if run.away = 0 && run.rest.isEmpty then w.release ld.id
              else { w with loads := w.loads.map fun x => if x.id = ld.id then { x with kind := .remote size run.away run.rest } else x })
      | _ => s
    | none => s

/-- The first lane whose device lacks permission now, or a way of the L1. -/
def State.atomMissing (s : State) (core : Nat) (locs : List (Fin 32 × Loc)) : Option Loc :=
  (locs.find? fun e => if s.atomTarget e.2 = .peer then s.busyLine e.2.lineNo else !s.atomReady core e.2).map (·.2)

/-- A peer toward which the core has no allowance. -/
def State.atomBecalmed (s : State) (core : Nat) (locs : List (Fin 32 × Loc)) : Option Nat :=
  locs.findSome? fun e =>
    if s.atomTarget e.2 = .peer then
      let dev := e.2.flat.2 / 2 ^ 48
      if s.allowance core dev = 0 then some dev else none
    else none

/-- What each lane of an atomic word asks for: operation code, m, and the operands x and y. -/
structure AtomSend where
  code : Nat
  m : Nat
  x : Nat
  y : Nat

/-- An atomic word (R194, R198): `n` bytes at the address pair `a`; `send` gets the warp at the start of the clock. -/
def atomWord (i : Instr) (h : Hdr) (d : Near) (a : Fin 16) (n : Nat) (form : AtomForm)
    (send : Warp → Fin 32 → AtomSend) (s : State) : Res :=
  irrevocable i h s fun w cur act =>
    let va := fun (l : Fin 32) => cur.before.read64 (atomPair a) l
    match collect (fun l => s.globalLoc w cur.core { mmio := false, host := true } .rmw n (va l)) (LaneSet.list act) with
    | .error (l, c) => trapWord s cur w act (c.trap l (va l) .rmw)
    | .ok locs =>
      match locs.find? fun e => !form.allows (s.atomTarget e.2) with
      | some (l, _) => trapWord s cur w act { kind := .atomicEmulate, lane := l.val, va := va l, akind := 2 }
      | none =>
        match s.atomMissing cur.core locs with
        | some loc =>
          let (s, why) := if s.atomTarget loc = .peer then (s, loc.gran.map Wait.line) else s.request cur.core cur.slot loc true
          .next (s.holdWord cur w why)
        | none =>
          match s.atomBecalmed cur.core locs with
          | some dev =>
            let s := (s.addInterest cur.core dev).becalm (warpKey cur.core cur.slot) dev
            .next (s.holdWord cur w (some (.becalmed dev)))
          | none =>
            let w := (s.noteTouches w n locs).noteError (s.poisoned locs)
            let s := s.cachePages cur.core w.ctx ((LaneSet.list act).map fun l => (va l).toNat)
            let reqs := locs.map fun e =>
              let x := send cur.before e.1
              ({ lane := e.1.val, va := (va e.1).toNat, loc := e.2, code := x.code, m := x.m, x := x.x, y := x.y } : AtomReq)
            let run := s.atomRun w cur.core cur.slot n w.nextLoad false (atomOrder reqs)
            let kind := if run.away = 0 && run.rest.isEmpty then LoadKind.data else .remote n run.away run.rest
            let (w, id) := w.addLoad (loadRegs d n) act kind
            let f := fun (l : Fin 32) => ((run.olds.find? fun e => e.1 = l.val).map (·.2)).getD 0
            let (s, w) := run.becalms (warpKey cur.core cur.slot) ((w.putLoaded d n act f id).advance cur.pc cur.lanes 0)
            finish s cur w

/-- The operand x of an atomic: d of `n` bytes. -/
def atomArg (n : Nat) (d : Near) (before : Warp) (l : Fin 32) : Nat :=
  if n = 8 then (before.read64 d l).toNat else (before.read32 .int d l).toNat

/-- An `ATOM` of an operation code (R193). -/
def atomRmw (i : Instr) (h : Hdr) (d : Near) (a : Fin 16) (n code m : Nat) (form : AtomForm) (s : State) : Res :=
  atomWord i h d a n form (fun before l => { code := code, m := m, x := atomArg n d before l, y := 0 }) s

/-- Bytes of a width code: 0 four, 1 eight (R193). -/
def atomBytes (wide : Bool) : Nat := if wide then 8 else 4

/-- Performed on peers and on host memory (R198). -/
def formAll : AtomForm := { peer := true, host := true }
/-- Performed on peers, not on host memory. -/
def formPeer : AtomForm := { peer := true, host := false }
/-- Performed on own memory alone. -/
def formOwn : AtomForm := { peer := false, host := false }

/-- `ATOM.iadd` (R193, R194). -/
def execAtomIadd (h : Hdr) (d : Near) (a : Fin 16) (m : Fin 8) (s : State) : Res :=
  let n := atomBytes (m.val == 1)
  atomRmw (.atomIadd h d a m) h d a n 46 m.val formAll s
/-- `ATOM.imin` (R193, R194). -/
def execAtomImin (h : Hdr) (d : Near) (a : Fin 16) (m : Fin 8) (s : State) : Res :=
  atomRmw (.atomImin h d a m) h d a (atomBytes (2 ≤ m.val)) 47 m.val formPeer s
/-- `ATOM.imax` (R193, R194). -/
def execAtomImax (h : Hdr) (d : Near) (a : Fin 16) (m : Fin 8) (s : State) : Res :=
  atomRmw (.atomImax h d a m) h d a (atomBytes (2 ≤ m.val)) 48 m.val formPeer s
/-- `ATOM.logic` (R193, R194). -/
def execAtomLogic (h : Hdr) (d : Near) (a : Fin 16) (m : Fin 8) (s : State) : Res :=
  atomRmw (.atomLogic h d a m) h d a (atomBytes (m.val % 2 == 1)) 49 m.val formAll s
/-- `ATOM.xchg` (R193, R194). -/
def execAtomXchg (h : Hdr) (d : Near) (a : Fin 16) (m : Fin 8) (s : State) : Res :=
  atomRmw (.atomXchg h d a m) h d a (atomBytes (m.val == 1)) 50 m.val formAll s

/-- The forms of `fmin` and `fmax` by type (R198). -/
def floatForm (m : Nat) : AtomForm := if m = 0 ∨ m = 3 then formPeer else formOwn

/-- `ATOM.fmin` (R195). -/
def execAtomFmin (h : Hdr) (d : Near) (a : Fin 16) (m : Fin 8) (s : State) : Res :=
  atomRmw (.atomFmin h d a m) h d a (atomBytes (m.val == 3)) 51 m.val (floatForm m.val) s
/-- `ATOM.fmax` (R195). -/
def execAtomFmax (h : Hdr) (d : Near) (a : Fin 16) (m : Fin 8) (s : State) : Res :=
  atomRmw (.atomFmax h d a m) h d a (atomBytes (m.val == 3)) 52 m.val (floatForm m.val) s

/-- Registers `k` to `k` + `n` / 4 - 1 above d as one number. -/
def casPart (d : Near) (n k : Nat) (before : Warp) (l : Fin 32) : Nat :=
  (List.range (n / 4)).foldl (fun x j => x + (before.readAt d (k + j) l).toNat * 2 ^ (32 * j)) 0

/-- `CAS` (R196): d names the expected value, then the new one. -/
def execCas (h : Hdr) (d : Near) (a : Fin 16) (m : Fin 8) (s : State) : Res :=
  let n := if m.val = 0 then 4 else if m.val = 1 then 8 else 16
  atomWord (.cas h d a m) h d a n (if m.val < 2 then formAll else formOwn)
    (fun before l => { code := 53, m := m.val, x := casPart d n 0 before l, y := casPart d n (n / 4) before l }) s

end Sys2Proof.Machine
end

