-- ==== Sys2Proof/Machine/Rings.lean ====
section
/-! DEFINITION. Loads that return (R182), circular buffers (R36, R37, R214 to R217), `WAITCNT` (R205),
`LAUNCH` (R212), and the fences of the engine queues (R85, R224). -/
namespace Sys2Proof.Machine

/-! ### Loads that return (R182) -/

/-- `LOAD_DATA_RETURN` (R182, R91): the values of a load have arrived; the host's completion carries those of its lanes on
host MMIO, all ones after an error. -/
def execLoadDataReturn (core slot load : Nat) (completion : Completion) (s : State) : Res :=
  match s.warp core slot with
  | none => notDue s
  | some w =>
    match w.load? load with
    | none => notDue s
    | some ld =>
      match ld.kind, completion with
      | .data, .none => .next (s.setWarp core slot (w.arrive ld))
      | .hostMmio size, c =>
        let mine := s.hostIo.filter fun e => e.store.isNone && e.core = core && e.slot = slot && e.load = load
        let value := fun (l : Fin 32) => match (mine.zipIdx.find? fun e => e.1.lane = l.val) with
          | none => 0
          | some (_, k) => match c with
            | .ok vs => (vs.getD k 0).toNat % 2 ^ (8 * size)
            | _ => 2 ^ (8 * size) - 1
        let bad := match c with
          | .none => true
          | .ok vs => vs.length != mine.length
          | .error => false
        if bad then notDue s
        else
          let lanes : LaneSet := Lanes.ofFn fun l => mine.any fun e => e.lane = l.val
          let s := { s with hostIo := s.hostIo.filter fun e => !mine.contains e }
          .next (s.setWarp core slot ((w.deliver ld lanes value).release load))
      | _, _ => notDue s

/-! ### WAITCNT (R205) -/

/-- `WAITCNT` (R205): d is marked and the warp runs on. In a steady window it waits until every earlier access has been
performed (R332). -/
def execWaitcnt (h : Hdr) (d a : Near) (s : State) : Res :=
  accessWord (.waitcnt h d a) h s fun w cur act =>
    match LaneSet.lowest act with
    | none => finish s cur (w.advance cur.pc cur.lanes 0)
    | some l =>
      let c := (cur.before.read32 .int a l).toNat
      match s.offsetLoc w cur.core 4 4 c with
      | .error e => trapWord s cur w act (e.trap l (BitVec.ofNat 64 c) .read)
      | .ok _ =>
        let stores := (w.openWin).elim 0 fun x => x.stores.length
        let (w, id) := w.addLoad [nearReg d] act (.waitcnt (cur.before.read32 .int d l) c stores)
        finish s cur ((w.putLoaded d 4 act (fun _ => 0) id).advance cur.pc cur.lanes 0)

/-- A read made after its word's issue joins the read set of its window while that is uncommitted (R205, R275, R321). -/
def Warp.readIn (w : Warp) (serial : Nat) (gs : List Gran) (pages : List Nat) (t : Option GuardTouch) : Warp :=
  let add := fun (x : Window) => { x with
    reads := if x.steady then x.reads else x.reads ++ gs.filter fun g => !x.reads.contains g
    pages := if x.steady then x.pages else x.pages ++ pages.filter fun p => !x.pages.contains p
    touch := x.touch.or t }
  { w with windows := w.windows.map fun x => if x.serial = serial then add x else x }

/-- The stores of a warp's windows that precede a word of window `serial` which found `n` stores in it (R185). -/
def Warp.storesBefore (w : Warp) (serial n : Nat) : List StoreEv :=
  w.windows.flatMap fun x => if x.serial < serial then x.stores else if x.serial = serial then x.stores.take n else []

/-- `WAITCNT_RELEASE` (R205): a load of the counter, in its place in program order, finds a value of at least the target. -/
def execWaitcntRelease (core slot load : Nat) (s : State) : Res :=
  match s.warp core slot with
  | none => notDue s
  | some w =>
    match w.load? load with
    | none => notDue s
    | some ld => match ld.kind with
      | .waitcnt target off stores =>
        let loc := s.padLoc w core off
        let touch := (s.touch w loc 4).map fun o => ({ bank := o / 4 % 32, offset := o, count := 1 } : GuardTouch)
        let v := if touch.isSome then 0 else leNat (overlay (w.storesBefore ld.win stores) loc (s.bytesAt loc 4))
        if v < target.toNat then notDue s
        else .next (s.setWarp core slot (((w.readIn ld.win (loc.grans 4) [] touch).deliver ld ld.lanes fun _ => v).release load))
      | _ => notDue s

/-! ### Slots (R216) -/

/-- A slot that is free. -/
def Slot.isFree (x : Slot) : Bool := !x.reserved && !x.published && !x.filled

/-- A slot at configuration. -/
def newSlot (filled : Bool) (order : Nat) : Slot :=
  { reserved := false, published := false, filled := filled, returned := false, owner := 0, takers := [], released := []
    order := order }

/-- The index, among those that satisfy a test, whose slot has the least measure. -/
def Ring.least (r : Ring) (p : Slot → Bool) (m : Nat → Slot → Nat) : Option Nat :=
  (r.slots.zipIdx.foldl (fun (best : Option (Nat × Nat)) e =>
    if !p e.1 then best
    else match best with
      | none => some (e.2, m e.2 e.1)
      | some b => if m e.2 e.1 < b.2 then some (e.2, m e.2 e.1) else some b) none).map (·.1)

/-- Distance of a slot from the next one to fill, in ring order. -/
def Ring.behind (r : Ring) (k : Nat) : Nat := (k + r.slots.length - r.fill) % max 1 r.slots.length

/-- The next slot on the producer side (R216): the earliest returned slot, else the one at the pointer if it is free. -/
def Ring.nextRoom (r : Ring) : Option (Nat × Bool) :=
  match r.least (fun x => x.isFree && x.returned) fun k _ => r.behind k with
  | some k => some (k, true)
  | none => match r.slots[r.prod]? with
    | some x => if x.isFree then some (r.prod, false) else none
    | none => none

/-- Reserves the next slot for an owner. -/
def Ring.reserve (r : Ring) (owner : Nat) : Option (Nat × Ring) :=
  match r.nextRoom with
  | none => none
  | some (k, returned) =>
    let x := { newSlot false r.seq with reserved := true, owner := owner }
    some (k, { r with
      slots := r.slots.set k x
      prod := if returned then r.prod else (r.prod + 1) % max 1 r.slots.length
      seq := r.seq + 1 })

/-- Published slots become filled in ring order (R216). -/
def Ring.fillUp : Nat → Ring → Ring
  | 0, r => r
  | fuel + 1, r =>
    match r.slots[r.fill]? with
    | none => r
    | some x =>
      if !x.published then r
      else Ring.fillUp fuel { r with
        slots := r.slots.set r.fill { x with published := false, filled := true, order := r.seq }
        fill := (r.fill + 1) % max 1 r.slots.length
        seq := r.seq + 1 }

/-- A reserved slot is published. -/
def Ring.publish (r : Ring) (k : Nat) : Ring :=
  match r.slots[k]? with
  | none => r
  | some x => Ring.fillUp r.slots.length { r with slots := r.slots.set k { x with reserved := false, published := true } }

/-- The oldest slot that an owner has reserved. -/
def Ring.reservedBy (r : Ring) (owner : Nat) : Option Nat :=
  r.least (fun x => x.reserved && x.owner == owner) fun _ x => x.order

/-- The oldest filled slot that a taker has not taken and that fewer than rel takers took (R216). -/
def Ring.nextTake (r : Ring) (taker : Nat) : Option Nat :=
  r.least (fun x => x.filled && !x.takers.contains taker && x.takers.length < r.rel) fun _ x => x.order

/-- Records a taker of a slot. -/
def Ring.take (r : Ring) (taker k : Nat) : Ring :=
  match r.slots[k]? with
  | none => r
  | some x => { r with slots := r.slots.set k { x with takers := x.takers ++ [taker] } }

/-- The oldest slot that a taker took and has not released. -/
def Ring.takenBy (r : Ring) (taker : Nat) : Option Nat :=
  r.least (fun x => x.takers.contains taker && !x.released.contains taker) fun _ x => x.order

/-- The consumer pointer passes the slots that are free again. -/
def Ring.passCons : Nat → Ring → Ring
  | 0, r => r
  | fuel + 1, r =>
    match r.slots[r.cons]? with
    | none => r
    | some x => if x.isFree && !x.returned && r.cons ≠ r.fill then Ring.passCons fuel { r with cons := (r.cons + 1) % r.slots.length }
      else r

/-- A taker releases a slot, which becomes free with its last release (R216). -/
def Ring.release (r : Ring) (taker k : Nat) : Ring :=
  match r.slots[k]? with
  | none => r
  | some x =>
    let x := { x with released := x.released ++ [taker] }
    if r.rel ≤ x.released.length then Ring.passCons r.slots.length { r with slots := r.slots.set k (newSlot false 0) }
    else { r with slots := r.slots.set k x }

/-- No slot is reserved, published or taken (R215). -/
def Ring.idle (r : Ring) : Bool := r.slots.all fun x => !x.reserved && !x.published && x.takers.length = x.released.length

/-- The ring of a block's handle. -/
def State.ring (s : State) (bid k : Nat) : Option Ring := (SMap.get? s.blocks bid).bind fun b => SMap.get? b.rings k

/-- Sets the ring of a block's handle. -/
def State.setRing (s : State) (bid k : Nat) (r : Ring) : State :=
  match SMap.get? s.blocks bid with
  | none => s
  | some b => { s with blocks := SMap.put s.blocks bid { b with rings := SMap.put b.rings k r } }

/-- Scratchpad offset of a slot (R214). -/
def Ring.offset (r : Ring) (k : Nat) : Nat := r.base + k * r.size

/-! ### The buffer words (R36, R214 to R216) -/

/-- The misuse trap of a handle (R20, R36, R215). -/
def misuse (k : Nat) (act : LaneSet) : Trap := { kind := .bufferMisuse, aux := k, lane := lowLane act }

/-- The ring that a descriptor configures (R214); none where a field is out of range or reserved bits are set (R215). -/
def ringOf (d size : Nat) : Option Ring :=
  let base := bits d 0 32
  let sz := bits d 32 32
  let count := bits d 72 8
  let prod := bits d 80 8
  let cons := bits d 88 8
  let rel := bits d 96 8
  if bits d 64 8 != 0 || bits d 104 24 != 0 || rel = 0 || 64 < rel || count = 0 || 64 < count || count ≤ cons || count ≤ prod ||
      sz % 128 != 0 || sz < 128 || 65536 < sz || base % 128 != 0 || size < base + count * sz then none
  else
    let filled := (prod + count - cons) % count
    let place := fun (k : Nat) => (k + count - cons) % count
    some { base := base, size := sz, rel := rel, prod := prod, cons := cons, fill := prod, seq := count
           slots := (List.range count).map fun k => newSlot (place k < filled) (place k) }

/-- An engine entry of the block names the handle (R215). -/
def State.namesHandle (s : State) (bid k : Nat) : Bool :=
  s.entries.any fun e => e.2.block = bid && (match e.2.kind with | .cpy | .gath | .scat | .cpym => true | _ => false) &&
    (s.peekRecord e.2).any fun r => bits r 390 1 = 0 && bits r 392 4 = k

/-- `KSET` (R214, R215). -/
def execKset (h : Hdr) (k : Fin 16) (a : Near) (s : State) : Res :=
  irrevocable (.kset h k a) h s fun w cur act =>
    let l := (LaneSet.lowest act).getD 0
    let va := BitVec.ofNat 64 (s.recordField w.launch 128 64) + (cur.before.read32 .int a l).setWidth 64
    match s.globalLoc w cur.core { mmio := false, host := true } .read 16 va with
    | .error c => trapWord s cur w act (c.trap l va .read)
    | .ok loc =>
      if !s.readable loc then
        let (s, why) := s.request cur.core cur.slot loc false
        .next (s.holdWord cur w why)
      else
        let w := s.noteTouches w 16 [(l, loc)]
        match ringOf (s.recordAt w loc 16) (s.padSize w) with
        | none => trapWord s cur w act { kind := .illegalOperand, lane := l.val }
        | some r =>
          if ((s.ring w.block k.val).any fun x => !x.idle || s.namesHandle w.block k.val) then trapWord s cur w act (misuse k.val act)
          else finish (s.setRing w.block k.val r) cur (w.advance cur.pc cur.lanes 0)

/-- `KROOM` and `KWAIT` (R216, R330): the warp waits inside its window until the slot is granted. -/
def slotWord (i : Instr) (h : Hdr) (k : Fin 16) (d : Near) (room : Bool) (s : State) : Res :=
  ordinary i h 0 [] s fun w cur act =>
    if !LaneSet.any act then finish s cur (w.advance cur.pc cur.lanes 0)
    else if (s.ring w.block k.val).isNone then trapWord s cur w act (misuse k.val act)
    else
      let (w, id) := w.addLoad [nearReg d] act (.slot k.val room)
      let w := w.putLoaded d 4 act (fun _ => 0) id
      finish s cur ({ w with wait := some (.slot id) }.advance cur.pc cur.lanes 0)

/-- `KROOM` (R216). -/
def execKroom (h : Hdr) (k : Fin 16) (d : Near) (s : State) : Res := slotWord (.kroom h k d) h k d true s

/-- `KWAIT` (R216). -/
def execKwait (h : Hdr) (k : Fin 16) (d : Near) (s : State) : Res := slotWord (.kwait h k d) h k d false s

/-- A slot is granted to a waiting warp: the offset is written, and the window can return the slot (R216, R330). -/
def State.grantSlot (s : State) (core slot : Nat) (w : Warp) (ld : PendLoad) (handle ix : Nat) (r : Ring) (taken : Bool) : State :=
  let op : RingOp := { handle := handle, slot := ix, taken := taken }
  let add := fun (x : Window) => if x.serial = ld.win then { x with ringOps := x.ringOps ++ [op] } else x
  let w := { w with windows := w.windows.map add }
  (s.setRing w.block handle r).setWarp core slot ((w.deliver ld ld.lanes fun _ => r.offset ix).release ld.id)

/-- `KROOM_GRANT` (R216): the next slot of the producer side is free. -/
def execKroomGrant (core slot : Nat) (s : State) : Res :=
  match (s.warp core slot).bind fun w => (w.slotLoad true).map fun x => (w, x) with
  | none => notDue s
  | some (w, ld, k) =>
    match (s.ring w.block k).bind fun r => r.reserve (warpKey core slot) with
    | none => notDue s
    | some (ix, r) => .next (s.grantSlot core slot w ld k ix r false)

/-- `KWAIT_GRANT` (R216): a filled slot is there for the warp. -/
def execKwaitGrant (core slot : Nat) (s : State) : Res :=
  match (s.warp core slot).bind fun w => (w.slotLoad false).map fun x => (w, x) with
  | none => notDue s
  | some (w, ld, k) =>
    match (s.ring w.block k).bind fun r => (r.nextTake (warpKey core slot)).map fun ix => (ix, r.take (warpKey core slot) ix) with
    | none => notDue s
    | some (ix, r) => .next (s.grantSlot core slot w ld k ix r true)

/-- `KPROD` (R36, R216). -/
def execKprod (h : Hdr) (k : Fin 16) (s : State) : Res :=
  irrevocable (.kprod h k) h s fun w cur act =>
    match (s.ring w.block k.val).bind fun r => (r.reservedBy (warpKey cur.core cur.slot)).map fun ix => r.publish ix with
    | none => trapWord s cur w act (misuse k.val act)
    | some r => finish (s.setRing w.block k.val r) cur (w.advance cur.pc cur.lanes 0)

/-- A range of `n` bytes reaches into the scratchpad aperture. -/
def State.inAperture (s : State) (va : Nat) (n : Nat := 1) : Bool := s.spbase.toNat < va + n && va < s.spbase.toNat + 2 ^ 20

/-- An entry that still reads scratchpad operands (R37, R94): matrix operands, index arrays, tiles that leave the scratchpad, layout
records in the aperture, what a plan or a `GEMVN` reads there, transfers whose source lies there. `acc` of an entry of the copy queue is 0
until its record, index array and table are read and checked, and 2 once its last element has moved. -/
def State.readsPad (s : State) (e : Entry) : Bool :=
  match e.kind with
  | .mma | .mmas | .mld => true
  | .gath => e.acc = 0
  | .scat => e.acc != 2
  | .cpy => if e.acc = 0 then s.inAperture e.addr.toNat || (s.peekRecord e).all fun r => bits r 389 1 = 1 else e.acc = 1 && bits (e.args.headD 0) 389 1 = 1
  | .cpym => e.acc = 0 && s.inAperture e.addr.toNat
  | .gemvn | .coll => e.acc != 2
  | .xfer | .xmc => s.inAperture e.addr.toNat (e.args.getD 0 0)
  | _ => false

/-- `KREL` (R37, R216): it waits for the reads of the warp's earlier engine operations. -/
def execKrel (h : Hdr) (k : Fin 16) (s : State) : Res :=
  irrevocable (.krel h k) h s fun w cur act =>
    let me := warpKey cur.core cur.slot
    match (s.ring w.block k.val).bind fun r => (r.takenBy me).map fun ix => r.release me ix with
    | none => trapWord s cur w act (misuse k.val act)
    | some r =>
      if s.entries.any fun e => e.2.core = cur.core && e.2.slot = cur.slot && e.2.bound && s.readsPad e.2 then
        .next (s.holdWord cur w none)
      else finish (s.setRing w.block k.val r) cur (w.advance cur.pc cur.lanes 0)

/-! ### Engine entries and their fences (R81 to R85) -/

/-- A new entry of a queue of the warp under way, with its operands empty. -/
def blankEntry (kind : EngKind) (queue : Nat) (cur : Cur) (w : Warp) : Entry :=
  { kind := kind, queue := queue, core := cur.core, slot := cur.slot, bound := true, block := w.block, launch := w.launch
    ctx := w.ctx, super := w.super, lane := 0, lanes := Lanes.all false, acc := 0, ty := 0, mode := 0, addr := 0
    opA := Lanes.all 0, opB := Lanes.all 0, args := [], dst := 16, load := 0, win := none, started := false, elem := 0
    slotIx := none, todo := [], owed := 0, outcome := 0, sat := false, guard := false, absent := false, exited := false
    skipped := 0, fid := none, issuedAt := 0, seen := [], fed := [] }

/-- Adds an entry; one of an open window is cancelled with it (R83). -/
def State.addEntry (s : State) (w : Warp) (e : Entry) : State × Warp :=
  let n := s.nextEntry
  let e := { e with win := w.openWin.map (·.serial), issuedAt := w.openWin.elim 0 fun x => x.stores.length }
  ({ s with entries := SMap.put s.entries n e, nextEntry := n + 1 },
   w.mapOpen fun x => { x with entries := x.entries ++ [n] })

/-- `QFENCE` (R85, R224): tentative; a zero mask is no operation. -/
def execQfence (h : Hdr) (mask : BitVec 5) (s : State) : Res :=
  ordinary (.qfence h mask) h 0 [] s fun w cur act =>
    if !LaneSet.any act || mask = 0 then finish s cur (w.advance cur.pc cur.lanes 0)
    else
      let (s, w) := s.addEntry w { blankEntry .fence 5 cur w with mode := mask.toNat }
      finish s cur (w.advance cur.pc cur.lanes 0)

/-- `DRAIN` (R85, R224): the warp's next word waits until every earlier entry of a named queue has completed; a window that holds one of
them closes first, so that it can start (R317); in a pair, after it, since no checkpoint lies between the words (R366). -/
def execDrain (h : Hdr) (mask : BitVec 5) (s : State) : Res :=
  withWord (.drain h mask) h s fun w cur act =>
    let named := if LaneSet.any act then
        (s.entries.filter fun e => e.2.core = cur.core && e.2.slot = cur.slot && e.2.bound && e.2.kind != .fence &&
          mask.getLsbD e.2.queue).map (·.1)
      else []
    let holds := w.openWin.any fun x => x.entries.any named.contains
    let w := if holds && !cur.second then w.closeOpen else w
    match w.inWindow cur.second 0 [] with
    | none => .next (s.holdWord cur w w.wait)
    | some w =>
      let w := w.advance cur.pc cur.lanes 0
      let w := if holds && cur.second then w.closeOpen else w
      finish s cur (if named.isEmpty then w else { w with wait := some (.drain named) })

/-! ### LAUNCH (R212) -/

/-- A launch of a record that is refused at its submission. -/
def State.refuseNow (s : State) (l : Launch) (code : Nat) : State :=
  let lid := SMap.fresh s.launches
  ({ s with launches := SMap.put s.launches lid l } : State).refuse lid code

/-- Submits one record to the device queue that it names (R212, R380); a full queue refuses it with status 23. -/
def State.submit (s : State) (va : DWord) (ctx record : Nat) : State :=
  let q := bits record 850 6
  let l := newLaunch va record ctx q
  if q < 48 then s.refuseNow l ((s.refusal l false).getD 21)
  else
    let x := s.queue q
    if 256 ≤ (x.tail - x.head).toNat then s.refuseNow l 23
    else s.setQueue q { x with tail := x.tail + 1, records := x.records ++ [(va, ctx, BitVec.ofNat 1024 record)] }

/-- `LAUNCH` (R212): lanes that name one record submit it once. -/
def execLaunch (h : Hdr) (a : Near) (s : State) : Res :=
  irrevocable (.launch h a) h s fun w cur act =>
    let va := fun (l : Fin 32) => cur.before.read64 a l
    match collect (fun l => s.globalLoc w cur.core { mmio := false, host := true } .read 128 (va l)) (LaneSet.list act) with
    | .error (l, c) => trapWord s cur w act (c.trap l (va l) .read)
    | .ok locs =>
      match locs.find? fun e => !s.readable e.2 with
      | some (_, loc) =>
        let (s, why) := s.request cur.core cur.slot loc false
        .next (s.holdWord cur w why)
      | none =>
        let recs := (locs.map fun e => (va e.1, e.2)).eraseDups
        let w := s.noteTouches w 128 locs
        let s' := recs.foldl (fun s r => s.submit r.1 w.ctx (s.recordAt w r.2 128)) s
        finish s' cur (w.advance cur.pc cur.lanes 0)

end Sys2Proof.Machine
end

