-- ==== Sys2Proof/Machine/Engines.lean ====
section
/-! DEFINITION. What the engines share (R81 to R84, R213): whose entries they run, in what order entries may start,
scratchpad accesses and their guard touches (R76), and the end of an entry. -/
namespace Sys2Proof.Machine

/-- The key under which an exited warp's accumulators are kept. -/
def leftKey (e : Entry) : Nat := e.block * 64 + e.slot

/-- The warp that issued an entry: in its slot, or what an exited one left. -/
def State.entryWarp (s : State) (e : Entry) : Option Warp :=
  if e.bound then s.warp e.core e.slot else SMap.get? s.left (leftKey e)

/-- Changes the warp that issued an entry. -/
def State.setEntryWarp (s : State) (e : Entry) (w : Warp) : State :=
  if e.bound then s.setWarp e.core e.slot w else { s with left := SMap.put s.left (leftKey e) w }

/-- An entry under a number. -/
def State.entry? (s : State) (n : Nat) : Option Entry := SMap.get? s.entries n

/-- Sets an entry. -/
def State.setEntry (s : State) (n : Nat) (e : Entry) : State := { s with entries := SMap.put s.entries n e }

/-- A fence before the entry still holds back its queue (R85). -/
def State.fenced (s : State) (n : Nat) (e : Entry) : Bool :=
  s.entries.any fun f => f.1 < n && f.2.sameWarp e && f.2.fences e.queue && s.fenceHolds f.1 f.2

/-- An earlier entry of the same warp's queue is still there (R82). -/
def State.behindQueue (s : State) (n : Nat) (e : Entry) : Bool :=
  s.entries.any fun f => f.1 < n && f.2.sameWarp e && f.2.queue = e.queue && f.2.kind != .fence

/-- The entry is over: the queue, its block and its launch go on without it. -/
def State.endEntry (s : State) (n : Nat) (e : Entry) : State :=
  let s := ({ s with entries := SMap.del s.entries n } : State).dropFences
  let s := if !e.bound && !(s.entries.any fun f => f.2.sameWarp e && f.2.queue = 1) then { s with left := SMap.del s.left (leftKey e) }
    else s
  s.settleBlock e.block

/-! ### Scratchpad accesses of engines (R74, R76) -/

/-- The scratchpad offset of an access of `n` bytes at `off` of a block that overlaps a guard granule. -/
def Block.touches (b : Block) (off n : Nat) : Bool :=
  b.allocs.any fun a => (guards a).any fun g => off < g.2 && g.1 < off + n

/-- An engine reads `n` bytes of a block's scratchpad; 0 from a guard granule (R76). -/
def State.padRead (s : State) (b : Block) (off n : Nat) : Nat :=
  if b.touches off n then 0 else leNat (s.bytesAt (.scratch b.core (b.base + off)) n)

/-- An engine writes bytes of a block's scratchpad; a guard granule discards them (R76). -/
def State.padWrite (s : State) (b : Block) (off : Nat) (bs : List Byte) : State :=
  if b.touches off bs.length then s else s.writeEvent none (.scratch b.core (b.base + off)) bs

/-- Records an engine's guard touch for the issuing warp (R76). -/
def State.engineTouch (s : State) (e : Entry) (off : Nat) : State :=
  if !e.bound then s
  else match s.warp e.core e.slot with
    | none => s
    | some w => s.setWarp e.core e.slot (w.keepTouch (some { bank := off / 4 % 32, offset := off, count := 1 }))

/-- Records the touches of a list of accesses (offset, bytes). -/
def State.engineTouches (s : State) (e : Entry) (b : Block) (accesses : List (Nat × Nat)) : State :=
  accesses.foldl (fun s a => if b.touches a.1 a.2 then s.engineTouch e a.1 else s) s

/-! ### Status words (R213) -/

/-- The status word of an operation. -/
def Entry.status (e : Entry) : Nat :=
  let bit := fun (b : Bool) (n : Nat) => if b then 2 ^ n else 0
  2 ^ 31 + e.outcome % 8 * 2 ^ 28 + bit e.sat 27 + bit e.guard 26 + bit e.absent 25 + bit e.exited 24 +
    (e.slotIx.getD 0) % 256 * 2 ^ 16 + e.skipped % 2 ^ 16

/-- A status word reaches the issuing lane; the mark of the word goes with its last one (R213). -/
def Warp.putStatus (w : Warp) (load lane : Nat) (x : Nat) : Warp :=
  match w.load? load with
  | none => w
  | some ld =>
    let w := w.deliver ld (Lanes.ofFn fun l => l.val = lane) fun _ => x
    match ld.kind with
    | .status (k + 2) => { w with loads := w.loads.map fun x => if x.id = load then { x with kind := .status (k + 1) } else x }
    | _ => w.release load

/-- Where the status word of an entry goes: its warp, the record of a saved warp (R222), or nowhere once the warp has
exited (R141). -/
def State.writeStatus (s : State) (e : Entry) (x : Nat) : State :=
  if !e.bound then s
  else match (s.warp e.core e.slot).filter fun w => w.block = e.block with
    | some w => s.setWarp e.core e.slot (w.putStatus e.load e.lane x)
    | none => s.mapSaved fun r => match r with
      | .warp a b c k w arr => if c = e.core && k = e.slot && w.block = e.block then .warp a b c k (w.putStatus e.load e.lane x) arr else r
      | r => r

/-- An operation completes: its status is written and the entry is gone (R82, R213). -/
def State.completeEntry (s : State) (n : Nat) (e : Entry) : State := (s.writeStatus e e.status).endEntry n e

end Sys2Proof.Machine
end

