-- ==== Sys2Proof/Machine/Matrix.lean ====
section
/-! DEFINITION. The matrix engine (R225 to R233, R251 to R261): its words, its passes and steps, the chains and their
tree stacks, and `MCONTRIB` (R230). -/
namespace Sys2Proof.Machine

/-! ### Accumulators (R19, R229, R261) -/

/-- Element (row, column) of an accumulator; +0.0 where nothing was written. -/
def Warp.accAt (w : Warp) (n : Nat) (r : Fin 32) (c : Nat) : Word := (SMap.getD w.acc (n * 16 + c) (Lanes.all 0))[r]

/-- Sets element (row, column) of an accumulator. -/
def Warp.setAcc (w : Warp) (n : Nat) (r : Fin 32) (c : Nat) (x : Word) : Warp :=
  let old := SMap.getD w.acc (n * 16 + c) (Lanes.all 0)
  { w with acc := SMap.put w.acc (n * 16 + c) (Lanes.ofFn fun l => if l = r then x else old[l]) }

/-- Accumulator and first word of column c of the FP64 tile on n, n + 1 (R261). -/
def acc64Place (n c : Nat) : Nat × Nat := if c < 8 then (n, 2 * c) else (n + 1, 2 * (c - 8))

/-- Column c of row r as a number: an FP32 element, or an FP64 one. -/
def Warp.accNum (w : Warp) (f64 : Bool) (n : Nat) (r : Fin 32) (c : Nat) : Nat :=
  if f64 then
    let (m, k) := acc64Place n c
    (w.accAt m r k).toNat + (w.accAt m r (k + 1)).toNat * 2 ^ 32
  else (w.accAt n r c).toNat

/-- Sets column c of row r. -/
def Warp.setAccNum (w : Warp) (f64 : Bool) (n : Nat) (r : Fin 32) (c x : Nat) : Warp :=
  if f64 then
    let (m, k) := acc64Place n c
    (w.setAcc m r k (BitVec.ofNat 32 x)).setAcc m r (k + 1) (BitVec.ofNat 32 (x / 2 ^ 32))
  else w.setAcc n r c (BitVec.ofNat 32 x)

/-- The node operation of a type: `tree_add`, or FP64 addition (R227, R261). -/
def nodeAdd (f64 : Bool) (x y : Nat) : Nat := if f64 then (fp64.add (fp64.val x) (fp64.val y)).val else treeAdd x y

/-! ### Tiles (R58, R226, R258, R260) -/

/-- Elements along k of a step (R226, R260). -/
def stepK (ty : Nat) : Nat := match ty with | 0 => 32 | 1 => 64 | 2 => 64 | 3 => 32 | _ => 16
/-- Bytes of an element. -/
def elemBytes (ty : Nat) : Nat := match ty with | 0 => 2 | 1 => 1 | 2 => 1 | 3 => 2 | _ => 8
/-- Planes of the element array. -/
def planes (ty : Nat) : Nat := if ty = 3 then 3 else 1

/-- Byte of the side exponents of a canonical tile of `rows` rows, `k` elements along k of `size` bytes in all planes. -/
def expAt (rows k size : Nat) : Nat := roundUp (rows * k * size) 16
/-- Byte of the validity mask of a canonical tile. -/
def maskAt (rows k size : Nat) : Nat := roundUp (expAt rows k size + rows * (k / 32)) 16

/-- Byte of the mask of a tile of a type. -/
def tileMask (ty rows : Nat) : Nat :=
  if ty = 4 then rows * 128 else maskAt rows (stepK ty) (elemBytes ty * planes ty)
/-- Bytes of a tile of a type. -/
def tileBytes (ty rows : Nat) : Nat := tileMask ty rows + 4 * ((rows + 31) / 32)

/-- A tile as an entry reads it. -/
structure Tile where
  off : Nat
  rows : Nat
  ty : Nat

/-- Element (r, k) of a plane. -/
def State.tileElem (s : State) (b : Block) (t : Tile) (plane r k : Nat) : Nat :=
  let ks := stepK t.ty
  let size := elemBytes t.ty
  s.padRead b (t.off + (plane * t.rows * ks + r * ks + k) * size) size

/-- Side exponent of element (r, k); 127 for the types without one. -/
def State.tileExp (s : State) (b : Block) (t : Tile) (r k : Nat) : Nat :=
  if 3 ≤ t.ty then 127
  else s.padRead b (t.off + expAt t.rows (stepK t.ty) (elemBytes t.ty) + r * (stepK t.ty / 32) + k / 32) 1

/-- Validity of row r. -/
def State.tileValid (s : State) (b : Block) (t : Tile) (r : Nat) : Bool :=
  s.padRead b (t.off + tileMask t.ty t.rows + 4 * (r / 32)) 4 / 2 ^ (r % 32) % 2 = 1

/-- The accesses of a step's reads of `n` rows from row `lo` on, for the guard touches (R227, R258): their elements in each plane, their
side exponents, their mask words. -/
def Tile.accesses (t : Tile) (lo n : Nat) : List (Nat × Nat) :=
  let row := stepK t.ty * elemBytes t.ty
  (List.range (planes t.ty)).map (fun p => (t.off + (p * t.rows + lo) * row, n * row)) ++
    (if 3 ≤ t.ty then [] else [(t.off + expAt t.rows (stepK t.ty) (elemBytes t.ty) + lo * (stepK t.ty / 32), n * (stepK t.ty / 32))]) ++
    [(t.off + tileMask t.ty t.rows + 4 * (lo / 32), 4 * ((lo + n - 1) / 32 - lo / 32 + 1))]

/-! ### Leaves (R59, R70, R71) -/

/-- The value of a canonical element of a type: BF16, E4M3, or an integer. -/
def elemVal (ty x : Nat) : FVal :=
  match ty with
  | 1 => e4m3.val x
  | 2 => .fin (128 ≤ x % 256) (sextNat x 8).natAbs 0
  | _ => bf16.val x

/-- A value times a power of two. -/
def FVal.scale (v : FVal) (k : Int) : FVal :=
  match v with
  | .fin n m e => .fin n m (e + k)
  | v => v

/-- The matrix leaf of two elements with their side exponents (R59). A zero product of integers takes the exclusive or of their signs
(DESIGN CHOICE, log 76). -/
def leaf59 (x y : FVal) (ex ey : Nat) : Nat :=
  if ex = 255 || ey = 255 then fp32.nan
  else match x.mul y with
    | none => fp32.nan
    | some v => (fp32.convert .rne (v.scale ((ex : Int) - 127 + ((ey : Int) - 127)))).val

/-- A slice product of R70: exact, rounded to FP32, flushed. -/
def slice32 (x y : Nat) : Nat := ingress (fp32.mul (bf16.val x) (bf16.val y)).val

/-- The element value of two operands given as slices hi, mid, lo (R70). An operand that is infinite or a NaN stands in hi;
a subnormal one was flushed by the split, so its product with an infinity is a NaN (DESIGN CHOICE, log 78). -/
def leaf70 (ah am al bh bm bl : Nat) : Nat :=
  let special := fun (x : Nat) => match bf16.val x with
    | .fin .. => false
    | _ => true
  if special ah || special bh then (fp32.mul (bf16.val ah) (bf16.val bh)).val
  else treeAdd (treeAdd (treeAdd (treeAdd (treeAdd (slice32 al bh) (slice32 ah bl)) (slice32 am bm)) (slice32 am bh))
    (slice32 ah bm)) (slice32 ah bh)

/-- Unbiased exponent of a finite FP64 pattern, -1,022 for subnormals (R260). -/
def exp64 (x : Nat) : Int := if bits x 52 11 = 0 then -1022 else (bits x 52 11 : Int) - 1023

/-- The FP64 pattern is ±∞ or NaN. -/
def special64 (x : Nat) : Bool := bits x 52 11 = 2047

/-- The shared exponent of a row (R71). -/
def sharedExp (xs : List Nat) : Int :=
  xs.foldl (fun e x => if special64 x then e else max e (exp64 x)) (-1022)

/-- The integer X of an element under a shared exponent (R71): toward zero. -/
def align64 (e : Int) (x : Nat) : Int :=
  match fp64.val x with
  | .fin neg m k =>
    let sh := k + (53 - e)
    let v : Nat := if 0 ≤ sh then m * 2 ^ sh.toNat else m / 2 ^ (-sh).toNat
    if neg then -(v : Int) else v
  | _ => 0

/-- The slices s_6 up to s_0 of an integer (R71): signed digits from -128 to 127, the top one takes the rest. -/
def slices64 : Nat → Int → List Int
  | 0, x => [x]
  | n + 1, x =>
    let d := (x + 128) % 256 - 128
    d :: slices64 n ((x - d) / 256)

/-- The sum over slice products with j + j' at most 6 of two integers, in units of 2^48 (R71): `xs` lists s_6 first. -/
def sliceDot (xs ys : List Int) : Int :=
  (xs.zipIdx.foldl (fun acc x => ys.zipIdx.foldl (fun acc y =>
    if (6 - x.2) + (6 - y.2) ≤ 6 then acc + x.1 * y.1 * 2 ^ (8 * (x.2 + y.2)) else acc) acc) 0)

/-- The step result of one element over the operands of a step (R71). -/
def step71 (as bs : List Nat) : Nat :=
  let ps := as.zip bs
  if ps.any fun p => special64 p.1 || special64 p.2 then
    let prods := (ps.filter fun p => special64 p.1 || special64 p.2).map fun p => (fp64.mul (fp64.val p.1) (fp64.val p.2)).val
    match prods with
    | [] => 0
    | x :: rest => rest.foldl (fun acc y => (fp64.add (fp64.val acc) (fp64.val y)).val) x
  else
    let ea := sharedExp as
    let eb := sharedExp bs
    let sum := ps.foldl (fun (acc : Int) p => acc + sliceDot (slices64 6 (align64 ea p.1)) (slices64 6 (align64 eb p.2))) 0
    if sum = 0 then 0 else (fp64.round .rne (sum < 0) sum.natAbs (ea + eb - 106)).val

/-- The node of element (row r of A, row c of B) of one k-step (R227); none where absent. -/
def State.stepNode (s : State) (b : Block) (a bt : Tile) (r c : Nat) : Option Nat :=
  if !s.tileValid b a r || !s.tileValid b bt c then none
  else
    let ks := stepK a.ty
    let idx := List.range ks
    match a.ty with
    | 4 => some (step71 (idx.map (s.tileElem b a 0 r)) (idx.map (s.tileElem b bt 0 c)))
    | 3 => treeValue treeAdd 5 (idx.map fun k =>
        let x := fun p => s.tileElem b a p r k
        let y := fun p => s.tileElem b bt p c k
        some (ingress (leaf70 (x 0) (x 1) (x 2) (y 0) (y 1) (y 2))))
    | ty => treeValue treeAdd (Nat.log2 ks) (idx.map fun k =>
        some (ingress (leaf59 (elemVal ty (s.tileElem b a 0 r k)) (elemVal ty (s.tileElem b bt 0 c k))
          (s.tileExp b a r k) (s.tileExp b bt c k))))

/-! ### Tree stacks (R228, R255) -/

/-- Joins two column lists by R63. -/
def joinCols (f64 : Bool) (a b : List (Option DWord)) : List (Option DWord) :=
  (a.zip b).map fun p => (joinNodes (nodeAdd f64) (p.1.map (·.toNat)) (p.2.map (·.toNat))).map (BitVec.ofNat 64)

/-- A finished node enters a row's stack; finished siblings fold at once (R255). -/
def foldNode (f64 : Bool) : Nat → List TreeNode → TreeNode → List TreeNode
  | 0, ns, x => x :: ns
  | fuel + 1, ns, x =>
    match ns.find? fun y => y.level = x.level && y.index = (x.index ^^^ 1) with
    | none => x :: ns
    | some y =>
      let cols := if x.index % 2 = 0 then joinCols f64 x.cols y.cols else joinCols f64 y.cols x.cols
      foldNode f64 fuel (ns.erase y) { level := x.level + 1, index := x.index / 2, cols := cols }

/-- The value at level `m` of a row's stack, absent siblings settled (R228): the lowest node rises until one node is left. -/
def settleTree (f64 : Bool) (m : Nat) : Nat → List TreeNode → Option TreeNode
  | 0, _ => none
  | fuel + 1, ns =>
    match ns.foldl (fun (best : Option TreeNode) x => match best with
      | none => some x
      | some y => if x.level < y.level then some x else some y) none with
    | none => none
    | some x =>
      if m ≤ x.level then some x
      else settleTree f64 m fuel (foldNode f64 40 (ns.erase x) { x with level := x.level + 1, index := x.index / 2 })

/-- The node of a row's chain of `steps` steps of `ks` leaves each (R228); in FP64 the step results are the leaves (R261). -/
def chainNode (f64 : Bool) (ks steps : Nat) (ns : List TreeNode) : Option TreeNode :=
  let n := if f64 then steps else steps * ks
  let m := if n ≤ 1 then 0 else Nat.log2 (n - 1) + 1
  settleTree f64 m (40 * (ns.length + 1)) ns

/-- Adds the columns of a node to a row of an accumulator, the accumulator first (R41, R227, R228). -/
def Warp.addRow (w : Warp) (f64 : Bool) (n : Nat) (r : Fin 32) (cols : List (Option DWord)) : Warp :=
  cols.zipIdx.foldl (fun w x => match x.1 with
    | none => w
    | some v => w.setAccNum f64 n r x.2 (nodeAdd f64 (w.accNum f64 n r x.2) v.toNat)) w

/-- The rows of quarter j. -/
def quarterRows (j : Nat) : List (Fin 32) := lanesUp.filter fun l => l.val / 8 = j

/-- The quarters that hold a lane of a set, ascending. -/
def quarters (m : LaneSet) : List Nat := (List.range 4).filter fun j => (LaneSet.list m).any fun l => l.val / 8 = j

/-- The lowest lane of a set in quarter j. -/
def quarterLane (m : LaneSet) (j : Nat) : Fin 32 := ((LaneSet.list m).find? fun l => l.val / 8 = j).getD 0

/-! ### Checks at issue (R225 to R232, R261) -/

/-- The open chain of an accumulator. -/
def Regs.chain (r : Regs) (n : Nat) : Option Chain := SMap.get? r.chains n

/-- The accumulator belongs to the FP64 chain open on the one below it (R261). -/
def Regs.inPair (r : Regs) (n : Nat) : Bool :=
  n % 2 = 1 && match r.chain (n - 1) with
    | some c => c.ty == some 4
    | none => false

/-- A word of the matrix queue: held, warp-scope. `check` traps; `enter` gives the entry and the changed registers. -/
def matrixWord (i : Instr) (h : Hdr) (acc : Nat) (s : State) (check : Warp → Cur → LaneSet → Option Trap)
    (enter : Warp → Cur → LaneSet → Entry × Regs) : Res :=
  ordinary i h 0 [] s fun w cur act =>
    if !LaneSet.any act then finish s cur (w.advance cur.pc cur.lanes 0)
    else
      let bad : Trap := { kind := .illegalOperand, lane := lowLane act }
      match if w.regs.inPair acc then some bad else check w cur act with
      | some t => trapWord s cur w act t
      | none =>
        let (e, regs) := enter w cur act
        let (s, w) := s.addEntry w e
        finish s cur ({ w with regs := regs }.advance cur.pc cur.lanes 0)

/-- An entry of the matrix queue on an accumulator. -/
def accEntry (kind : EngKind) (cur : Cur) (w : Warp) (act : LaneSet) (acc : Nat) : Entry :=
  { blankEntry kind 1 cur w with acc := acc, lanes := act }

/-- The trap of a word on an accumulator whose chain is open. -/
def openTrap (w : Warp) (acc : Nat) (act : LaneSet) : Option Trap :=
  if (w.regs.chain acc).isSome then some { kind := .illegalOperand, lane := lowLane act } else none

/-- `MZERO` (R229). -/
def execMzero (h : Hdr) (acc : Fin 8) (s : State) : Res :=
  matrixWord (.mzero h acc) h acc.val s (fun w _ act => openTrap w acc.val act) fun w cur act =>
    (accEntry .mzero cur w act acc.val, w.regs)

/-- `MBEGIN` (R228). -/
def execMbegin (h : Hdr) (acc : Fin 8) (s : State) : Res :=
  matrixWord (.mbegin h acc) h acc.val s (fun w _ act => openTrap w acc.val act) fun w cur act =>
    (accEntry .mbegin cur w act acc.val,
     { w.regs with chains := SMap.put w.regs.chains acc.val { ty := none, steps := [0, 0, 0, 0] } })

/-- `MEND` (R228). -/
def execMend (h : Hdr) (acc : Fin 8) (s : State) : Res :=
  matrixWord (.mend h acc) h acc.val s
    (fun w _ act => if (w.regs.chain acc.val).isNone then some { kind := .illegalOperand, lane := lowLane act } else none)
    fun w cur act =>
      let c := (w.regs.chain acc.val).getD { ty := none, steps := [0, 0, 0, 0] }
      ({ accEntry .mend cur w act acc.val with ty := c.ty.getD 0, args := c.steps },
       { w.regs with chains := SMap.del w.regs.chains acc.val })

/-- The first lane whose scratchpad range fails R181. -/
def State.rangeTrap (s : State) (w : Warp) (core align : Nat) (k : Access) (xs : List (Fin 32 × Nat × Nat)) : Option Trap :=
  xs.findSome? fun x => match s.offsetLoc w core x.2.2 align (x.2.1 : Int) with
    | .error c => some (c.trap x.1 (BitVec.ofNat 64 x.2.1) k)
    | .ok _ => none

/-- The operand tiles that each quarter reads: lane, offset, bytes. -/
def operandTiles (before : Warp) (act : LaneSet) (ty rowsA : Nat) (qa qb : Fin 8) : List (Fin 32 × Nat × Nat) :=
  (quarters act).flatMap fun j =>
    let l := quarterLane act j
    [(l, (before.read32 .int (qLow qa) l).toNat, tileBytes ty rowsA), (l, (before.read32 .int (qLow qb) l).toNat, tileBytes ty 16)]

/-- A step on an accumulator is refused (R228, R261): another type, an open partner, or a count past its limit. -/
def stepBad (w : Warp) (acc ty : Nat) (act : LaneSet) : Bool :=
  (ty = 4 && (acc % 2 = 1 || (w.regs.chain (acc + 1)).isSome)) ||
    match w.regs.chain acc with
    | none => false
    | some c => (c.ty.any (· != ty)) || (quarters act).any fun j => 2 ^ 27 / stepK ty ≤ c.steps.getD j 0

/-- `MMA` and `MMAS` (R226, R228, R232): `rowsA` and the first row read by quarter 0. -/
def mmaWord (i : Instr) (h : Hdr) (kind : EngKind) (acc t qa qb : Fin 8) (s : State)
    (shift : Warp → Nat × Nat × Bool) : Res :=
  matrixWord i h acc.val s
    (fun w cur act =>
      let (rowsA, _, bad) := shift cur.before
      if bad || stepBad w acc.val t.val act then some { kind := .illegalOperand, lane := lowLane act }
      else s.rangeTrap w cur.core 128 .read (operandTiles cur.before act t.val rowsA qa qb))
    fun w cur act =>
      let (rowsA, dr, _) := shift cur.before
      let qs := quarters act
      let e := { accEntry kind cur w act acc.val with
        ty := t.val, mode := dr, dst := rowsA, todo := qs
        opA := Lanes.ofFn fun l => cur.before.read32 .int (qLow qa) l
        opB := Lanes.ofFn fun l => cur.before.read32 .int (qLow qb) l }
      match w.regs.chain acc.val with
      | none => (e, w.regs)
      | some c =>
        let steps := c.steps.mapIdx fun j n => if qs.contains j then n + 1 else n
        ({ e with args := c.steps }, { w.regs with chains := SMap.put w.regs.chains acc.val { ty := some t.val, steps := steps } })

/-- `MMA` (R226 to R228). -/
def execMma (h : Hdr) (acc t qa qb : Fin 8) (s : State) : Res :=
  mmaWord (.mma h acc t qa qb) h .mma acc t qa qb s fun _ => (32, 0, false)

/-- `MMAS` (R231, R232). -/
def execMmas (h : Hdr) (acc t qa qb : Fin 8) (s : State) : Res :=
  mmaWord (.mmas h acc t qa qb) h .mmas acc t qa qb s fun before =>
    let x := before.regs.mshift.toNat
    let rows := bits x 8 8 + 32
    (rows, bits x 0 8, bits x 16 16 != 0 || rows < bits x 0 8 + 32)

/-- The bytes of a row that `MST` writes, by element size (R229). -/
def storeSize (sty : Nat) : Nat := match sty with | 0 => 4 | 1 => 2 | _ => 1

/-- `MLD` (R229). -/
def execMld (h : Hdr) (acc : Fin 8) (a : Near) (s : State) : Res :=
  matrixWord (.mld h acc a) h acc.val s
    (fun w cur act => (openTrap w acc.val act).or
      (s.rangeTrap w cur.core 16 .read ((LaneSet.list act).map fun l => (l, (cur.before.read32 .int a l).toNat, 64))))
    fun w cur act => ({ accEntry .mld cur w act acc.val with opA := Lanes.ofFn fun l => cur.before.read32 .int a l }, w.regs)

/-- `MST` (R229): only a dithered store takes a phase (R62). -/
def execMst (h : Hdr) (acc : Fin 8) (sty : Fin 4) (dith : Bool) (a : Near) (s : State) : Res :=
  matrixWord (.mst h acc sty dith a) h acc.val s
    (fun w cur act => (openTrap w acc.val act).or
      (s.rangeTrap w cur.core 16 .write ((LaneSet.list act).map fun l =>
        (l, (cur.before.read32 .int a l).toNat % 2 ^ 20, 16 * storeSize sty.val))))
    fun w cur act =>
      let lo := (cur.before.read32 .int a ((LaneSet.lowest act).getD 0)).toNat
      let own := bits lo 25 1 = 1
      let phi := if own then bits lo 26 6 else cur.before.regs.phase.toNat % 64
      let regs := if dith && !own then { w.regs with phase := BitVec.ofNat 32 ((phi + 1) % 64) } else w.regs
      ({ accEntry .mst cur w act acc.val with
          ty := sty.val, mode := if dith then phi + 1 else 0
          opA := Lanes.ofFn fun l => BitVec.ofNat 32 ((cur.before.read32 .int a l).toNat % 2 ^ 20) }, regs)

/-! ### The engine (R251 to R253) -/

/-- The accumulators that an entry reaches. -/
def Entry.accs (e : Entry) : List Nat :=
  match e.kind with
  | .mma | .mmas | .mend => if e.ty = 4 then [e.acc, e.acc + 1] else [e.acc]
  | _ => [e.acc]

/-- A step of an open chain. -/
def Entry.isStep (e : Entry) : Bool := (e.kind == .mma || e.kind == .mmas) && !e.args.isEmpty

/-- The entry must follow an earlier one of its queue (R253): they share an accumulator, and are not steps of one chain. -/
def Entry.follows (e f : Entry) : Bool := f.sameWarp e && f.queue = 1 && e.accs.any f.accs.contains && !(e.isStep && f.isStep)

/-- Steps of the entry's chain that were issued before it and have not finished. -/
def State.earlierSteps (s : State) (n : Nat) (e : Entry) : Bool :=
  s.entries.any fun f => f.1 < n && f.2.sameWarp e && f.2.acc = e.acc && f.2.isStep

/-- The tree level of a step's node: FP64 chains count steps (R261). -/
def stepLevel (ty : Nat) : Nat := if ty = 4 then 0 else Nat.log2 (stepK ty)

/-- Nodes of finished steps that the elements of quarter `j` hold beyond the in-order fold (R255): those of steps behind the
earliest one that has not finished there. -/
def State.heldNodes (s : State) (e : Entry) (j : Nat) : Nat :=
  match s.entryWarp e with
  | none => 0
  | some w =>
    let waiting := s.entries.filterMap fun (f : Nat × Entry) =>
      if f.2.sameWarp e && f.2.acc = e.acc && f.2.isStep && f.2.todo.contains j then some (f.2.args.getD j 0) else none
    match waiting.min? with
    | none => 0
    | some low => ((SMap.getD w.trees (e.acc * 32 + 8 * j) []).filter fun x => low < x.index * 2 ^ (x.level - stepLevel e.ty)).length

/-- The tree stack has room for a step of the entry (R255). -/
def State.treeRoom (s : State) (n : Nat) (e : Entry) : Bool :=
  !e.isStep || !s.earlierSteps n e || (List.range 4).all fun j => s.heldNodes e j < 8

/-- A matrix entry may start now (R252). -/
def State.mayPass (s : State) (n : Nat) (e : Entry) : Bool :=
  e.queue = 1 && e.kind != .fence && e.win.isNone && !e.started && !s.fenced n e && s.treeRoom n e &&
    !(s.entries.any fun f => f.1 < n && e.follows f.2)

/-- `MLD` of a lane's row. -/
def State.loadRow (s : State) (b : Block) (e : Entry) (w : Warp) (l : Fin 32) : Warp :=
  (List.range 16).foldl (fun w c => w.setAcc e.acc l c (BitVec.ofNat 32 (s.padRead b (e.opA[l].toNat + 4 * c) 4))) w

/-- The bytes of an element that `MST` stores (R229). -/
def storedElem (ty mode p : Nat) (x : Word) : List Byte :=
  let f := if ty = 1 then bf16 else e4m3
  if ty = 0 then w4 x
  else
    let v := fp32.val x.toNat
    let y := if mode = 0 then (f.convert .rne v).val else (f.dither p (mode - 1) v).val
    bytesLE (storeSize ty) y

/-- `MST` of a lane's row. -/
def State.storeRow (s : State) (b : Block) (e : Entry) (w : Warp) (l : Fin 32) : State :=
  (List.range 16).foldl (fun s c =>
    s.padWrite b (e.opA[l].toNat + c * storeSize e.ty) (storedElem e.ty e.mode ((16 * l.val + c) % 64) (w.accAt e.acc l c))) s

/-- The accesses of `MLD` and `MST` to a block's scratchpad. -/
def Entry.rowAccesses (e : Entry) : List (Nat × Nat) :=
  let size := if e.kind == .mst then storeSize e.ty else 4
  (LaneSet.list e.lanes).flatMap fun l => (List.range 16).map fun c => (e.opA[l].toNat + c * size, size)

/-- `MEND` settles the chain of each quarter into its rows (R228). -/
def Warp.endChain (w : Warp) (e : Entry) : Warp :=
  let f64 := e.ty = 4
  let w := (List.range 4).foldl (fun w j =>
    if e.args.getD j 0 = 0 then w
    else (quarterRows j).foldl (fun w r =>
      match chainNode f64 (stepK e.ty) (e.args.getD j 0) (SMap.getD w.trees (e.acc * 32 + r.val) []) with
      | none => w
      | some x => w.addRow f64 e.acc r x.cols) w) w
  { w with trees := w.trees.filter fun t => t.1 / 32 != e.acc }

/-- An entry that is no step takes its whole effect when it starts. -/
def State.runWhole (s : State) (n : Nat) (e : Entry) (w : Warp) (b : Block) : State :=
  match e.kind with
  | .mzero =>
    (s.setEntryWarp e { w with acc := w.acc.filter fun a => a.1 / 16 != e.acc }).endEntry n e
  | .mbegin => (s.setEntryWarp e { w with trees := w.trees.filter fun t => t.1 / 32 != e.acc }).endEntry n e
  | .mend => (s.setEntryWarp e (w.endChain e)).endEntry n e
  | .mld =>
    let w := (LaneSet.list e.lanes).foldl (fun w l => s.loadRow b e w l) w
    ((s.setEntryWarp e w).engineTouches e b e.rowAccesses).endEntry n e
  | _ =>
    let s := (LaneSet.list e.lanes).foldl (fun s l => s.storeRow b e w l) s
    (s.engineTouches e b e.rowAccesses).endEntry n e

/-- The slot after `last` whose warp has a startable entry on the partition, and that entry (R252). -/
def State.nextPass (s : State) (core part last : Nat) : Option (Nat × Entry) :=
  let mine := fun (slot : Nat) => s.entries.find? fun e => e.2.core = core && e.2.slot = slot && s.mayPass e.1 e.2
  ((List.range 4).map fun k => 4 * part + (last + 1 + k) % 4).findSome? mine

/-- The B offset of a pass: that of the lowest quarter still to do (R251). -/
def Entry.passB (e : Entry) : Nat :=
  match e.todo with
  | [] => 0
  | j :: _ => (e.opB[quarterLane e.lanes j]).toNat

/-- `MATRIX_PASS_START` (R251, R252): the partition's engine, when idle, starts the next startable pass, round-robin. -/
def execMatrixPassStart (core part : Nat) (s : State) : Res :=
  let busy := s.entries.any fun e => e.2.core = core && e.2.slot / 4 = part && e.2.queue = 1 && e.2.started
  let c := s.core core
  if busy || 16 ≤ part then notDue s
  else match s.nextPass core part (SMap.getD c.served part 3) with
    | none => notDue s
    | some (n, e) =>
      match s.entryWarp e, SMap.get? s.blocks e.block with
      | some w, some b =>
        let s := s.setCore core { c with served := SMap.put c.served part (e.slot % 4) }
        if e.kind == .mma || e.kind == .mmas then .next (s.setEntry n { e with started := true, elem := e.passB })
        else .next (s.runWhole n e w b)
      | _, _ => notDue s

/-- The tiles of a quarter of an entry. -/
def Entry.tiles (e : Entry) (j : Nat) : Tile × Tile :=
  let l := quarterLane e.lanes j
  ({ off := e.opA[l].toNat, rows := e.dst, ty := e.ty }, { off := e.opB[l].toNat, rows := 16, ty := e.ty })

/-- One k-step of a quarter acts on its rows (R227, R228). -/
def State.stepRows (s : State) (b : Block) (e : Entry) (j : Nat) (w : Warp) : Warp :=
  let (a, bt) := e.tiles j
  let f64 := e.ty = 4
  (quarterRows j).foldl (fun w r =>
    let cols := (List.range 16).map fun c => (s.stepNode b a bt (e.mode + r.val) c).map (BitVec.ofNat 64)
    if e.args.isEmpty then w.addRow f64 e.acc r cols
    else
      let key := e.acc * 32 + r.val
      let x : TreeNode := { level := stepLevel e.ty, index := e.args.getD j 0, cols := cols }
      { w with trees := SMap.put w.trees key (foldNode f64 40 (SMap.getD w.trees key []) x) }) w

/-- `K_STEP_FINISH` (R227, R255): a quarter of the pass under way finishes its step. -/
def execKStepFinish (entry quarter : Nat) (s : State) : Res :=
  match s.entry? entry with
  | none => notDue s
  | some e =>
    let mine := e.todo.contains quarter && (e.opB[quarterLane e.lanes quarter]).toNat = e.elem
    match s.entryWarp e, SMap.get? s.blocks e.block with
    | some w, some b =>
      if !(e.kind == .mma || e.kind == .mmas) || !e.started || !mine then notDue s
      else
        let (a, bt) := e.tiles quarter
        let s := (s.setEntryWarp e (s.stepRows b e quarter w)).engineTouches e b
          (a.accesses (e.mode + 8 * quarter) 8 ++ bt.accesses 0 16)
        let e := { e with todo := e.todo.erase quarter }
        let more := e.todo.any fun j => (e.opB[quarterLane e.lanes j]).toNat = e.elem
        if e.todo.isEmpty then .next (s.endEntry entry e) else .next (s.setEntry entry { e with started := more })
    | _, _ => notDue s

/-! ### MCONTRIB (R230) -/

/-- The first failing element of a row of 16: its address and cause. -/
def State.contribRow (s : State) (w : Warp) (core : Nat) (va : DWord) : Option (DWord × Cause) :=
  (List.range 16).findSome? fun c =>
    let x := va + BitVec.ofNat 64 (4 * c)
    match s.contribLoc w core x with
    | .error e => some (x, e)
    | .ok _ => none

/-- `MCONTRIB` (R230): one contribution of 16 elements for each lane, once the matrix queue is empty. -/
def execMcontrib (h : Hdr) (acc qpair : Fin 8) (lab : Near) (s : State) : Res :=
  irrevocable (.mcontrib h acc qpair lab) h s fun w cur act =>
    let bad : Trap := { kind := .illegalOperand, lane := lowLane act }
    let va := fun (l : Fin 32) => cur.before.read64 (qPair qpair) l
    let la := cur.before.read32 .int lab ((LaneSet.lowest act).getD 0)
    if w.regs.inPair acc.val || (w.regs.chain acc.val).isSome then trapWord s cur w act bad
    else if s.entries.any fun e => e.2.core = cur.core && e.2.slot = cur.slot && e.2.bound && e.2.queue = 1 && e.2.kind != .fence then
      .next (s.holdWord cur w none)
    else match (LaneSet.list act).findSome? fun l =>
        if (va l).toNat % 64 ≠ 0 then some (Cause.misaligned.trap l (va l) .write)
        else (s.contribRow w cur.core (va l)).map fun x => x.2.trap l x.1 .write with
      | some t => trapWord s cur w act t
      | none =>
        match (LaneSet.list act).find? fun l => s.labelRange w.ctx (va l).toNat la with
        | some l => trapWord s cur w act { kind := .labelRange, lane := l.val, pattern := la }
        | none =>
          let s := (LaneSet.list act).foldl (fun s l =>
            let els := (List.range 16).map fun c => ((va l).toNat + 4 * c, w.accAt acc.val l c)
            s.contribute w cur.core (va l).toNat la els) s
          finish s cur (w.advance cur.pc cur.lanes 0)

end Sys2Proof.Machine
end

