-- ==== Sys2Proof/Machine/Copy.lean ====
section
/-! DEFINITION. The copy engine (R218 to R223, R270 to R280): layout records, storage formats (R52 to R58, R69), the tiles it
moves, `CPY`, `GATH`, `SCAT` and `CPYM`. -/
namespace Sys2Proof.Machine

/-! ### Engine accesses to memory (R222) -/

/-- What an engine's read gives: bytes, a failed check at an address, or the state in which a missing line is asked for. -/
inductive Got where
  | bytes (bs : List Byte)
  | fault (c : Cause) (va : Nat)
  | wait (s : State)

/-- The line of a location is poisoned (R449). -/
def State.lostAt (s : State) (loc : Loc) : Bool :=
  match loc with
  | .mem pa => (SMap.get? s.poison (pa / 128)).isSome
  | _ => false

/-- A location in the scratchpad of an entry's block that overlaps a guard granule: its byte offset (R76). -/
def State.guardHit (s : State) (e : Entry) (loc : Loc) (n : Nat) : Option Nat :=
  match loc, SMap.get? s.blocks e.block with
  | .scratch _ off, some b => if b.touches (off - b.base) n then some (off - b.base) else none
  | _, _ => none

/-- What an engine reads at a location: 0 from a guard granule (R76), else the bytes. -/
def State.engineBytes (s : State) (e : Entry) (loc : Loc) (n : Nat) : List Byte :=
  if (s.guardHit e loc n).isSome then List.replicate n 0 else s.seenAt e loc n

/-- The scratchpad accesses among a list of accesses (address, bytes) of an operation: their touches are recorded for the issuing warp,
and its status word will report them (R76, R213). -/
def State.noteGuards (s : State) (e : Entry) (accesses : List (Nat × Nat)) : State × Entry :=
  let hits := (accesses.flatMap fun a => pieces a.1 a.2).filterMap fun p => match s.engineLoc e true .read (p.1 % 2 ^ 64) with
    | .ok loc => s.guardHit e loc p.2
    | .error _ => none
  (hits.foldl (fun s off => s.engineTouch e off) s, { e with guard := e.guard || !hits.isEmpty })

/-- Reads the pieces of an engine access in ascending order. -/
def State.engineGet (s : State) (e : Entry) (aper : Bool) : List (Nat × Nat) → Got
  | [] => .bytes []
  | p :: ps =>
    match s.engineLoc e aper .read (p.1 % 2 ^ 64) with
    | .error (.table pa) => .wait (s.request e.core e.slot (.mem pa) false).1
    | .error c => .fault c (p.1 % 2 ^ 64)
    | .ok loc =>
      if !s.readable loc then .wait (s.request e.core e.slot loc false).1
      else if s.lostAt loc then .fault .poison (p.1 % 2 ^ 64)
      else match s.engineGet e aper ps with
        | .bytes bs => .bytes (s.engineBytes e loc p.2 ++ bs)
        | other => other

/-- What an engine's write gives: the state, a failed check, or the state in which a line is asked for. -/
inductive Put where
  | done (s : State)
  | fault (c : Cause) (va : Nat)
  | wait (s : State)

/-- The locations of the pieces of a write, each checked before any byte is written. -/
def State.engineLocs (s : State) (e : Entry) (aper : Bool) : List (Nat × Nat) → Except (Cause × Nat) (List (Loc × Nat))
  | [] => .ok []
  | p :: ps =>
    match s.engineLoc e aper .write (p.1 % 2 ^ 64), s.engineLocs e aper ps with
    | .error c, _ => .error (c, p.1 % 2 ^ 64)
    | .ok _, .error x => .error x
    | .ok loc, .ok rest => .ok ((loc, p.2) :: rest)

/-- What later entries of the queue have read already shows the write of entry `n` (R82). -/
def State.showSeen (s : State) (n : Nat) (e : Entry) (loc : Loc) (bs : List Byte) : State :=
  let put : StoreEv := { loc := loc, data := bs, va := 0, sync := false }
  { s with entries := s.entries.map fun (f : Nat × Entry) =>
      if n < f.1 && f.2.sameWarp e && f.2.queue = e.queue && !f.2.seen.isEmpty then
        (f.1, { f.2 with seen := f.2.seen.map fun (x : Loc × List Byte) => (x.1, overlay [put] x.1 x.2) })
      else f }

/-- Entry `n` writes bytes over located pieces; a guard granule discards them (R76). -/
def State.putPieces (s : State) (n : Nat) (e : Entry) : List (Loc × Nat) → List Byte → State
  | [], _ => s
  | (loc, k) :: rest, bs =>
    let s := if (s.guardHit e loc k).isSome then s
      else (s.devStore e.core (.entry n) loc (bs.take k)).showSeen n e loc (bs.take k)
    s.putPieces n e rest (bs.drop k)

/-- An engine writes bytes over the pieces of its entry `n`: all of them, or none yet. -/
def State.enginePutAt (s : State) (n : Nat) (e : Entry) (aper : Bool) (at_ : List (Nat × Nat)) (bs : List Byte) : Put :=
  match s.engineLocs e aper at_ with
  | .error (.table pa, _) => .wait (s.request e.core e.slot (.mem pa) false).1
  | .error (c, a) => .fault c a
  | .ok locs =>
    match locs.find? fun l => !s.devWritable l.1 with
    | some l => .wait (s.request e.core e.slot l.1 true).1
    | none =>
      let s := if e.core < 192 then s.cachePages e.core e.ctx ((at_.filter fun p => !s.inAperture p.1).map fun p => p.1 % 2 ^ 64) else s
      .done (s.putPieces n e locs bs)

/-- An engine writes bytes at a virtual address. -/
def State.enginePut (s : State) (n : Nat) (e : Entry) (aper : Bool) (va : Nat) (bs : List Byte) : Put :=
  s.enginePutAt n e aper (pieces va bs.length) bs

/-! ### Layout records (R270 to R274) -/

/-- The fields of a layout record (R270). -/
structure Layout where
  tensor : Nat
  aux : Nat
  table : Nat
  rows : Nat
  cols : Nat
  rstride : Nat
  sstride : Nat
  trows : Nat
  tcols : Nat
  rstep : Nat
  rorg : Int
  fmt : Nat
  out : Bool
  side : Bool
  handle : Nat
  soff : Nat
  reserved : Bool

/-- Reads a layout record. -/
def Layout.of (r : Nat) : Layout :=
  { tensor := bits r 0 64, aux := bits r 64 64, table := bits r 128 64, rows := bits r 192 32, cols := bits r 224 32
    rstride := bits r 256 32, sstride := bits r 288 32, trows := bits r 320 16, tcols := bits r 336 16
    rstep := bits r 352 16, rorg := sextNat (bits r 368 16) 16, fmt := bits r 384 5, out := bits r 389 1 = 1
    side := bits r 390 1 = 1, handle := bits r 392 4, soff := bits r 416 32
    reserved := bits r 391 1 != 0 || bits r 396 20 != 0 || bits r 448 64 != 0 }

/-- The canonical forms of R271. -/
inductive Canon where
  | raw | bf16 | e4m3 | int8 | planes | f64
deriving DecidableEq, Repr

/-- Canonical form of a storage format (R57, R271). -/
def canonOf : Nat → Canon
  | 0 | 1 | 2 | 3 => .raw
  | 4 | 7 | 11 => .bf16
  | 6 | 15 => .int8
  | 8 | 9 => .planes
  | 17 => .f64
  | _ => .e4m3

/-- Bits of an element in storage (R53, R56, R271): an LQ8 index of 16 bits holds eight weights. -/
def storageBits : Nat → Nat
  | 1 | 4 | 8 => 16
  | 2 | 9 => 32
  | 3 | 17 => 64
  | 12 | 13 => 6
  | 14 => 4
  | 16 => 2
  | _ => 8

/-- Bytes of an element in the slot, over all planes. -/
def Layout.size (y : Layout) : Nat :=
  match canonOf y.fmt with
  | .raw => storageBits y.fmt / 8
  | .bf16 => 2
  | .e4m3 | .int8 => 1
  | .planes => 6
  | .f64 => 8

/-- The tile has side exponents. -/
def Layout.hasSide (y : Layout) : Bool := match canonOf y.fmt with
  | .raw | .f64 => false
  | _ => true

/-- The format stores scales. -/
def Layout.scaled (y : Layout) : Bool := 10 ≤ y.fmt && y.fmt ≤ 16

/-- Byte of the side exponents in the slot (R58). -/
def Layout.sideAt (y : Layout) : Nat := roundUp (y.trows * y.tcols * y.size) 16

/-- Byte of the validity mask in the slot (R58, R273). -/
def Layout.maskAt (y : Layout) : Nat :=
  if y.hasSide then roundUp (y.sideAt + y.trows * (y.tcols / 32)) 16 else y.sideAt

/-- Bytes of the whole tile. -/
def Layout.bytes (y : Layout) : Nat := y.maskAt + 4 * ((y.trows + 31) / 32)

/-- Tensor rows between grid rows (R272). -/
def Layout.step (y : Layout) : Nat := if y.rstep = 0 then y.trows else y.rstep
/-- Grid columns. -/
def Layout.gridCols (y : Layout) : Nat := (y.cols + y.tcols - 1) / max 1 y.tcols
/-- Grid rows. -/
def Layout.gridRows (y : Layout) : Nat :=
  (max 1 (((y.rows : Int) - y.rorg + y.step - 1) / max 1 y.step)).toNat

/-- The direction that a word takes (R274). -/
def EngKind.takes (k : EngKind) (out : Bool) : Bool := match k with
  | .gath | .cpym => !out
  | .scat => out
  | _ => true

/-- The record checks of R274, with those of the tile number (R219) and the index array (R220); the table's come apart. LQ8 counts as a
sub-byte format (DESIGN CHOICE, log entry 107). -/
def State.layoutBad (s : State) (e : Entry) (b : Block) (y : Layout) : Bool :=
  let elem := max 1 (storageBits y.fmt / 8)
  y.reserved || 18 ≤ y.fmt ||
  y.trows = 0 || 287 < y.trows || y.cols = 0 || y.rows = 0 || y.tcols = 0 ||
  (4 ≤ y.fmt && y.fmt ≤ 15 && y.tcols % 32 != 0) || (y.fmt = 16 && y.tcols % 64 != 0) || (y.fmt = 17 && y.tcols != 16) ||
  (y.fmt ≤ 3 && (y.tcols * y.size % 4 != 0 || 65536 < y.tcols * y.size)) ||
  y.tensor % elem != 0 || y.rstride % elem != 0 ||
  s.inAperture y.tensor || s.inAperture y.aux || s.inAperture y.table ||
  (y.scaled && y.aux = 0) || (!y.scaled && y.aux != 0) ||
  (y.fmt = 16 && (y.table = 0 || y.table % 1024 != 0)) || (y.fmt != 16 && y.table != 0) ||
  (y.out && (y.fmt = 8 || y.fmt = 9 || y.fmt = 16)) || !e.kind.takes y.out ||
  (e.kind == .cpym && y.side) ||
  ((e.kind == .gath || e.kind == .scat) && b.size < e.mode + 4 * y.trows) ||
  (e.kind == .cpy && y.gridRows * y.gridCols ≤ e.mode) ||
  (if y.side then y.soff % 128 != 0 || b.size < y.soff + y.bytes
    else e.kind != .cpym && match SMap.get? b.rings y.handle with
      | none => true
      | some r => r.size < y.bytes)

/-! ### Values of elements (R52 to R57, R69, R451) -/

/-- The FP format of a float storage format's elements. -/
def storedFmt : Nat → Fmt
  | 4 => bf16
  | 7 | 11 => e5m2
  | 8 => fp16
  | 9 => fp32
  | 12 => e3m2
  | 13 => e2m3
  | 14 => e2m1
  | 17 => fp64
  | _ => e4m3

/-- The three BF16 slices of an FP32 pattern (R69). An infinity or a NaN stands in hi, with +0 in mid and lo (DESIGN CHOICE,
log 77). -/
def split3 (x : Nat) : Nat × Nat × Nat :=
  let x := ingress x
  match fp32.val x with
  | .fin .. =>
    let hi := (bf16.convert .rz (fp32.val x)).val
    let rest := fun (a b : Nat) => (fp32.add (fp32.val a) (fp32.val (b * 2 ^ 16)).neg).val
    let r1 := rest x hi
    let mid := (bf16.convert .rz (fp32.val r1)).val
    let r2 := rest r1 mid
    (hi, mid, (bf16.convert .rz (fp32.val r2)).val)
  | v => ((bf16.convert .rne v).val, 0, 0)

/-- Weight j of an LQ8 index under a row of its table, as E4M3 (R56). -/
def lq8Weight (x row j : Nat) : Nat :=
  let c := fun (k : Nat) => bits row (3 * k) 3
  let parity := (List.range 8).foldl (fun n k => n + c k) 0
  let ones := (List.range 7).foldl (fun n k => n + bits x (k + 1) 1) 0
  let neg := if j < 7 then bits x (j + 1) 1 = 1 else (ones + parity) % 2 = 1
  (e4m3.round .rne neg (2 * c j + bits x 0 1) (-2)).val

/-- The canonical bits of a storage element (R57). -/
def canonBits (fmt x : Nat) : Nat :=
  match canonOf fmt with
  | .bf16 => if fmt = 4 then x else (bf16.convert .rne ((storedFmt fmt).val x)).val
  | .e4m3 => if fmt = 5 || fmt = 10 then x else (e4m3.convert .rne ((storedFmt fmt).val x)).val
  | .planes => if fmt = 8 then (fp32.convert .rne (fp16.val x)).val else x
  | _ => x

/-- The value of a canonical element under its side exponent (R54, R57, R59, R451). -/
def canonVal (fmt x side : Nat) : FVal :=
  if side = 255 then .nan false
  else
    let v := match canonOf fmt with
      | .bf16 => bf16.val x
      | .int8 => FVal.fin (128 ≤ x) (sextNat x 8).natAbs (-6)
      | _ => e4m3.val x
    v.scale ((side : Int) - 127)

/-- A value rounded rne into an element format of a block, saturated to its largest finite magnitude (R54). -/
def Fmt.saturate (f : Fmt) (v : FVal) : Nat × Bool :=
  match v with
  | .nan _ => (0, false)
  | .inf neg => (f.maxMag + (if neg then f.signBit else 0), true)
  | .fin neg m e =>
    let sgn := if neg then f.signBit else 0
    if m = 0 then (sgn, false)
    else
      let q := max (leading m e - f.fb) (1 - (f.bias : Int) - f.fb)
      let p := f.pack (quantize .rne neg m e q).1 q
      (min p f.maxMag + sgn, f.maxMag < p)

/-- A value as a multiple of 2^-6, saturated to ±127 (R54). -/
def satInt8 (v : FVal) : Nat × Bool :=
  let signed := fun (neg : Bool) (n : Nat) => if neg then (256 - n) % 256 else n
  match v with
  | .nan _ => (0, false)
  | .inf neg => (signed neg 127, true)
  | .fin neg m e =>
    let n := (quantize .rne neg m e (-6)).1
    (signed neg (min n 127), 127 < n)

/-- emax of an MX element (R54). -/
def mxEmax : Nat → Int
  | 10 => 8
  | 11 => 15
  | 12 => 4
  | 13 | 14 => 2
  | _ => 0

/-- The exponent X of a block (R54). -/
def mxExponent (fmt : Nat) (vs : List FVal) : Int :=
  let lead := vs.foldl (fun (best : Option Int) v => match v with
    | .fin _ m e => if m = 0 then best else some (match best with
        | none => leading m e
        | some b => max b (leading m e))
    | _ => best) none
  match lead with
  | some l => max (-127) (min 127 (l - mxEmax fmt))
  | none => if vs.any fun v => match v with | .inf _ => true | _ => false then 127 else -127

/-- A block written to MX storage (R54): scale byte, element codes, whether one saturated. An MXINT8 block is scaled anew like the
others, where the last sentence of R451 has the integers and the scale that were copied in come back: DESIGN CHOICE, log 79. -/
def mxBlock (fmt : Nat) (vs : List FVal) : Nat × List Nat × Bool :=
  if vs.any FVal.isNan then (255, vs.map fun _ => 0, false)
  else
    let x := mxExponent fmt vs
    let codes := vs.map fun v =>
      let v := v.scale (-x)
      if fmt = 15 then satInt8 v else (storedFmt fmt).saturate v
    ((x + 127).toNat, codes.map (·.1), codes.any (·.2))

/-! ### The elements of a tile -/

/-- The tensor row of tile row i: of the grid (R272), or the index array's (R220); none where it lies outside. -/
def Entry.tensorRow (e : Entry) (y : Layout) (i : Nat) : Option Nat :=
  match e.kind with
  | .gath | .scat =>
    let x := e.todo.getD i 0
    if x = 2 ^ 32 - 1 || y.rows ≤ x then none else some x
  | _ =>
    let t := if e.kind == .cpy then e.mode else 0
    let r := y.rorg + (t / max 1 y.gridCols * y.step + i : Nat)
    if r < 0 || (y.rows : Int) ≤ r then none else some r.toNat

/-- The tensor column of tile column 0. -/
def Entry.column0 (e : Entry) (y : Layout) : Nat :=
  if e.kind == .cpy then e.mode % max 1 y.gridCols * y.tcols else 0

/-- Where element (r, c) lies: its first byte, bytes, and the bit within them (R272). -/
def Layout.place (y : Layout) (r c : Nat) : Nat × Nat × Nat :=
  let row := y.tensor + r * y.rstride
  if y.fmt = 16 then (row + 2 * (c / 8), 2, 0)
  else
    let w := storageBits y.fmt
    (row + c * w / 8, (c * w % 8 + w + 7) / 8, c * w % 8)

/-- Where the scale of element (r, c) lies (R272). -/
def Layout.scalePlace (y : Layout) (r c : Nat) : Nat := y.aux + r * y.sstride + c / (if y.fmt = 16 then 64 else 32)

/-- The bytes that a copied element puts in the slot: (offset, bytes) each. -/
def Layout.slotBytes (y : Layout) (k x : Nat) : List (Nat × List Byte) :=
  match canonOf y.fmt with
  | .planes =>
    let plane := y.trows * y.tcols * 2
    let (hi, mid, lo) := split3 x
    [(2 * k, bytesLE 2 hi), (plane + 2 * k, bytesLE 2 mid), (2 * plane + 2 * k, bytesLE 2 lo)]
  | _ => [(k * y.size, bytesLE y.size x)]

/-- What an element's move gives: the bytes for the slot, or a failed check, or a line asked for. -/
inductive Fetch where
  | bytes (ws : List (Nat × List Byte))
  | fault (c : Cause) (va : Nat)
  | wait (s : State)

/-- The side exponent that comes with element (i, c) of the tile, if it begins a group (R57, R58, R219): 0x7F for a group outside the
tensor's columns (DESIGN CHOICE, log 75). -/
def State.fetchSide (s : State) (e : Entry) (y : Layout) (i c : Nat) (inside : Option Nat) : Fetch :=
  if !y.hasSide || c % 32 != 0 then .bytes []
  else
    let at_ := y.sideAt + i * (y.tcols / 32) + c / 32
    match inside, y.scaled with
    | some r, true =>
      match s.engineGet e false (pieces (y.scalePlace r (e.column0 y + c)) 1) with
      | .bytes bs => .bytes [(at_, bs)]
      | .fault x va => .fault x va
      | .wait s => .wait s
    | _, _ => .bytes [(at_, [127])]

/-- Element k of a tile that goes to the scratchpad (R218, R219). The table of LQ8 stands in the entry's arguments. -/
def State.fetchElem (s : State) (e : Entry) (y : Layout) (k : Nat) : Fetch :=
  let i := k / y.tcols
  let c := k % y.tcols
  let col := e.column0 y + c
  let inside := if col < y.cols then e.tensorRow y i else none
  match s.fetchSide e y i c inside, inside with
  | .bytes side, none => .bytes (side ++ y.slotBytes k 0)
  | .bytes side, some r =>
    let (va, n, sh) := y.place r col
    match s.engineGet e false (pieces va n) with
    | .bytes bs =>
      let x := leNat bs
      let x := if y.fmt = 16 then lq8Weight x (e.args.getD (1 + x / 256 % 256) 0) (col % 8)
        else canonBits y.fmt (bits x sh (storageBits y.fmt))
      .bytes (side ++ y.slotBytes k x)
    | .fault x va => .fault x va
    | .wait s => .wait s
  | other, _ => other

/-- The mask words of a tile (R58). -/
def Entry.maskWords (e : Entry) (y : Layout) : List (Nat × List Byte) :=
  (List.range ((y.trows + 31) / 32)).map fun j =>
    (y.maskAt + 4 * j, bytesLE 4 ((List.range 32).foldl (fun n k =>
      if 32 * j + k < y.trows && (e.tensorRow y (32 * j + k)).isSome then n + 2 ^ k else n) 0))

/-- Bits of a list of codes of `w` bits, element 0 lowest (R53). -/
def packCodes (w : Nat) (xs : List Nat) : Nat := xs.foldr (fun x acc => x % 2 ^ w + acc * 2 ^ w) 0

/-- What an element's move out gives: the state and whether a value saturated. -/
inductive Moved where
  | done (s : State) (sat : Bool)
  | fault (c : Cause) (va : Nat) (k : Access)
  | wait (s : State)

/-- The result of a write as the result of a move. -/
def Put.moved (p : Put) (sat : Bool) : Moved := match p with
  | .done s => .done s sat
  | .fault c va => .fault c va .write
  | .wait s => .wait s

/-- A block of up to 32 elements goes to MX storage: its scale and its codes (R54); bits beside them stay. -/
def State.moveBlock (s : State) (num : Nat) (e : Entry) (y : Layout) (r col : Nat) (vs : List FVal) : Moved :=
  let (scale, codes, sat) := mxBlock y.fmt vs
  let w := storageBits y.fmt
  let va := y.tensor + r * y.rstride + col * w / 8
  let n := (codes.length * w + 7) / 8
  let write := fun (keep : Nat) => (s.enginePutAt num e false ((y.scalePlace r col, 1) :: pieces va n)
    (bytesLE 1 scale ++ bytesLE n (keep + packCodes w codes))).moved sat
  match s.engineLocs e false (pieces va n) with
  | .error (c, a) => .fault c a .write
  | .ok _ =>
    if codes.length * w % 8 = 0 then write 0
    else match s.engineGet e false (pieces va n) with
      | .bytes bs => write (leNat bs / 2 ^ (codes.length * w) * 2 ^ (codes.length * w))
      | .fault c a => .fault c a .read
      | .wait s => .wait s

/-- Element k of a tile that leaves the scratchpad, of a valid row inside the tensor (R219). Of an MX block that reaches past the
tensor's columns only the elements inside take part (DESIGN CHOICE, log 73); plain INT8 is written without its side exponent (DESIGN
CHOICE, log 74). -/
def State.storeElem (s : State) (num : Nat) (e : Entry) (b : Block) (base : Nat) (y : Layout) (k : Nat) : Moved :=
  let i := k / y.tcols
  let c := k % y.tcols
  let col := e.column0 y + c
  let valid := s.padRead b (base + y.maskAt + 4 * (i / 32)) 4 / 2 ^ (i % 32) % 2 = 1
  match (if col < y.cols && valid then e.tensorRow y i else none) with
  | none => .done s false
  | some r =>
    let elem := fun (j : Nat) => s.padRead b (base + j * y.size) y.size
    let side := s.padRead b (base + y.sideAt + i * (y.tcols / 32) + c / 32) 1
    if y.scaled then
      if c % 32 != 0 then .done s false
      else s.moveBlock num e y r col ((List.range (min 32 (y.cols - col))).map fun j => canonVal y.fmt (elem (k + j)) side)
    else
      let x := match canonOf y.fmt with
        | .raw | .f64 | .int8 | .planes => elem k
        | _ => ((storedFmt y.fmt).convert .rne (canonVal y.fmt (elem k) side)).val
      (s.enginePut num e false (y.place r col).1 (bytesLE (storageBits y.fmt / 8) x)).moved false

/-- The scratchpad accesses of a whole tile at `base`, for guard touches (R76). -/
def Layout.accesses (y : Layout) (base : Nat) : List (Nat × Nat) :=
  ((List.range (y.trows * y.tcols)).map fun k => (base + k * y.size, y.size)) ++
    ((List.range (if y.hasSide then y.trows * (y.tcols / 32) else 0)).map fun k => (base + y.sideAt + k, 1)) ++
    (List.range ((y.trows + 31) / 32)).map fun j => (base + y.maskAt + 4 * j, 4)

/-! ### The words (R218 to R221) -/

/-- The trap that a lane of a copy word raises at issue (R181, R218, R220). -/
def State.copyTrap (s : State) (cur : Cur) (w : Warp) (a b : Near) (index : Bool) (l : Fin 32) : Option Trap :=
  let va := cur.before.read64 a l
  let off := (cur.before.read32 .int b l).toNat
  if index && s.padSize w < off + 4 then some (Cause.trap (.protection 1) l (BitVec.ofNat 64 off) .read)
  else if va.toNat % 64 ≠ 0 then some (Cause.misaligned.trap l va .read)
  else if index && off % 4 ≠ 0 then some (Cause.misaligned.trap l (BitVec.ofNat 64 off) .read)
  else none

/-- The words of an engine that write a status word: an entry for each lane of `active`, ascending, d marked (R213). -/
def State.addStatusEntries (s : State) (w : Warp) (act : LaneSet) (d : Near) (f : Fin 32 → Entry) : State × Warp :=
  let (w, id) := w.addLoad [nearReg d] act (.status (LaneSet.count act))
  let w := w.putLoaded d 4 act (fun _ => 0) id
  (LaneSet.list act).foldl (fun sw l =>
    State.addEntry sw.1 sw.2 { f l with lane := l.val, dst := nearReg d, load := id }) (s, w)

/-- `CPY`, `GATH`, `SCAT` and `CPYM` (R218): one operation for each lane. -/
def copyWord (i : Instr) (h : Hdr) (kind : EngKind) (d a b : Near) (s : State)
    (check : Warp → Cur → LaneSet → Option Trap) : Res :=
  ordinary i h 1 [] s fun w cur act =>
    if !LaneSet.any act then finish s cur (w.advance cur.pc cur.lanes 0)
    else match ((LaneSet.list act).findSome? (s.copyTrap cur w a b (kind == .gath || kind == .scat))).or (check w cur act) with
      | some t => trapWord (if kind == .cpym then s.fresh else s) cur w act t
      | none =>
        let (s, w) := s.addStatusEntries w act d fun l =>
          { blankEntry kind 0 cur w with
            addr := cur.before.read64 a l, mode := (cur.before.read32 .int b l).toNat }
        finish s cur (w.advance cur.pc cur.lanes 0)

/-- `CPY` (R219). -/
def execCpy (h : Hdr) (d a b : Near) (s : State) : Res := copyWord (.cpy h d a b) h .cpy d a b s fun _ _ _ => none

/-- `GATH` (R220). -/
def execGath (h : Hdr) (d a b : Near) (s : State) : Res := copyWord (.gath h d a b) h .gath d a b s fun _ _ _ => none

/-- `SCAT` (R220). -/
def execScat (h : Hdr) (d a b : Near) (s : State) : Res := copyWord (.scat h d a b) h .scat d a b s fun _ _ _ => none

/-- `CPYM` (R221). The handle that the misuse trap of a launch without a cohort reports is free: the word names none. -/
def execCpym (h : Hdr) (d a b : Near) (s : State) : Res :=
  copyWord (.cpym h d a b) h .cpym d a b s fun w cur act =>
    match (LaneSet.list act).find? fun l => 2 ^ 16 ≤ (cur.before.read32 .int b l).toNat with
    | some l => some { kind := .illegalOperand, lane := l.val }
    | none =>
      if s.recordField w.launch 856 1 = 0 then some (misuse ((Config.freeValue s.free).toNat % 16) act) else none

/-! ### The engine (R218, R276, R278) -/

/-- The owner or taker number of an entry in a ring. -/
def entryOwner (n : Nat) : Nat := 2 ^ 20 + n

/-- The record of a copy entry that has started. -/
def Entry.layout (e : Entry) : Layout := Layout.of (e.args.getD 0 0)

/-- The scratchpad offset of the entry's tile. -/
def State.tileBase (s : State) (e : Entry) : Nat :=
  if e.layout.side then e.layout.soff
  else match s.ring e.block e.layout.handle with
    | none => 0
    | some r => r.offset (e.slotIx.getD 0)

/-- Writes a list of (offset, bytes) into a block's scratchpad. -/
def State.padWrites (s : State) (b : Block) (base : Nat) (ws : List (Nat × List Byte)) : State :=
  ws.foldl (fun s w => s.padWrite b (base + w.1) w.2) s

/-- A list of (offset, bytes) as it waits in a `CPYM` entry for its deliveries. -/
def heldBytes (ws : List (Nat × List Byte)) : List Nat := ws.flatMap fun w => [w.1, w.2.length, leNat w.2]

/-- Reads such a list back. -/
def unheldBytes : List Nat → List (Nat × List Byte)
  | off :: n :: x :: rest => (off, bytesLE n x) :: unheldBytes rest
  | _ => []

/-- How the move of an element ends. -/
inductive CopyEnd where
  | done
  | fault (c : Cause) (va : Nat) (k : Access)
  | wait

/-- Element k of entry `n` moves. -/
def State.copyElem (s : State) (n : Nat) (e : Entry) (b : Block) (k : Nat) : State × Entry × CopyEnd :=
  let y := e.layout
  let base := s.tileBase e
  let next := { e with elem := k + 1 }
  if y.out then
    match s.storeElem n e b base y k with
    | .done s sat => (s, { next with sat := e.sat || sat }, .done)
    | .fault c va a => (s, e, .fault c va a)
    | .wait s => (s, e, .wait)
  else match s.fetchElem e y k with
    | .bytes ws =>
      if e.kind == .cpym then (s, { next with args := e.args ++ heldBytes ws }, .done)
      else (s.padWrites b base ws, next, .done)
    | .fault c va => (s, e, .fault c va .read)
    | .wait s => (s, e, .wait)

/-- Where an entry's index array lies in its block's scratchpad: (offset, bytes) of each word (R220). -/
def Entry.indexWords (e : Entry) (y : Layout) : List (Nat × Nat) :=
  if e.kind == .gath || e.kind == .scat then (List.range y.trows).map fun i => (e.mode + 4 * i, 4) else []

/-- All elements have been moved (or the operation was abandoned): masks are written, guard touches reported, a buffer taken
is released; a `CPYM` goes on to its deliveries (R58, R76, R217), an abandoned one with what it has read (DESIGN CHOICE, log entry 105). -/
def State.copyFinish (s : State) (n : Nat) (e : Entry) (b : Block) : State :=
  let y := e.layout
  let base := s.tileBase e
  let whole := e.elem = y.trows * y.tcols
  let (s, e) := s.noteGuards e [(e.addr.toNat, 64)]
  if e.kind == .cpym then
    let cores := ((List.range 16).filter fun j => e.mode.testBit j).map fun j => e.core / 16 * 16 + j
    s.setEntry n { e with started := true, todo := cores, acc := 2, args := e.args ++ (if whole then heldBytes (e.maskWords y) else []) }
  else
    let s := if !y.out && whole then s.padWrites b base (e.maskWords y) else s
    let acc := y.accesses base ++ e.indexWords y
    let touched := acc.any fun a => b.touches a.1 a.2
    let s := s.engineTouches e b acc
    let s := match y.out && !y.side, s.ring e.block y.handle, e.slotIx with
      | true, some r, some k => s.setRing e.block y.handle (r.release (entryOwner n) k)
      | _, _, _ => s
    s.setEntry n { e with started := true, acc := 2, guard := e.guard || touched }

/-- The next element of an entry moves, where it can (R218, R278). -/
def State.copyStep (s : State) (n : Nat) (e : Entry) (b : Block) : State × CopyEnd :=
  match s.copyElem n e b e.elem with
  | (s, e, .done) => (if e.elem = e.layout.trows * e.layout.tcols then s.copyFinish n e b else s.setEntry n e, .done)
  | (s, e, r) => (s.setEntry n { e with started := true }, r)

/-- What the start of an entry finds. -/
inductive CopyStart where
  | ready (e : Entry)
  | bad
  | fault (c : Cause) (va : Nat)
  | wait (s : State)

/-- A word of a block's scratchpad as the entry finds it, 0 from a guard granule. -/
def State.padWord (s : State) (e : Entry) (b : Block) (off : Nat) : Nat :=
  leNat (s.engineBytes e (.scratch b.core (b.base + off)) 4)

/-- Reads and checks the record, the index array and the table (R218, R274): they become the entry's own. -/
def State.copyCheck (s : State) (e : Entry) (b : Block) : CopyStart :=
  match s.engineGet e true (pieces e.addr.toNat 64) with
  | .fault c va => .fault c va
  | .wait s => .wait s
  | .bytes bs =>
    let y := Layout.of (leNat bs)
    if s.layoutBad e b y then .bad
    else
      let e := { e with args := [leNat bs], todo := (e.indexWords y).map (fun a => s.padWord e b a.1), acc := 1 }
      if y.fmt = 16 then
        match s.engineGet e false (pieces y.table 1024) with
        | .fault c va => .fault c va
        | .wait s => .wait s
        | .bytes t =>
          let table := (List.range 256).map fun r => leNat ((t.drop (4 * r)).take 4)
          if table.any fun r => 2 ^ 24 ≤ r then .bad else .ready { e with args := e.args ++ table }
      else .ready e

/-- The entry takes its place in a ring (R217), once: none while it must wait. -/
def State.copySlot (s : State) (n : Nat) (e : Entry) : Option (State × Entry) :=
  let y := e.layout
  if y.side || e.kind == .cpym || e.slotIx.isSome then some (s, e)
  else match s.ring e.block y.handle with
    | none => some (s, e)
    | some r =>
      if y.out then (r.nextTake (entryOwner n)).map fun k => (s.setRing e.block y.handle (r.take (entryOwner n) k), { e with slotIx := some k })
      else (r.reserve (entryOwner n)).map fun x => (s.setRing e.block y.handle x.2, { e with slotIx := some x.1 })

/-- The engine operations of the copy queue. -/
def EngKind.isCopy : EngKind → Bool
  | .cpy | .gath | .scat | .cpym => true
  | _ => false

/-- A copy entry may start or go on: committed, first of its queue, past its fences, not suspended. -/
def State.mayCopy (s : State) (n : Nat) (e : Entry) : Bool :=
  e.kind.isCopy && e.win.isNone && e.fid.isNone && e.acc != 2 && !s.fenced n e && !s.behindQueue n e

/-- The next element step of a checked entry, in its slot: none while it waits for one. -/
def State.copyNext (s : State) (n : Nat) (e : Entry) : Option (State × CopyEnd) :=
  match SMap.get? s.blocks e.block, s.copySlot n e with
  | some b, some (s, e) => some (s.copyStep n e b)
  | _, _ => none

/-- The writes of the tile that a `CPYM` holds for its deliveries. -/
def Entry.tileWrites (e : Entry) : List (Nat × List Byte) := unheldBytes (e.args.drop (if e.layout.fmt = 16 then 257 else 1))

/-- An entry has an element step that can be made now: of its own, or of a `CPYM` delivery that has its slot. -/
def State.copyAble (s : State) (n : Nat) (e : Entry) : Bool :=
  (s.mayCopy n e && e.acc = 1 && (match s.copyNext n e with | some (_, .done) => true | _ => false)) ||
    e.kind == .cpym && e.acc = 2 && e.giving.any fun d => d.2.2 < e.tileWrites.length && (SMap.get? s.blocks d.1).any fun b => e.todo.contains b.core

/-- How far warp slot `k` of a core stands behind the one that its copy engine served last. -/
def State.copyTurn (s : State) (core k : Nat) : Nat := (k + 63 - SMap.getD (s.core core).served 100 63) % 64

/-- The copy engine of a core serves the queues of its warps round-robin, one element step at a time (R276): no entry of another warp of
the core that could make one stands before this one. -/
def State.copyFirst (s : State) (e : Entry) : Bool :=
  !s.entries.any fun f => f.2.core = e.core && s.copyTurn e.core f.2.slot < s.copyTurn e.core e.slot && s.copyAble f.1 f.2

/-- The copy engine of a core has served a warp slot. -/
def State.copyServed (s : State) (core slot : Nat) : State :=
  let c := s.core core
  s.setCore core { c with served := SMap.put c.served 100 slot }

/-- `COPY_ENTRY_START` (R218, R217, R276): the first committed entry of a copy queue is checked, or moves its next element. `acc` of a
copy entry: 0 unread, 1 checked, 2 moved. An entry that faults or must wait for its line stands at its element. -/
def execCopyEntryStart (entry : Nat) (s : State) : Res :=
  match s.entry? entry with
  | none => notDue s
  | some e =>
    match SMap.get? s.blocks e.block with
    | none => notDue s
    | some b =>
      if !s.mayCopy entry e then notDue s
      else if e.acc = 1 then
        match s.copyNext entry e with
        | none => notDue s
        | some (t, .done) => if s.copyFirst e then .next (t.copyServed e.core e.slot) else notDue s
        | some (t, _) => .next t
      else match s.copyCheck e b with
        | .bad =>
          let (s, e) := s.noteGuards e [(e.addr.toNat, 64)]
          .next (s.setEntry entry { e with started := true, acc := 2, outcome := 1 })
        | .fault _ _ => .next (s.setEntry entry { e with started := true })
        | .wait s => .next s
        | .ready e => .next (s.setEntry entry { e with started := true })

/-- The access of a copy entry that fails now: cause, address, kind, element index (R222). -/
def State.copyFault (s : State) (n : Nat) (e : Entry) (b : Block) : Option (Cause × Nat × Access × Nat) :=
  if e.acc = 0 then
    match s.copyCheck e b with
    | .fault c va => some (c, va, .read, 0)
    | _ => none
  else if e.acc = 1 then
    match s.copyNext n e with
    | some (_, .fault c va k) => some (c, va, k, e.elem)
    | _ => none
  else none

/-! ### Early reads (R83, R275) -/

/-- The accesses to the tensor and the scales that element k of an inbound tile makes. -/
def Entry.elemReads (e : Entry) (y : Layout) (k : Nat) : List (Nat × Nat) :=
  let c := k % y.tcols
  let col := e.column0 y + c
  match (if col < y.cols then e.tensorRow y (k / y.tcols) else none) with
  | none => []
  | some r =>
    (if y.hasSide && y.scaled && c % 32 = 0 then pieces (y.scalePlace r col) 1 else []) ++ pieces (y.place r col).1 (y.place r col).2.1

/-- The read that an entry makes next, of those it can make before its window commits: its record, its index array, its table, the
elements of an inbound tile; with its bytes and its address. -/
def State.nextEarly (s : State) (e : Entry) (b : Block) : Option (Except Cause Loc × Nat × Nat) :=
  let at_ := fun (aper : Bool) (p : Nat × Nat) => (s.engineLoc e aper .read (p.1 % 2 ^ 64), p.2, p.1 % 2 ^ 64)
  let fresh := fun (x : Except Cause Loc × Nat × Nat) => match x.1 with
    | .ok loc => !e.seen.any fun v => v.1 == loc && v.2.length = x.2.1
    | .error _ => true
  let record := at_ true (e.addr.toNat, 64)
  if fresh record then some record
  else match record.1 with
    | .error _ => none
    | .ok loc =>
      let y := Layout.of (leNat (s.engineBytes e loc 64))
      if s.layoutBad e b y then none
      else
        let e := { e with todo := (e.indexWords y).map fun (a : Nat × Nat) => s.padWord e b a.1 }
        let idx := (e.indexWords y).map fun (a : Nat × Nat) => (Except.ok (Loc.scratch b.core (b.base + a.1)), a.2, s.spbase.toNat + a.1)
        let table := if y.fmt = 16 then (pieces y.table 1024).map (at_ false) else []
        match (idx ++ table).find? fresh with
        | some x => some x
        | none => if y.out then none else (List.range (y.trows * y.tcols)).findSome? fun k => ((e.elemReads y k).map (at_ false)).find? fresh

/-- A tentative copy entry makes one read before its window commits (R83, R275): it finds the warp's own stores that precede the word,
and joins the window's read set. A read that would fault is not made now. -/
def earlyRead (n : Nat) (s : State) : Res :=
  match s.entry? n with
  | none => notDue s
  | some e =>
    match e.win, s.warp e.core e.slot, SMap.get? s.blocks e.block with
    | some serial, some w, some b =>
      if !e.kind.isCopy || s.fenced n e || s.behindQueue n e || w.windows.any (fun x => x.serial = serial && x.steady) then notDue s
      else match s.nextEarly e b with
        | some (.ok loc, k, va) =>
          if !s.readable loc then .next (s.request e.core e.slot loc false).1
          else if s.lostAt loc then notDue s
          else
            let bs := overlay (w.storesBefore serial e.issuedAt) loc (s.bytesAt loc k)
            .next ((s.setWarp e.core e.slot (w.readIn serial (loc.grans k) [va / 4096] none)).setEntry n { e with seen := e.seen ++ [(loc, bs)] })
        | _ => notDue s
    | _, _, _ => notDue s

/-! ### CPYM deliveries (R221, R280) -/

/-- A block whose warps have all exited. -/
def Block.gone (b : Block) : Bool := b.ended || b.warps ≤ b.exited.length

/-- A named core is finished with: its blocks are forgotten by the entry. -/
def State.delivered (s : State) (n : Nat) (e : Entry) (core : Nat) : State :=
  let drop := fun (b : Nat × Block) => if b.2.core = core then (b.1, { b.2 with inbound := b.2.inbound.erase n }) else b
  { s with blocks := s.blocks.map drop }.setEntry n { e with todo := e.todo.erase core }

/-- The blocks of an entry's launch on a core. -/
def State.launchBlocksOn (s : State) (e : Entry) (core : Nat) : List (Nat × Block) :=
  s.blocks.filter fun b => b.2.launch = e.launch && b.2.core = core && !b.2.away

/-- An entry has served a block of a named core. -/
def Entry.feeds (e : Entry) (bid : Nat) : Entry := { e with fed := e.fed ++ [bid] }

/-- A delivery to a block, whose slot k is reserved, makes the next of its writes, or is published after the last one (R221, R276). -/
def State.deliverStep (s : State) (n : Nat) (e : Entry) (bid : Nat) (b : Block) (k i : Nat) (r : Ring) : State :=
  match e.tileWrites[i]? with
  | some w =>
    let off := r.offset k + w.1
    let touched := b.touches off w.2.length
    let s := if touched then (s.padWrite b off w.2).engineTouch e off else s.padWrite b off w.2
    s.setEntry n { e with
      guard := e.guard || touched, giving := e.giving.map fun (d : Nat × Nat × Nat) => if d.1 = bid then (bid, k, i + 1) else d }
  | none =>
    let blocks := SMap.put s.blocks bid { b with inbound := b.inbound.erase n, rings := SMap.put b.rings e.layout.handle (r.publish k) }
    ({ s with blocks := blocks } : State).setEntry n ({ e with
      slotIx := if bid = e.block then some k else e.slotIx, giving := e.giving.filter fun d => d.1 != bid }.feeds bid)

/-- A delivery of entry `n` to one block of a named core: its slot is reserved and then filled, it is held until the block's `KSET`, or
skipped where the slot is too small; none while it must wait. Held deliveries leave in order (DESIGN CHOICE, log entry 108). -/
def State.cpymTo (s : State) (n : Nat) (e : Entry) (bid : Nat) (b : Block) : Option State :=
  match SMap.get? b.rings e.layout.handle, e.giving.find? fun d => d.1 = bid with
  | none, _ =>
    let held := (s.blocks.filter fun x => x.2.core = b.core).foldl (fun n x => n + x.2.inbound.length) 0
    if b.inbound.contains n || 16 ≤ held then none
    else some { s with blocks := SMap.put s.blocks bid { b with inbound := b.inbound ++ [n] } }
  | some r, some (_, k, i) =>
    if i < e.tileWrites.length && !s.copyFirst e then none
    else some ((s.deliverStep n e bid b k i r).copyServed e.core e.slot)
  | some r, none =>
    if !(b.inbound.isEmpty || b.inbound.head? = some n) then none
    else if r.size < e.layout.bytes then
      some ({ s with blocks := SMap.put s.blocks bid { b with inbound := b.inbound.erase n } }.setEntry n ({ e with
        skipped := e.skipped ||| 2 ^ (b.core % 16), outcome := if e.outcome = 0 then 1 else e.outcome }.feeds bid))
    else (r.reserve (entryOwner n)).map fun x => (s.setRing bid e.layout.handle x.2).setEntry n { e with giving := e.giving ++ [(bid, x.1, 0)] }

/-- `CPYM_DELIVERY` (R221, R276): a step of a delivery to a block of one named core, or the end of that core: it holds no block of the
launch, or every one has been served or has exited. -/
def execCpymDelivery (entry core : Nat) (s : State) : Res :=
  match s.entry? entry with
  | none => notDue s
  | some e =>
    if e.kind != .cpym || e.acc != 2 || !e.todo.contains core then notDue s
    else
      let bs := s.launchBlocksOn e core
      let due := bs.filter fun b => !b.2.gone && !e.fed.contains b.1
      match due.findSome? fun b => s.cpymTo entry e b.1 b.2 with
      | some t => .next t
      | none =>
        if !due.isEmpty then notDue s
        else
          let exited := bs.any fun b => !e.fed.contains b.1
          let e := if bs.isEmpty || exited then { e with skipped := e.skipped ||| 2 ^ (core % 16) } else e
          .next (s.delivered entry { e with absent := e.absent || bs.isEmpty, exited := e.exited || exited } core)

/-- The slot that a copy entry reserved is published with its completion (R217, R222). -/
def State.copyPublish (s : State) (e : Entry) : State :=
  let y := e.layout
  match !y.side && e.kind != .cpym, s.ring e.block y.handle, e.slotIx with
  | true, some r, some k =>
    s.setRing e.block y.handle (if y.out then r else r.publish k)
  | _, _, _ => s

end Sys2Proof.Machine
end

