-- ==== Sys2Proof/Machine/Gemvn.lean ====
section
/-! DEFINITION. `GEMVN` and the Ectal engines (R238, R239, R262 to R266). -/
namespace Sys2Proof.Machine

/-- The fields of a `GEMVN` descriptor (R238). -/
structure Gemvn where
  brec : Nat
  x : Nat
  y : Nat
  rows : Nat
  k : Nat
  reserved : Bool

/-- Reads a descriptor. -/
def Gemvn.of (r : Nat) : Gemvn :=
  { brec := bits r 0 64, x := bits r 64 64, y := bits r 128 64, rows := bits r 192 32, k := bits r 224 32
    reserved := bits r 256 256 != 0 }

/-- A field of the descriptor is out of range (R238). -/
def Gemvn.bad (g : Gemvn) : Bool :=
  g.reserved || g.rows = 0 || 2 ^ 24 < g.rows || g.k = 0 || 2 ^ 27 < g.k || g.x % 64 != 0 || g.y % 128 != 0 || g.brec % 64 != 0

/-- The weight formats that `GEMVN` accepts (R265). -/
def gemvnFormat (fmt : Nat) : Bool :=
  fmt = 4 || fmt = 5 || fmt = 7 || fmt = 16 || (10 ≤ fmt && fmt ≤ 14)

/-- The matrix fields of the layout record are out of range (R262, R265, R274). -/
def State.weightsBad (s : State) (g : Gemvn) (y : Layout) : Bool :=
  let elem := max 1 (storageBits y.fmt / 8)
  y.reserved || !gemvnFormat y.fmt || y.rows != g.rows || y.cols != g.k || (y.fmt = 16 && g.k % 64 != 0) ||
    y.tensor % elem != 0 || y.rstride % elem != 0 ||
    s.inAperture y.tensor || s.inAperture y.aux || s.inAperture y.table ||
    (y.scaled && y.aux = 0) || (!y.scaled && y.aux != 0) ||
    (y.fmt = 16 && (y.table = 0 || y.table % 1024 != 0)) || (y.fmt != 16 && y.table != 0)

/-- `GEMVN` (R239): each lane enters one operation in the near-memory queue. A descriptor that is not 64-byte aligned traps (DESIGN CHOICE,
log entry 106). -/
def execGemvn (h : Hdr) (d a : Near) (s : State) : Res :=
  irrevocable (.gemvn h d a) h s fun w cur act =>
    match (LaneSet.list act).find? fun l => (cur.before.read64 a l).toNat % 64 ≠ 0 with
    | some l => trapWord s cur w act (Cause.misaligned.trap l (cur.before.read64 a l) .read)
    | none =>
      let (s, w) := s.addStatusEntries w act d fun l =>
        { blankEntry .gemvn 3 cur w with addr := cur.before.read64 a l }
      finish s cur (w.advance cur.pc cur.lanes 0)

/-- How far a `GEMVN` operation comes: refused, stopped by a failed access or by a line that is not here, or with y written. An operation
that goes on keeps what it has read. -/
inductive GemvnRun where
  | bad (s : State) (e : Entry)
  | fault (s : State) (e : Entry) (c : Cause) (va : Nat) (k : Access) (elem : Nat)
  | wait (s : State) (e : Entry)
  | done (s : State) (e : Entry)

/-- The stack of the HBM byte at an address of the matrix: none where it lies elsewhere (R239). -/
def State.stackAt (s : State) (e : Entry) (va : Nat) : Except Cause (Option Nat) :=
  match s.engineLoc e false .read (va % 2 ^ 64) with
  | .error c => .error c
  | .ok (.mem pa) => .ok (if pa / 2 ^ 48 = s.self && pa % 2 ^ 48 / 2 ^ 36 < 12 then some (pa % 2 ^ 48 / 2 ^ 36) else none)
  | .ok _ => .ok none

/-- First addresses on each page of the matrix's rows, with the index of the first element there. -/
def Layout.weightPages (y : Layout) : List (Nat × Nat) :=
  (List.range y.rows).flatMap fun r =>
    let (lo, _, _) := y.place r 0
    let (hi, n, _) := y.place r (y.cols - 1)
    (List.range ((hi + n - 1) / 4096 - lo / 4096 + 1)).map fun p =>
      let va := max lo ((lo / 4096 + p) * 4096)
      (va, r * y.cols + (va - lo) * 8 / storageBits y.fmt)

/-- The stack that holds every page of a list: none where they do not share one. -/
def State.stackOfPages (s : State) (e : Entry) : List (Nat × Nat) → Option Nat → Except (Cause × Nat × Nat) (Option Nat)
  | [], found => .ok found
  | p :: ps, found =>
    match s.stackAt e p.1 with
    | .error c => .error (c, p.1 % 2 ^ 64, p.2)
    | .ok none => .ok none
    | .ok (some k) => if found.all (· = k) then s.stackOfPages e ps (some k) else .ok none

/-- What is read of the description of an operation: refused, with the accesses made; stopped; or complete. -/
inductive GemvnPlan where
  | bad (read : List (Nat × Nat))
  | fault (c : Cause) (va elem : Nat)
  | wait (s : State)
  | ready (g y : Nat) (table : List Nat) (stack : Nat)

/-- The LQ8 table of a record, its rows checked (R55); empty for the other formats. -/
def State.gemvnTable (s : State) (e : Entry) (read : List (Nat × Nat)) (g y stack : Nat) : GemvnPlan :=
  let l := Layout.of y
  if l.fmt != 16 then .ready g y [] stack
  else match s.engineGet e false (pieces l.table 1024) with
    | .fault c va => .fault c va 0
    | .wait s => .wait s
    | .bytes t =>
      let table := (List.range 256).map fun r => leNat ((t.drop (4 * r)).take 4)
      if table.any fun r => 2 ^ 24 ≤ r then .bad read else .ready g y table stack

/-- Reads and checks what describes an operation (R239). -/
def State.gemvnPlan (s : State) (e : Entry) : GemvnPlan :=
  match s.engineGet e true (pieces e.addr.toNat 64) with
  | .fault c va => .fault c va 0
  | .wait s => .wait s
  | .bytes bs =>
    let g := Gemvn.of (leNat bs)
    let first := [(e.addr.toNat, 64)]
    if g.bad then .bad first
    else match s.engineGet e true (pieces g.brec 64) with
      | .fault c va => .fault c va 0
      | .wait s => .wait s
      | .bytes rs =>
        let y := Layout.of (leNat rs)
        let both := first ++ [(g.brec, 64)]
        if s.weightsBad g y then .bad both
        else match s.stackOfPages e y.weightPages none with
          | .error (c, va, k) => .fault c va k
          | .ok none => .bad both
          | .ok (some stack) => s.gemvnTable e both (leNat bs) (leNat rs) stack

/-- A `GEMVN` entry whose description has been read: `args` holds the descriptor, the layout record, the stack, the table and then the
output elements; `fed` is x as far as it has been read, `todo` the leaves of the row under way. -/
def Entry.gemvn (e : Entry) : Gemvn := Gemvn.of (e.args.getD 0 0)

/-- The layout record of the operation's matrix. -/
def Entry.weights (e : Entry) : Layout := Layout.of (e.args.getD 1 0)

/-- How many of the operation's `args` stand before its output elements. -/
def Entry.planArgs (e : Entry) : Nat := if e.weights.fmt = 16 then 259 else 3

/-- The LQ8 table of the operation. -/
def Entry.lqTable (e : Entry) : List Nat := (e.args.drop 3).take (e.planArgs - 3)

/-- The output elements that are complete. -/
def Entry.outputs (e : Entry) : List Nat := e.args.drop e.planArgs

/-- The weights that have been read, rows in order. -/
def Entry.weightsRead (e : Entry) : Nat := e.outputs.length * e.weights.cols + e.todo.length

/-- The leaf of weight (r, k) (R59, R65, R265): none gives why it cannot be read now. -/
def State.gemvnLeaf (s : State) (e : Entry) (r k x : Nat) : Got ⊕ Nat :=
  let y := e.weights
  let (va, n, sh) := y.place r k
  let side : Got := if y.scaled then s.engineGet e false (pieces (y.scalePlace r k) 1) else .bytes [127]
  match s.engineGet e false (pieces va n), side with
  | .bytes bs, .bytes sb =>
    let v := leNat bs
    let w := if y.fmt = 16 then lq8Weight v (e.lqTable.getD (v / 256 % 256) 0) (k % 8)
      else canonBits y.fmt (bits v sh (storageBits y.fmt))
    let ty := if canonOf y.fmt == .e4m3 then 1 else 0
    .inr (ingress (leaf59 (elemVal ty w) (bf16.val x) (leNat sb) 127))
  | .bytes _, g => .inl g
  | g, _ => .inl g

/-- A leaf joins its row, which after its last leaf gives its output element: the root over K leaves (R63, R67, R239). -/
def Entry.addLeaf (e : Entry) (v : Nat) : Entry :=
  let cols := e.weights.cols
  let leaves := e.todo ++ [v]
  if leaves.length < cols then { e with todo := leaves }
  else
    let m := if cols ≤ 1 then 0 else Nat.log2 (cols - 1) + 1
    { e with todo := [], args := e.args ++ [rootValue ((treeValue treeAdd m (leaves.map some)).getD 0)] }

/-- The weights from element `i` of the matrix on, and then y whole (R239). -/
def State.gemvnWeights (s : State) (n : Nat) (e : Entry) : List Nat → GemvnRun
  | [] =>
    match s.enginePut n e true e.gemvn.y (e.outputs.flatMap (bytesLE 4)) with
    | .fault c va => .fault s e c va .write ((va - e.gemvn.y) / 4)
    | .wait s => .wait s e
    | .done s =>
      let (s, e) := s.noteGuards e ((List.range e.gemvn.rows).map fun r => (e.gemvn.y + 4 * r, 4))
      .done s e
  | i :: rest =>
    match s.gemvnLeaf e (i / e.weights.cols) (i % e.weights.cols) (e.fed.getD (i % e.weights.cols) 0) with
    | .inr v => s.gemvnWeights n (e.addLeaf v) rest
    | .inl (.fault c va) => .fault s e c va .read i
    | .inl (.wait s) => .wait s e
    | .inl (.bytes _) => .wait s e

/-- The elements of x of a list, in order, and then the weights (R266). -/
def State.gemvnX (s : State) (n : Nat) (e : Entry) : List Nat → GemvnRun
  | [] => s.gemvnWeights n e ((List.range (e.weights.rows * e.weights.cols)).drop e.weightsRead)
  | k :: rest =>
    match s.engineGet e true (pieces (e.gemvn.x + 2 * k) 2) with
    | .fault c va => .fault s e c va .read k
    | .wait s => .wait s e
    | .bytes bs =>
      let (s, e) := s.noteGuards e [(e.gemvn.x + 2 * k, 2)]
      s.gemvnX n { e with fed := e.fed ++ [leNat bs] } rest

/-- Runs an operation as far as it goes: its description, x, the weights, y; no element that it has passed is accessed again (R222,
R239). -/
def State.gemvnRun (s : State) (n : Nat) (e : Entry) : GemvnRun :=
  if e.acc = 0 then
    match s.gemvnPlan e with
    | .bad read => let (s, e) := s.noteGuards e read; .bad s e
    | .fault c va k => .fault s e c va .read k
    | .wait s => .wait s e
    | .ready g y table stack =>
      let (s, e) := s.noteGuards e [(e.addr.toNat, 64), ((Gemvn.of g).brec, 64)]
      s.gemvnX n { e with acc := 1, args := [g, y, stack] ++ table } (List.range (Gemvn.of g).k)
  else s.gemvnX n e ((List.range e.gemvn.k).drop e.fed.length)

/-- The stack whose engine serves an operation; one that cannot be told is stack 0's. -/
def State.gemvnStack (s : State) (e : Entry) : Nat :=
  if e.acc = 0 then
    match s.gemvnPlan e with
    | .ready _ _ _ k => k
    | _ => 0
  else e.args.getD 2 0

/-- An operation may run. -/
def State.mayGemvn (s : State) (n : Nat) (e : Entry) : Bool :=
  e.kind == .gemvn && e.win.isNone && e.fid.isNone && e.acc != 2 && !s.fenced n e && !s.behindQueue n e

/-- An operation goes on as far as it comes. -/
def State.gemvnGo (s : State) (n : Nat) (e : Entry) : State :=
  match s.gemvnRun n e with
  | .bad s e => s.setEntry n { e with started := true, acc := 2, outcome := 1 }
  | .fault s e _ _ _ _ => s.setEntry n { e with started := true }
  | .wait s e => s.setEntry n { e with started := true }
  | .done s e => s.setEntry n { e with started := true, acc := 2 }

/-- An operation that can only wait, for a line or for its fault to be reported. -/
def GemvnRun.stuck : GemvnRun → Bool
  | .wait _ _ | .fault .. => true
  | _ => false

/-- The operations that a stack's engine may serve now (R263): those under way, and as many more, in order of arrival, as make 16. -/
def State.gemvnServed (s : State) (stack : Nat) : List (Nat × Entry) :=
  let mine := s.entries.filter fun e => e.2.kind == .gemvn && s.gemvnStack e.2 = stack
  let running := (mine.filter fun e => e.2.started && e.2.acc != 2).length
  let fresh := (mine.filter fun e => !e.2.started && s.mayGemvn e.1 e.2).take (16 - running)
  mine.filter fun e => (e.2.started && s.mayGemvn e.1 e.2) || fresh.any fun f => f.1 = e.1

/-- `GEMVN_START` (R263): a stack's engine runs the first of its operations that does not wait; where all of them wait, it asks for what
they lack. `acc` of a `GEMVN` entry: 0 queued, 1 with its description read, 2 with y written. -/
def execGemvnStart (stack : Nat) (s : State) : Res :=
  let served := s.gemvnServed stack
  match served.find? fun e => !(s.gemvnRun e.1 e.2).stuck with
  | some (n, e) => .next (s.gemvnGo n e)
  | none => if served.isEmpty then notDue s else .next (served.foldl (fun s e => s.gemvnGo e.1 e.2) s)

/-- The access of a `GEMVN` entry that fails now (R222). -/
def State.gemvnFault (s : State) (n : Nat) (e : Entry) : Option (Cause × Nat × Access × Nat) :=
  match s.gemvnRun n e with
  | .fault _ _ c va k elem => some (c, va, k, elem)
  | _ => none

end Sys2Proof.Machine
end

