-- ==== Sys2Proof/Machine/Plans.lean ====
section
/-! DEFINITION. Prarnati plans and `COLL` (R240, R305 to R315): plan slots and images, instances, work entries, arrivals. -/
namespace Sys2Proof.Machine

/-! ### Plan images (R305 to R307) -/

/-- The plan that an image holds; none where a check of R306 or R307 fails. `at_ a n` reads n bytes at offset a of it. -/
def planOf (base : Nat) (at_ : Nat → Nat → Nat) : Option Plan :=
  let h := at_ 0 64
  let nctr := bits h 400 16
  let nent := bits h 384 16
  let nuep := bits h 360 8
  let members := bits h 368 16
  let self := bits h 356 4
  let elems := bits h 320 32
  let leaves := bits h 288 32
  let fctr := bits h 276 12
  let first := roundUp (64 + 16 * nuep) 32
  let peers := (List.range nuep).map fun k => at_ (64 + 16 * k) 16
  let work := (List.range nent).map fun k => at_ (first + 32 * k) 32
  let workBad := fun (w : Nat) =>
    nctr ≤ bits w 212 12 || nctr ≤ bits w 200 12 || nctr ≤ bits w 188 12 || 2 ≤ bits w 184 4 || bits w 176 7 != 0 ||
      bits w 161 7 != 0 || bits w 64 32 != 0 || (bits w 184 4 = 0 && bits w 128 32 != 0) ||
      (if bits w 183 1 = 1 then nuep ≤ bits w 168 8 else 16 ≤ bits w 168 8 || !members.testBit (bits w 168 8)) ||
      bits w 96 32 % 4 != 0 || bits w 96 32 = 0 || 2 ^ 31 < bits w 96 32 || bits w 32 32 % 4 != 0 || bits w 0 32 % 4 != 0
  if bits h 416 32 = 0 || nctr < 2 || 4096 < nctr || nent = 0 || 16384 < nent || !members.testBit self ||
      bits h 352 4 != 0 || 2 ^ 24 < elems || leaves = 0 || 2 ^ 27 < leaves || nctr ≤ fctr || bits h 256 20 != 0 ||
      bits h 0 224 != 0 || peers.any (fun p => bits p 96 32 != 0) || work.any workBad then none
  else some
    { base := base, sig := BitVec.ofNat 64 (bits h 448 64), planid := BitVec.ofNat 32 (bits h 416 32), nctr := nctr
      members := BitVec.ofNat 16 members, self := self, elems := elems, leaves := leaves, fctr := fctr
      fthr := BitVec.ofNat 32 (bits h 224 32), peers := peers.map fun p => BitVec.ofNat 96 p
      work := work.map fun w => BitVec.ofNat 256 w }

/-- The register of a plan slot (R305). -/
def planSlotReg (slot : Nat) : Nat := 0x20100 + 16 * slot

/-- Sets the register of a plan slot: base, err, valid. -/
def State.setPlanSlot (s : State) (slot base : Nat) (err valid : Bool) : State :=
  let v := base / 4096 * 4096 + (if err then 2 else 0) + if valid then 1 else 0
  { s with mmio := SMap.put s.mmio (planSlotReg slot) (BitVec.ofNat 64 v) }

/-- An instance of a plan runs. -/
def State.planRuns (s : State) (planid : Word) : Bool := s.insts.any fun x => x.2.plan.planid == planid

/-- `PLAN_LOAD` (R305): 1 is written to valid. -/
def execPlanLoad (slot : Fin 64) (value : DWord) (s : State) : Res :=
  let base := value.toNat / 4096 * 4096
  let others := s.plans.filter fun p => p.1 != slot.val
  let free := 65536 - others.foldl (fun n p => n + p.2.work.length) 0
  match planOf base fun a n => s.memNat (base + a) n with
  | none => .next ({ s with plans := SMap.del s.plans slot.val }.setPlanSlot slot.val base true false)
  | some p =>
    if others.any (fun x => x.2.planid == p.planid) || free < p.work.length then
      .next ({ s with plans := SMap.del s.plans slot.val }.setPlanSlot slot.val base true false)
    else .next ({ s with plans := SMap.put s.plans slot.val p }.setPlanSlot slot.val base false true)

/-- `PLAN_UNLOAD` (R305): 0 is written to valid; ignored while an instance of the plan runs. -/
def execPlanUnload (slot : Fin 64) (value : DWord) (s : State) : Res :=
  let err := (s.reg (planSlotReg slot.val) 0).getLsbD 1
  let idle := { s with plans := SMap.del s.plans slot.val }.setPlanSlot slot.val value.toNat err false
  match SMap.get? s.plans slot.val with
  | none => .next idle
  | some p => .next (if s.planRuns p.planid then s else idle)

/-! ### Instances (R308, R309) -/

/-- `COLL` (R240): each lane enters one operation in the collective queue. -/
def execColl (h : Hdr) (d a : Near) (s : State) : Res :=
  irrevocable (.coll h d a) h s fun w cur act =>
    let (s, w) := s.addStatusEntries w act d fun l =>
      { blankEntry .coll 4 cur w with addr := cur.before.read64 a l }
    finish s cur (w.advance cur.pc cur.lanes 0)

/-- A start record (R308). -/
structure StartRec where
  src : Nat
  dst : Nat
  counter : Nat
  hist : Nat
  planid : Word
  tag : Word
  reserved : Bool

/-- Reads a start record. -/
def StartRec.of (r : Nat) : StartRec :=
  { src := bits r 0 64, dst := bits r 64 64, counter := bits r 128 64, hist := bits r 192 64
    planid := BitVec.ofNat 32 (bits r 288 32), tag := BitVec.ofNat 32 (bits r 320 32)
    reserved := bits r 352 160 != 0 || bits r 256 32 != 0 }

/-- The declaration of a member's shard (R309). -/
def Plan.decl (p : Plan) (r : StartRec) : Decl :=
  { target := r.dst, leaves := p.leaves, elems := p.elems, counter := r.counter, hist := r.hist, corebp := 27, slicebp := 27 }

/-- The start record starts nothing (R308): outcome 6. -/
def State.startBad (s : State) (e : Entry) (p : Plan) (r : StartRec) : Bool :=
  p.sig != s.reg 0x20000 0 || p.self != s.self ||
    (p.elems != 0 && ((p.decl r).bad || s.declOverlaps e.ctx (p.decl r)))

/-- Where target, counter and histogram of a shard lie (R202), as writes of the instance's engine. -/
def State.shardLocs (s : State) (e : Entry) (d : Decl) : Except (Cause × Nat) (Loc × Loc × Loc) :=
  let one := fun (va : Nat) => match s.engineLoc e false .write va with
    | .error c => Except.error (c, va)
    | .ok loc => Except.ok loc
  match one d.target, one d.counter, one d.hist with
  | .error x, _, _ => .error x
  | _, .error x, _ => .error x
  | _, _, .error x => .error x
  | .ok t, .ok k, .ok h => .ok (t, k, h)

/-- The valid plan of a planid. -/
def State.planNamed (s : State) (planid : Word) : Option Plan := (s.plans.find? fun p => p.2.planid == planid).map (·.2)

/-- The instance of a name. -/
def State.instNamed (s : State) (planid tag : Word) : Option (Nat × Inst) :=
  s.insts.find? fun x => x.2.plan.planid == planid && x.2.tag == tag

/-- An instance's entry as accesses of its engine see it. -/
def State.instEntry (s : State) (x : Inst) : Entry :=
  match s.entry? x.entry with
  | some e => { e with ctx := x.ctx, super := x.super }
  | none =>
    { kind := .coll, queue := 4, core := 192, slot := 0, bound := false, block := 0, launch := 0, ctx := x.ctx
      super := x.super, lane := 0, lanes := Lanes.all false, acc := 1, ty := 0, mode := 0, addr := 0, opA := Lanes.all 0
      opB := Lanes.all 0, args := [], dst := 16, load := 0, win := none, started := true, elem := 0, slotIx := none
      todo := [], owed := 0, outcome := 0, sat := false, guard := false, absent := false, exited := false, skipped := 0
      fid := none, issuedAt := 0, seen := [], fed := [] }

/-- A delivered flit has taken its full effect (R341): it may be acknowledged, and its credit goes back (R348). -/
def State.rxDone (s : State) : Option RxRef → State
  | none => s
  | some r =>
    let x := s.port r.port
    let done := (r.slot, r.ctr) :: r.route.toList
    let s := s.setPort r.port { x with unacked := done.foldl (fun us u => us.erase u) x.unacked, ackOwed := true }
    match r.cls with
    | none => s
    | some c => done.foldl (fun s _ => s.oweCredit r.port c) s

/-- An access of an instance's engine that touches guard granules is recorded and will be reported (R76, R213). -/
def State.instGuards (s : State) (x : Inst) (accesses : List (Nat × Nat)) : State :=
  match s.entry? x.entry with
  | none => s
  | some e =>
    let (s, e') := s.noteGuards e accesses
    if e' = e then s else s.setEntry x.entry e'

/-! ### Work entries (R307) -/

/-- One packet of a work entry has been acknowledged; with the last one the entry's local counter gains 1 (R310). -/
def State.ackWork (s : State) (i index : Nat) : State :=
  match SMap.get? s.insts i with
  | none => s
  | some x =>
    match SMap.get? x.owed index with
    | none => s
    | some owed =>
      if owed ≤ 1 then
        let s := { s with insts := SMap.put s.insts i { x with owed := SMap.del x.owed index } }
        match x.plan.work[index]? with
        | none => s
        | some b => s.advanceCtr i (Work.of b).done 1
      else { s with insts := SMap.put s.insts i { x with owed := SMap.put x.owed index (owed - 1) } }

/-! ### Arrivals (R310, R313) -/

/-- A fault of the collective engine that is outstanding for a work entry; index 65,536 stands for an instance's arrivals. -/
def State.workFault (s : State) (i index : Nat) : Bool := s.efaults.any fun f => f.2.what == .work i index

/-- A fault of the collective engine for a work entry. -/
def State.raiseWork (s : State) (i index : Nat) (x : Inst) (c : Cause) (va elem : Nat) (k : Access) : State :=
  let e := s.instEntry x
  (s.newFault (faultOf c va elem x.ctx 192 e.slot 4 k.code (.work i index))).1

/-- The lull entry that a reduce arrival becomes at its root line (R310). -/
def Inst.arrival (x : Inst) (a : HeldWrite) : LullEntry :=
  { a.entry with ctx := x.ctx, line := x.dst + a.doff / 128 * 128, obj := x.obj, seq := 0 }

/-- The arrivals of an entry at its port lull: the shard's elements, and apart from them those beyond it, which no object declares
(R204). -/
def State.instEntries (s : State) (e : LullEntry) : List LullEntry :=
  match e.obj.bind s.obj? with
  | none => [e]
  | some o =>
    let mine := o.covers e.ctx e.line e.present
    let rest := e.present &&& ~~~mine
    (if mine = 0 then [] else [{ e with present := mine }]) ++
      if rest = 0 then [] else [{ e with present := rest, obj := none, apart := true, credit := if mine = 0 then e.credit else none }]

/-- An arrival has taken its effect: the receiver's counter advances, what waits for its acknowledgement goes on (R310, R341). -/
def State.arrivalDone (s : State) (i : Nat) (a : HeldWrite) : State :=
  let s := s.advanceCtr i a.sig (if a.label.isSome then 1 else a.data.length)
  match a.rx, a.work with
  | some rx, _ => s.rxDone (some rx)
  | none, some (j, k) => s.ackWork j k
  | none, none => s

/-- The record of a spilled reduce entry is freed; none where it has been read back, and so has joined its object, already (R291). -/
def State.takeSpilled (s : State) (a : HeldWrite) : Option State :=
  let base := s.spillBase a.ctx
  let lab := (a.label.map (·.1.toNat)).getD 0
  (((List.range 64).map (spillIndex (s.spillRecs a.ctx) a.line lab)).find? fun i =>
    let r := s.spillRecord base i
    bits r 1200 1 = 1 && bits r 1216 64 == a.line && bits r 1152 32 == lab).map fun i => s.spillFree base i

/-- Entries reach a lull, which accepts all of them; none where one of them could only wait there (R292, R310). -/
def State.accepts (s : State) (k : Nat) (es : List LullEntry) : Option State :=
  let t := es.foldl (fun s e => s.arriveAt k e) s
  if (s.lull k).inbox.length < (t.lull k).inbox.length then none else some t

/-- One arrival takes effect at its instance, with what is left of it where it must wait: a stopped lull accepts nothing (R292). -/
def State.applyArrival (s : State) (i : Nat) (x : Inst) (a : HeldWrite) : State × Option HeldWrite :=
  match a.label with
  | some _ =>
    let e := x.arrival a
    if (s.lull (portLull e.line)).stopped.contains e.ctx then (s, some a)
    else match (if a.place == .spilled then s.takeSpilled a else some s) with
      | none => (s.arrivalDone i a, none)
      | some t => match t.accepts (portLull e.line) (t.instEntries e) with
        | none => (s, some a)
        | some t => (t.arrivalDone i a, none)
  | none =>
    let settle := fun (s : State) =>
      if s.stored (.entry x.entry) then
        ((match a.credit with | none => s | some p => s.oweCredit p 2).arrivalDone i a, none)
      else (s, some { a with put := true })
    if a.put then settle s
    else match s.enginePut x.entry (s.instEntry x) true (x.dst + a.doff) a.data with
      | .done s => settle (s.instGuards x [(x.dst + a.doff, a.data.length)])
      | .fault c va => (if s.workFault i 65536 then s else s.raiseWork i 65536 x c va 0 .write, some a)
      | .wait s => (s, some a)

/-- The arrivals of the given places in the order of arrival, each performed at its instance or kept: behind one of its instance and
kind that must wait, the later ones wait too (R313). -/
def State.pumpArrivals (s : State) : List Nat → List (Nat × Bool) → State
  | [], _ => s
  | n :: rest, stuck =>
    match s.heldWrites.find? (·.seq = n) with
    | none => s.pumpArrivals rest stuck
    | some a => match s.instNamed a.planid a.tag with
      | none => s.pumpArrivals rest stuck
      | some (i, x) =>
        if stuck.contains (i, a.label.isSome) then s.pumpArrivals rest stuck
        else
          let out : State := { s with heldWrites := s.heldWrites.map fun y => if y.seq = n then { y with place := .port } else y }
          match out.applyArrival i x a with
          | (t, none) => State.pumpArrivals { t with heldWrites := t.heldWrites.filter (·.seq != n) } rest stuck
          | (t, some b) =>
            State.pumpArrivals { t with heldWrites := t.heldWrites.map fun y => if y.seq = n then b else y } rest ((i, a.label.isSome) :: stuck)

/-- Reduce entries that wait for their instance are held in their port lulls, where those have or can make room (R302, R313). -/
def State.admitHeld (s : State) : State :=
  s.heldWrites.foldl (fun s a =>
    if a.label.isNone || a.place != .port then s
    else match s.makeRoom (portLull a.line) with
      | (s, true) => { s with heldWrites := s.heldWrites.map fun y => if y.seq = a.seq then { y with place := .lull } else y }
      | (s, false) => s) s

/-- Every arrival that can be performed is, in order of arrival. -/
def State.pumpHeld (s : State) : State := (s.pumpArrivals (s.heldWrites.map (·.seq)) []).admitHeld

/-- An arrival joins those that wait, and every one that can be performed is. -/
def State.planArrive (s : State) (a : HeldWrite) : State :=
  State.pumpHeld { s with heldWrites := s.heldWrites ++ [{ a with seq := s.lullSeq }], lullSeq := s.lullSeq + 1 }

/-! ### Starting (R309) -/

/-- What the start of an instance finds. -/
inductive InstStart where
  | fault (c : Cause) (va : Nat)
  | wait (s : State)
  | bad
  | held
  | ready (p : Plan) (r : StartRec) (home : Nat)

/-- Reads and checks a start record (R308, R309). -/
def State.instCheck (s : State) (e : Entry) : InstStart :=
  if e.addr.toNat % 64 != 0 then .bad
  else match s.engineGet e true (pieces e.addr.toNat 64) with
    | .fault c va => .fault c va
    | .wait s => .wait s
    | .bytes bs =>
      let r := StartRec.of (leNat bs)
      if r.reserved || r.src % 4 != 0 || r.dst % 128 != 0 || r.counter % 4 != 0 then .bad
      else match s.planNamed r.planid with
        | none => .bad
        | some p =>
          if p.elems != 0 && r.hist % 64 != 0 then .bad
          else if (s.instNamed r.planid r.tag).isSome then .held
          else if s.startBad e p r then .bad
          else if 64 ≤ s.insts.length then .held
          else if p.elems = 0 then .ready p r s.self
          else match s.shardLocs e (p.decl r) with
            | .error (c, va) => .fault c va
            | .ok (t, k, h) =>
              if !s.declClass t k h then .bad
              else if s.homeOf t = s.self && s.tableFull then .held
              else .ready p r (s.homeOf t)

/-- An instance starts: its counters, its shard, its held arrivals (R309). -/
def State.startInst (s : State) (n : Nat) (e : Entry) (p : Plan) (r : StartRec) (home : Nat) : State :=
  let i := s.nextInst
  let obj := if p.elems = 0 then none else some (SMap.fresh s.objs)
  let x : Inst :=
    { plan := p, tag := r.tag, entry := n, ctx := e.ctx, super := e.super, src := r.src, dst := r.dst
      counter := r.counter, hist := r.hist, obj := obj, ctrs := 1 :: List.replicate (p.nctr - 1) 0, got := [], fired := [], owed := [] }
  let (s, e) := s.noteGuards e [(e.addr.toNat, 64)]
  let s := ({ s with insts := SMap.put s.insts i x, nextInst := i + 1 } : State).setEntry n { e with started := true, acc := 1, elem := i }
  let s := match obj with
    | none => s
    | some k => s.declare k { newObj (p.decl r) e.ctx e.super home true e.core e.slot none none (some i) with block := some e.block }
  s.pumpHeld

/-- `COLL_INSTANCE_START` (R309): an entry whose earlier entries of the queue have started (R312). `acc` of a `COLL` entry: 0
waiting, 1 running as instance `elem`, 2 ended. -/
def execCollInstanceStart (entry : Nat) (s : State) : Res :=
  match s.entry? entry with
  | none => notDue s
  | some e =>
    let behind := s.entries.any fun f => f.1 < entry && f.2.sameWarp e && f.2.kind == .coll && f.2.acc = 0
    if e.kind != .coll || e.win.isSome || e.fid.isSome || e.acc != 0 || behind || s.fenced entry e then notDue s
    else match s.instCheck e with
      | .held => notDue s
      | .fault _ _ => .next (s.setEntry entry { e with started := true })
      | .wait s => .next s
      | .bad =>
        let (s, e) := if e.addr.toNat % 64 = 0 then s.noteGuards e [(e.addr.toNat, 64)] else (s, e)
        .next (s.setEntry entry { e with started := true, acc := 2, outcome := 6 })
      | .ready p r home => .next (s.startInst entry e p r home)

/-- The access of a `COLL` entry that fails now (R222). -/
def State.collFault (s : State) (e : Entry) : Option (Cause × Nat × Access × Nat) :=
  if e.acc != 0 then none
  else match s.instCheck e with
    | .fault c va => some (c, va, .read, 0)
    | _ => none

/-! ### Firing (R310) -/

/-- Consecutive pieces of at most `n` bytes of a list, with their offsets. -/
def piecesOf (n : Nat) : Nat → Nat → List Byte → List (Nat × List Byte)
  | 0, _, _ => []
  | _, _, [] => []
  | fuel + 1, off, bs => (off, bs.take n) :: piecesOf n fuel (off + n) (bs.drop n)

/-- The reduce arrivals that a work entry sends, one for each root line of the receiver (R310, R65). -/
def Work.lines (k : Work) (x : Inst) (bs : List Byte) (credit : Option Nat) : List HeldWrite :=
  let first := k.doff / 128
  let last := (k.doff + bs.length - 1) / 128
  (List.range (last - first + 1)).map fun j =>
    let off := (first + j) * 128
    let val := fun (l : Nat) =>
      let a := off + 4 * l
      if k.doff ≤ a && a < k.doff + bs.length then
        some (ingressAt k.label (BitVec.ofNat 32 (leNat ((bs.drop (a - k.doff)).take 4))))
      else none
    let ls := List.range 32
    { planid := x.plan.planid, tag := x.tag, sig := k.sig, doff := off
      data := ls.flatMap fun l => w4 ((val l).getD 0)
      label := some (k.label, BitVec.ofNat 32 (ls.foldl (fun n l => if (val l).isSome then n + 2 ^ l else n) 0),
        ls.foldl (fun n l => n + (residueOf ((val l).getD 0)).toNat * 2 ^ (3 * l)) 0)
      line := x.dst + off, ctx := x.ctx, credit := credit, rx := none, work := none, put := false }

/-- The one-sided writes that a work entry sends, of at most `most` bytes each. -/
def Work.writes (k : Work) (x : Inst) (most : Nat) (bs : List Byte) : List HeldWrite :=
  (piecesOf most bs.length k.doff bs).map fun p =>
    { planid := x.plan.planid, tag := x.tag, sig := k.sig, doff := p.1, data := p.2, label := none, line := x.dst + p.1 / 128 * 128, ctx := x.ctx
      credit := none, rx := none, work := none, put := false }

/-- The spec field of a plan flit (R339). -/
def planSpec (a : HeldWrite) : BitVec 80 :=
  BitVec.ofNat 80 (a.planid.toNat * 2 ^ 48 + a.tag.toNat * 2 ^ 16 + a.sig % 4096 * 16)

/-- The payload of a plan flit: kind 6 for a write, kind 5 for a reduce entry (R339). The line address is the sender's own shard's; the
offset in the receiver's stands behind the context, where the manual names no field (DESIGN CHOICE, log 81). -/
def planPayload (a : HeldWrite) : List Byte :=
  match a.label with
  | none => bytesLE 4 a.doff ++ bytesLE 4 a.data.length ++ List.replicate 8 0 ++ a.data ++ List.replicate (208 - a.data.length) 0
  | some (lab, present, res) =>
    a.data ++ bytesLE 12 res ++ w4 present ++ w4 lab ++ List.replicate 4 0 ++ bytesLE 8 a.line ++ bytesLE 4 a.ctx ++ bytesLE 4 0 ++
      bytesLE 8 a.doff ++ List.replicate 48 0

/-- A packet of a work entry goes toward a member of the domain. -/
def State.sendPlan (s : State) (i index dev : Nat) (a : HeldWrite) : State :=
  s.enqueue dev { flit := s.newFlit (if a.label.isSome then 5 else 6) dev (if a.label.isSome then 0 else 2) (planSpec a) (planPayload a)
                  core := 192, draw := true, ack := .work i index }

/-- A packet of a work entry as an Ultra Ethernet packet (R315). -/
def HeldWrite.packet (a : HeldWrite) : UePacket :=
  { planid := a.planid, tag := a.tag, isWrite := a.label.isNone, namesPlan := true, sig := a.sig, doff := a.doff
    label := a.label.elim 0 (·.1), present := a.label.elim 0 (·.2.1), data := a.data }

/-- The packets of a fired entry leave; those to the own device arrive by the same rules (R310). -/
def State.fire (s : State) (i index : Nat) (x : Inst) (k : Work) (bs : List Byte) : State :=
  let packets := if k.reduce then k.lines x bs none else k.writes x (if k.ue then 4096 else 208) bs
  let s := { s with insts := SMap.put s.insts i { x with
    got := SMap.del x.got index, fired := x.fired ++ [index], owed := SMap.put x.owed index packets.length } }
  if k.ue then
    let port := (Config.freeValue s.free).toNat % 4
    { s.fresh with
      ueCount := SMap.put s.ueCount (3 * port) (SMap.getD s.ueCount (3 * port) 0 + BitVec.ofNat 64 packets.length)
      ueOut := s.ueOut ++ packets.map fun a => (i, index, x.plan.peers.getD k.peer 0, a.packet) }
  else if k.peer = s.self then packets.foldl (fun s a => s.planArrive { a with work := some (i, index) }) s
  else packets.foldl (fun s a => s.sendPlan i index k.peer a) s

/-- The transport has acknowledged a packet of a work entry (R310). -/
def State.ueAcked (s : State) (i index : Nat) : State :=
  match s.ueOut.find? fun p => p.1 = i && p.2.1 = index with
  | none => s
  | some p => { s with ueOut := s.ueOut.erase p }.ackWork i index

/-- An Ultra Ethernet port is ready (R429). -/
def State.ueReady (s : State) : Bool := (List.range 4).any fun u => (s.reg 0x30000 0).getLsbD (42 + u)

/-- An instance ends with an outcome: its status is written. -/
def State.endInst (s : State) (i : Nat) (outcome : Nat) : State :=
  match SMap.get? s.insts i with
  | none => s
  | some x =>
    let s := { s with insts := SMap.del s.insts i }
    match s.entry? x.entry with
    | none => s
    | some e => s.completeEntry x.entry { e with outcome := outcome, acc := 2 }

/-- An instance ends early: its entries are discarded, no further root line is written (R314, R222). -/
def State.breakInst (s : State) (i outcome : Nat) : State :=
  match SMap.get? s.insts i with
  | none => s
  | some x =>
    let s := match x.obj with
      | none => s
      | some n => (s.dropEntries n).freeObj n
    s.endInst i outcome

/-- `WORK_ENTRY_FIRE` (R310, R312): an entry that has not fired reads its next element once its arming counter has reached its
threshold, and sends its packets with the last one; one toward Ultra Ethernet waits for a ready port (R430). -/
def execWorkEntryFire (inst index : Nat) (s : State) : Res :=
  match SMap.get? s.insts inst with
  | none => notDue s
  | some x =>
    match x.plan.work[index]? with
    | none => notDue s
    | some b =>
      let k := Work.of b
      let got := SMap.get? x.got index
      if !(got.isSome || x.armed index) || s.workFault inst index || (k.ue && !s.ueReady) then
        notDue s
      else
        let bs := got.getD []
        let va := (if k.fromDst then x.dst else x.src) + k.soff + bs.length
        match s.engineGet (s.instEntry x) true (pieces va 4) with
        | .fault .poison _ => .next (s.breakInst inst 2)
        | .fault c a => .next (s.raiseWork inst index x c a (bs.length / 4) .read)
        | .wait s => .next s
        | .bytes new =>
          let bs := bs ++ new
          let s := s.instGuards x [(va, 4)]
          .next (if k.len ≤ bs.length then s.fire inst index x k bs
            else { s with insts := SMap.put s.insts inst { x with got := SMap.put x.got index bs } })

/-- `COLL_COMPLETE` (R311): the final counter has reached its threshold, and every armed work entry has fired (R310). -/
def execCollComplete (inst : Nat) (s : State) : Res :=
  match SMap.get? s.insts inst with
  | none => notDue s
  | some x =>
    let firing := !x.got.isEmpty || (List.range x.plan.work.length).any x.armed
    if (x.ctrs.getD x.plan.fctr 0).toNat < x.plan.fthr.toNat || firing || !s.stored (.entry x.entry) then notDue s
    else .next (s.endInst inst 0)

/-! ### Loss of a member, Ultra Ethernet (R314, R315) -/

/-- The members of a plan that a peer outside the domain or a device stands for are lost: its instances end with outcome 4. -/
def State.loseMembers (s : State) (hit : Plan → Bool) : State :=
  (s.insts.filter fun x => hit x.2.plan).foldl (fun s x => s.breakInst x.1 4) s

/-- `UE_PEER_UNREACHABLE` (R315): a peer that the transport declares unreachable is a lost member. -/
def execUePeerUnreachable (fabricAddress : DWord) (s : State) : Res :=
  .next (s.loseMembers fun p => p.peers.any fun a => a.setWidth 64 == fabricAddress)

/-- `UE_PACKET_RECEIVE` (R315): a sealed packet that names a plan instance is applied there, or held; every other operation is
refused. -/
def execUePacketReceive (p : UePacket) (s : State) : Res :=
  if !s.ueReady then notDue s
  else
    let port := (Config.freeValue s.free).toNat % 4
    let count := fun (s : State) => { s.fresh with
      ueCount := SMap.put s.ueCount (3 * port + 1) (SMap.getD s.ueCount (3 * port + 1) 0 + 1) }
    if !p.namesPlan || (p.isWrite && 4096 < p.data.length) then .next (count s)
    else
      let res := (List.range 32).foldl (fun n l =>
        n + (residueOf (BitVec.ofNat 32 (leNat ((p.data.drop (4 * l)).take 4)))).toNat * 2 ^ (3 * l)) 0
      .next ((count s).planArrive
        { planid := p.planid, tag := p.tag, sig := p.sig, doff := p.doff, data := p.data
          label := if p.isWrite then none else some (p.label, p.present, res), line := p.doff / 128 * 128, ctx := 0, credit := none
          rx := none, work := none, put := false })

end Sys2Proof.Machine
end

