-- ==== Sys2Proof/Machine/Bulk.lean ====
section
/-! DEFINITION. Bulk writes and multicast pairs at their receiver (R242, R243, R346, R351), and the acknowledgement of a
delivered flit (R341). -/
namespace Sys2Proof.Machine

/-- The devices of an `XMC` list, in order (R243). -/
def listDevs (list : Nat) : List Nat := (List.range (bits list 60 4)).map fun k => bits list (4 * k) 4

/-! ### Bulk writes at their receiver (R242, R346) -/

/-- The first place among `n` bytes of memory that may not be read, or written, now. -/
def State.missingPiece (s : State) (write : Bool) (pa n : Nat) : Option Loc :=
  ((pieces pa n).map fun p => Loc.mem p.1).find? fun l => !(if write then s.writable l else s.readable l)

/-- The hub writes runs of bytes to local memory, all of them, or asks for what it lacks; true once written. -/
def State.hubWrites (s : State) (runs : List (Nat × List Byte)) : State × Bool :=
  match runs.findSome? fun r => s.missingPiece true r.1 r.2.length with
  | some l => ((s.request 192 0 l true).1, false)
  | none => (runs.foldl (fun s r => s.writeEvent none (.mem r.1) r.2) s, true)

/-- The hub writes bytes to local memory. -/
def State.hubWrite (s : State) (pa : Nat) (bs : List Byte) : State × Bool := s.hubWrites [(pa, bs)]

/-- One of several blocks: which is open. -/
def State.oneOf (s : State) (bs : List (Nat × Block)) : Option Block :=
  (bs[(Config.freeValue s.free).toNat % max 1 bs.length]?).map (·.2)

/-- An arrival counter of a block gains a payload's byte count; the outcome it gives (R242). -/
def State.countArrival (s : State) (b : Option Block) (off n : Nat) : State × Nat :=
  match b with
  | none => (s, 3)
  | some b => if b.size < off + 4 then (s, 7) else (s.padWrite b off (bytesLE 4 (s.padRead b off 4 + n)), 0)

/-- The blocks on a core that a flit of a peer's transfer may count for: those of level-6 launches. -/
def State.peerBlocks (s : State) (core : Nat) : List (Nat × Block) :=
  s.blocks.filter fun b => b.2.core = core && !b.2.ended && !b.2.away &&
    ((SMap.get? s.launches b.2.launch).map (·.level)) = some 6

/-- A bulk flit takes effect (R346): bytes, then the counter; false while a line or page is missing. -/
def State.bulkWrite (s : State) (pa : Nat) (bs : List Byte) (core cnt : Nat) (nc : Bool) : State × Bool :=
  match s.hubWrite pa bs with
  | (s, false) => (s, false)
  | (s, true) => if nc then (s, true) else ((s.fresh.countArrival (s.oneOf (s.peerBlocks core)) cnt bs.length).1, true)

/-- A payload is filled up to 224 bytes with zeros. -/
def padPayload (bs : List Byte) : List Byte := bs ++ List.replicate (224 - bs.length) 0

/-- The payload of a route flit (R351). -/
def routePayload (list next dst len : Nat) : List Byte :=
  padPayload (bytesLE 8 list ++ bytesLE 8 next ++ bytesLE 8 dst ++ bytesLE 4 len)

/-- The pair of flits of a multicast leaves for a device (R351). -/
def State.sendPair (s : State) (core dev list next dst : Nat) (bs : List Byte) (ack1 ack2 : AckTo) (draw : Bool := false) : State :=
  let route := s.newFlit 4 dev 2 0 (routePayload list next dst bs.length)
  let data := s.newFlit 4 dev 2 1 (padPayload bs)
  (s.enqueue dev { flit := route, core := core, draw := draw, ack := ack1 }).enqueue dev
    { flit := data, core := core, draw := draw, ack := ack2 }

/-! ### What flits of peers ask of the hub -/

/-- A pair at a target (R243, R351): the data are written, then the pair goes on to the next device of its list; the first hop
is acknowledged after that one. -/
def State.servePair (s : State) (rx : Option RxRef) (route : Flit) (data : List Byte) : State × Bool :=
  let at_ := fun (o n : Nat) => leNat ((route.payload.drop o).take n)
  let list := at_ 0 8
  let next := at_ 8 1
  let dst := at_ 16 8 % 2 ^ 48
  let bs := data.take (at_ 24 4)
  match s.hubWrite (s.self * 2 ^ 48 + dst) bs with
  | (s, false) => (s, false)
  | (s, true) =>
    match (listDevs list)[next]? with
    | none => (s.rxDone rx, true)
    | some d =>
      if d = s.self then (s.rxDone rx, true)
      else
        let ack := match rx with
          | none => AckTo.none
          | some r => AckTo.relay r
        (s.sendPair 192 d list (next + 1) dst bs .none ack, true)

end Sys2Proof.Machine
end

