-- ==== Sys2Proof/Machine/Memory.lean ====
section
/-! DEFINITION. Loads and stores, `LDN`, `PREF`, and the scratchpad allocator (R181 to R191). -/
namespace Sys2Proof.Machine

/-! ### Loads and stores (R183) -/

/-- Target classes of a load or store of `n` bytes (R184): only 4 and 8 bytes reach registers and host MMIO. -/
def plainAccepts (n : Nat) : Accepts := { mmio := n == 4 || n == 8, host := true }

/-- No read count: an ordinary load. -/
def noCount (_ : Warp) : Option Nat := none

/-- A global load of `n` bytes (R183). -/
def loadGlobal (i : Instr) (h : Hdr) (d base : Near) (off : BitVec 6) (n : Nat) (s : State) : Res :=
  loadWord State.readReg i h d n noCount (globalAddr base off n (plainAccepts n) .read) s

/-- A scratchpad load of `n` bytes. -/
def loadPad (i : Instr) (h : Hdr) (d base : Near) (off : BitVec 6) (n : Nat) (s : State) : Res :=
  loadWord State.readReg i h d n noCount (padAddr base off n) s

/-- The low `n` bytes of a store's data. -/
def storeData (n : Nat) (d : Near) (before : Warp) (l : Fin 32) : Nat :=
  if n = 16 then (before.read128 d l).toNat else if n = 8 then (before.read64 d l).toNat else (before.read32 .int d l).toNat

/-- A global store of `n` bytes. -/
def storeGlobal (i : Instr) (h : Hdr) (d base : Near) (off : BitVec 6) (n : Nat) (s : State) : Res :=
  storeWord i h n (globalAddr base off n (plainAccepts n) .write) (storeData n d) s

/-- A scratchpad store of `n` bytes. -/
def storePad (i : Instr) (h : Hdr) (d base : Near) (off : BitVec 6) (n : Nat) (s : State) : Res :=
  storeWord i h n (padAddr base off n) (storeData n d) s

/-- `LD.b32` (R183). -/
def execLdB32 (h : Hdr) (d base : Near) (off : BitVec 6) (s : State) : Res :=
  loadGlobal (.ldB32 h d base off) h d base off 4 s
/-- `LD.b64` (R183). -/
def execLdB64 (h : Hdr) (d base : Near) (off : BitVec 6) (s : State) : Res :=
  loadGlobal (.ldB64 h d base off) h d base off 8 s
/-- `LD.b128` (R183). -/
def execLdB128 (h : Hdr) (d base : Near) (off : BitVec 6) (s : State) : Res :=
  loadGlobal (.ldB128 h d base off) h d base off 16 s
/-- `LD.b16` (R183): zero-extended. -/
def execLdB16 (h : Hdr) (d base : Near) (off : BitVec 6) (s : State) : Res :=
  loadGlobal (.ldB16 h d base off) h d base off 2 s
/-- `LD.b8` (R183): zero-extended. -/
def execLdB8 (h : Hdr) (d base : Near) (off : BitVec 6) (s : State) : Res :=
  loadGlobal (.ldB8 h d base off) h d base off 1 s
/-- `ST.b32` (R183). -/
def execStB32 (h : Hdr) (d base : Near) (off : BitVec 6) (s : State) : Res :=
  storeGlobal (.stB32 h d base off) h d base off 4 s
/-- `ST.b64` (R183). -/
def execStB64 (h : Hdr) (d base : Near) (off : BitVec 6) (s : State) : Res :=
  storeGlobal (.stB64 h d base off) h d base off 8 s
/-- `ST.b128` (R183). -/
def execStB128 (h : Hdr) (d base : Near) (off : BitVec 6) (s : State) : Res :=
  storeGlobal (.stB128 h d base off) h d base off 16 s
/-- `ST.b16` (R183). -/
def execStB16 (h : Hdr) (d base : Near) (off : BitVec 6) (s : State) : Res :=
  storeGlobal (.stB16 h d base off) h d base off 2 s
/-- `ST.b8` (R183). -/
def execStB8 (h : Hdr) (d base : Near) (off : BitVec 6) (s : State) : Res :=
  storeGlobal (.stB8 h d base off) h d base off 1 s
/-- `LDS.b32` (R183). -/
def execLdsB32 (h : Hdr) (d base : Near) (off : BitVec 6) (s : State) : Res :=
  loadPad (.ldsB32 h d base off) h d base off 4 s
/-- `LDS.b64` (R183). -/
def execLdsB64 (h : Hdr) (d base : Near) (off : BitVec 6) (s : State) : Res :=
  loadPad (.ldsB64 h d base off) h d base off 8 s
/-- `STS.b32` (R183). -/
def execStsB32 (h : Hdr) (d base : Near) (off : BitVec 6) (s : State) : Res :=
  storePad (.stsB32 h d base off) h d base off 4 s
/-- `STS.b64` (R183). -/
def execStsB64 (h : Hdr) (d base : Near) (off : BitVec 6) (s : State) : Res :=
  storePad (.stsB64 h d base off) h d base off 8 s
/-- `LDN.b32` (R187): `LD.b32` with the read count `sr.rc`; it never reaches MMIO (R184). -/
def execLdnB32 (h : Hdr) (d base : Near) (off : BitVec 6) (s : State) : Res :=
  loadWord State.readReg (.ldnB32 h d base off) h d 4 (fun before => some before.regs.rc.toNat)
    (globalAddr base off 4 { mmio := false, host := true } .read) s

/-! ### PREF (R188) -/

/-- A line, or of a host line one sector, enters a core's L1, shared or to be written, if it is here for that; its read count stays. -/
def State.prefNow (s : State) (core : Nat) (loc : Loc) (write : Bool) : Option State :=
  let n := match loc with
    | .host _ => 64
    | _ => 128
  if !(if write then s.writable loc else s.readable loc) then none
  else
    let s := match loc with
      | .mem pa => if write then s.dirWrite core (pa / 128) none
        else s.dirRead core (pa / 128) (s.onlyShared (pa / 128) || s.lineSync (pa / 128))
      | _ => s
    some (s.useLines core [loc] n fun t => { t with valid := true })

/-- A line asked for although no word waits for it: a request for which the core has no allowance is not made; the line enters the L1
when it comes. -/
def State.askAhead (s : State) (core slot : Nat) (loc : Loc) (write : Bool) : State :=
  match s.request core slot loc write with
  | (_, some (.becalmed _)) => s
  | (t, none) => (t.prefNow core loc write).getD t
  | (t, _) => { t with prefs := t.prefs ++ [(loc, core, write)] }

/-- One line of a `PREF`: hint 0 brings it into the L1 shared, 1 to the home slice only, which no state here shows, 2 to be written,
for which whatever else holds the line is asked as a write request asks (a line of a SYNC page is never E, R415). A line that
cannot be translated, that lies in the aperture or on MMIO is skipped, and one for which the L1 has no way free. -/
def State.prefLine (s : State) (w : Warp) (core slot : Nat) (hint va : Nat) : State :=
  match s.globalLoc w core { mmio := false, host := true } .read 1 (BitVec.ofNat 64 va) with
  | .error _ => s
  | .ok loc =>
    let parts := match loc with
      | .mem _ => [loc]
      | .host _ => [loc, loc.plus 64]
      | _ => []
    let write : Bool := hint = 2 && !s.isSync core w.ctx va loc
    if hint = 1 || (s.noWay core (lineNos loc.gran.toList)).isSome then s
    else parts.foldl (fun s loc => (s.prefNow core loc write).getD (s.askAhead core slot loc write)) s

/-- Lines that a `PREF` asked for and that have come enter the L1s; what is asked for no more is forgotten. -/
def State.landPrefs (s : State) : State :=
  s.prefs.foldl (fun s p =>
    match (if (s.noWay p.2.1 (lineNos p.1.gran.toList)).isSome then none else s.prefNow p.2.1 p.1 p.2.2) with
    | some t => t
    | none =>
      if s.wanted.contains (heldKey p.1, p.2.2) || s.busyLine p.1.lineNo then { s with prefs := s.prefs ++ [p] } else s) { s with prefs := [] }

/-- `PREF` (R188): no event, no fault. -/
def execPref (h : Hdr) (a : Near) (count : Fin 32) (hint : Fin 4) (s : State) : Res :=
  ordinary (.pref h a count hint) h 0 [] s fun w cur act =>
    let vas := (LaneSet.list act).flatMap fun l =>
      (List.range (count.val + 1)).map fun k => (cur.before.read64 a l).toNat / 128 * 128 + 128 * k
    finish (vas.foldl (fun s va => s.prefLine w cur.core cur.slot hint.val va) s) cur (w.advance cur.pc cur.lanes 0)

/-! ### The scratchpad allocator (R189 to R191) -/

/-- [b, b + z + 128) lies in the heap and overlaps no live allocation's span. -/
def spanFree (allocs : List (Nat × Nat)) (lo hi b z : Nat) : Bool :=
  lo ≤ b && b + z + 128 ≤ hi && allocs.all fun a => b + z + 128 ≤ a.1 || a.1 + a.2 + 128 ≤ b

/-- The lowest place of an allocation of `z` bytes in the heap [lo, hi): the heap's start or the end of a live span. -/
def heapPlace (allocs : List (Nat × Nat)) (lo hi z : Nat) : Option Nat :=
  let starts := roundUp lo 64 :: allocs.map fun a => a.1 + a.2 + 128
  (starts.filter fun b => spanFree allocs lo hi b z).min?

/-- `SALLOC` (R189): d is covered by the load scoreboard (R359). -/
def execSalloc (h : Hdr) (d a : Near) (s : State) : Res :=
  irrevocable (.salloc h d a) h s fun w cur act =>
    let z := roundUp ((LaneSet.lowest act).elim 0 fun l => (cur.before.read32 .int a l).toNat) 64
    let (x, s) := match s.blockOf w with
      | none => (0xFFFFFFFF, s)
      | some b => match if z = 0 then none else heapPlace b.allocs b.hstatic b.size z with
        | none => (0xFFFFFFFF, s)
        | some p => (p + 64, { s with blocks := SMap.put s.blocks w.block { b with allocs := b.allocs ++ [(p, z)] } })
    let (w, id) := w.addLoad [nearReg d] act .data
    finish s cur ((w.putLoaded d 4 act (fun _ => x) id).advance cur.pc cur.lanes 0)

/-- `SFREE` (R190). The access kind that its trap reports is a free value: the manual gives none for it. -/
def execSfree (h : Hdr) (a : Near) (s : State) : Res :=
  irrevocable (.sfree h a) h s fun w cur act =>
    let o := (LaneSet.lowest act).elim 0 fun l => (cur.before.read32 .int a l).toNat
    let bad : Trap := { kind := .protection, lane := lowLane act, va := BitVec.ofNat 64 o,
                        akind := (Config.freeValue s.free).toNat % 4, reason := 6 }
    match s.blockOf w with
    | none => trapWord s.fresh cur w act bad
    | some b =>
      if b.allocs.any fun x => x.1 + 64 == o then
        let b := { b with allocs := b.allocs.filter fun x => x.1 + 64 != o }
        finish { s with blocks := SMap.put s.blocks w.block b } cur (w.advance cur.pc cur.lanes 0)
      else trapWord s.fresh cur w act bad

end Sys2Proof.Machine
end

