-- ==== Sys2Proof/Machine/Pages.lean ====
section
/-! DEFINITION. Coherence between this device, its peers and the host (R411 to R427): the page protocol and its recalls,
requests and answers of peers, write-updates of sync pages, CXL. -/
namespace Sys2Proof.Machine

/-! ### Pages (R416 to R419) -/

/-- The lines of a page by its global number. -/
def linesOf (gpage : Nat) : List Nat := (List.range 32).map fun k => gpage * 32 + k

/-- Every line of a page leaves every L1 of this device. -/
def State.dropPage (s : State) (gpage : Nat) : State := (linesOf gpage).foldl State.dropLine s

/-- Sets the state of a page of this device, used now (R416). -/
def State.putPage (s : State) (page : Nat) (st : PageState) : State :=
  let now := s.pages.foldl (fun n p => max n p.2.used) 0 + 1
  { s with pages := SMap.put s.pages page { state := st, used := now } }

/-- The least recently used page that is not Local is recalled (R416). -/
def State.recallOldest (s : State) : State :=
  let oldest := s.pages.foldl (fun (best : Option (Nat × Page)) p => match best with
    | none => some p
    | some b => if p.2.used < b.2.used then some p else some b) none
  match oldest with
  | none => s
  | some (n, p) => s.startRecall n p.state.holders none false

/-- `PG_CFG`.lend (R420). -/
def State.lends (s : State) : Bool := (s.reg 0x2400 0x80000000).getLsbD 31

/-- What a remote request to a page gives: it may be served in the state, or waits in it. -/
inductive PageAct where
  | go (s : State)
  | wait (s : State)

/-- A page that is Local takes an entry of the page-state cache: beyond 65,536 of them the oldest one goes first (R416). -/
def State.newPage (s : State) (page : Nat) (st : PageState) : PageAct :=
  if 65536 ≤ s.pages.length then .wait s.recallOldest else .go (s.putPage page st)

/-- The row of R417 for a request from device `e` to a page of this device, `sync` for a sync page. A write that is performed here makes
the page Local, so its sender gives its lines back too. -/
def State.pageStep (s : State) (e page : Nat) (req : PageReq) (sync : Bool) : PageAct :=
  let gpage := s.self * 2 ^ 36 + page
  let loan := s.lends && !sync
  if s.recalls.any fun r => r.page = page then .wait s
  else match (SMap.get? s.pages page).map (fun (p : Page) => p.state), req with
    | none, .read => s.newPage page (.shared [e])
    | some (.shared xs), .read => .go (s.putPage page (.shared (if xs.contains e then xs else xs ++ [e])))
    | some (.lent d), .read => .go (s.putPage page (.lent d))
    | none, .write => if loan then (s.dropPage gpage).newPage page (.lent e) else .go s
    | some (.shared xs), .write =>
      let rest := xs.erase e
      if !rest.isEmpty then .wait (s.startRecall page rest none false)
      else if loan then .go ((s.dropPage gpage).putPage page (.lent e))
      else .go (s.startRecall page [e] none false)
    | some (.lent d), .write =>
      if d = e || !loan then .go (s.putPage page (.lent d)) else .wait (s.startRecall page [d] none false)
    | none, .atomic => .go s
    | some (.shared xs), .atomic =>
      let rest := xs.erase e
      if rest.isEmpty then .go s else .wait (s.startRecall page rest none false)
    | some (.lent d), .atomic => .go (s.putPage page (.lent d))

/-- `PAGE_REQUEST` (R417): a remote request to a page changes its state, after the recall that it needs. -/
def execPageRequest (dev page : Nat) (req : PageReq) (s : State) : Res :=
  match s.pageStep dev page req ((linesOf (s.self * 2 ^ 36 + page)).any s.lineSync) with
  | .go s => .next s
  | .wait s =>
    let r := (dev, req)
    .next { s with recalls := s.recalls.map fun x => if x.page = page && x.then_.isNone then { x with then_ := some r } else x }

/-! ### Requests of peers (R415, R417, R418) -/

/-- An answer of this device to a peer. -/
def State.answer (s : State) (dev : Nat) (m : PeerMsg) : State := s.sendMsg 192 dev true false m

/-- A request is passed on to the device that serves it, in its origin's name. -/
def State.passOn (s : State) (src dev : Nat) (m : PeerMsg) : State :=
  let x := Config.encodeMsg m
  s.enqueue dev { flit := { s.newFlit 1 dev 0 x.1 x.2 with src := src }, core := 192, draw := true, ack := .none }

/-- The device that has line duty for a line of this device's memory, where it is another one. -/
def State.lentTo (s : State) (line : Nat) : Option Nat :=
  match s.pageState (line * 128) with
  | some (.lent d) => some d
  | _ => none

/-- The core whose allowance the write-back of a borrowed line draws (R349): the one whose L1 holds it. -/
def State.writerOf (s : State) (line : Nat) : Nat := (s.coresWith line).headD 192

/-- Every line of a page leaves this device for a recall (R419): dirty lines are written back first; a line in service here for an
accepted store stays until that is performed. What was asked for before is not kept when it comes. -/
def State.surrender (s : State) (gpage : Nat) : State :=
  let loan := (SMap.get? s.loans gpage).isSome
  let dirty := (linesOf gpage).filter fun n => match SMap.getD s.held n .i with | .e | .m => true | _ => false
  let s := if loan then
      dirty.foldl (fun s n => s.sendMsg (s.writerOf n) (gpage / 2 ^ 36) true true (.writeBack n (s.lineBytes n))) s
    else s
  let gone := (linesOf gpage).filter fun n => loan || !dirty.contains n
  let late := gone.filter fun n => (s.wanted.any fun r => r.1 = n) && !s.voided.contains n
  let s := gone.foldl State.dropLine s
  { s with loans := SMap.del s.loans gpage, voided := s.voided ++ late, lendFor := s.lendFor.filter fun x => x.1 != gpage }

/-- A store of a unit of this device, or a warp whose word has not issued since, for which the page was lent (R419). -/
def State.lendOwed (s : State) (gpage : Nat) : Bool :=
  (s.lendFor.any fun x => x.1 = gpage && match SMap.get? s.warps x.2.1 with
    | none => false
    | some w => w.halt.isNone && w.issues = x.2.2) ||
  (s.peerWait.any fun x => x.src = s.self && match x.msg with | .store pa _ _ => pa / 4096 = gpage | _ => false) ||
  s.warps.any fun w => w.2.buffered.any fun e => match e.loc with | .mem pa => pa / 4096 = gpage | _ => false

/-- The loan of a page may be taken back: the request that caused it has been performed, or none is left (R419). -/
def State.mayRecall (s : State) (gpage : Nat) : Bool := (SMap.get? s.loans gpage).all id || !s.lendOwed gpage

/-- A recall of a page reaches this device (R419): it answers at once, or first performs what the page was lent for and asks the other
devices, and for a page of its own the host, for the lines that they read through it; true once it has answered. -/
def State.givePage (s : State) (gpage dev : Nat) : State × Bool :=
  let own : Bool := gpage / 2 ^ 36 = s.self
  let kept := (linesOf gpage).filter s.hostKeeps
  if own && !kept.isEmpty then
    (kept.foldl (fun s n => [n * 128, n * 128 + 64].foldl (fun s pa =>
      if s.hostHolds pa == .i || s.backInv.contains (pa % 2 ^ 48 / 64, true) then s
      else { s with backInv := s.backInv ++ [(pa % 2 ^ 48 / 64, true)] }) s) s, false)
  else if !own && !s.mayRecall gpage then (s, false)
  else if !own && ((linesOf gpage).any s.hubBit) then (s.startRecall (2 ^ 40 + gpage) s.others none false, false)
  else ((s.surrender gpage).answer dev (.recallAck gpage), true)

/-- A context had blocks on a device that is lost: its live domain objects whose home is here stop with status 4 (R314). -/
def State.stopDomain (s : State) (ctx : Nat) : State :=
  ((s.objs.filter fun o => o.2.domain && o.2.live && o.2.ctx = ctx && o.2.home = s.self).map (·.1)).foldl (fun s n => s.stopObj n 4) s

/-- A context is known to have had blocks on a device (R314). -/
def State.noteRuns (s : State) (dev ctx : Nat) : State :=
  if s.ctxDevs.contains (dev, ctx) then s else { s with ctxDevs := s.ctxDevs ++ [(dev, ctx)] }

/-- A declaration of a peer reaches this device (R300, R302): its home makes the object live, the others learn of it. -/
def State.peerDeclares (s : State) (src ctx : Nat) (d : Decl) (home : Nat) (statusVa : Option Nat) (statusAt : Option (Nat × Loc))
    (inst : Option Nat) : State × Bool :=
  let s := s.noteRuns src ctx
  if s.objs.any fun o => o.2.ctx = ctx && o.2.decl.target = d.target && o.2.live then (s, true)
  else if home = s.self && s.tableFull then (s, false)
  else
    let n := SMap.fresh s.objs
    let o := { newObj d ctx false home true 192 0 statusVa statusAt none with instOf := inst.map fun i => (src, i) }
    ((s.setObj n o).releaseHeld n, true)

/-- An object is over (R202): at its home or at the device that declared it. A device whose plan instance broke has its home stop it. -/
def State.retired (s : State) (src ctx target : Nat) : State :=
  (s.objs.filter fun o => o.2.ctx = ctx && o.2.decl.target = target).foldl (fun s o =>
    if o.2.home != s.self then s.eraseObj o.1
    else if o.2.instOf.any fun i => i.1 = src then s.freeObj o.1
    else s) s

/-- The atomic lanes of one message act here, one after another (R80, R194): the old values, and what each of them wrote. A compare
that does not swap takes the line all the same (R197). -/
def State.atomAll (s : State) (size : Nat) (sync : Bool) : List AtomReq → State × List (Nat × Nat) × List (Nat × List Byte)
  | [] => (s, [], [])
  | r :: rest =>
    let old := leNat (s.bytesAt r.loc size)
    let new := atomApply r.code r.m size old r.x r.y
    let s := match new with
      | none => if sync then s else (s.dirTake r.loc.lineNo none).trigger none (.line r.loc.lineNo)
      | some v => if sync then s.writeEvent none r.loc (bytesLE size v) true else s.unitWrite r.loc (bytesLE size v)
    let (s, olds, puts) := s.atomAll size sync rest
    (s, (r.lane, old) :: olds, (new.toList.map fun v => (r.loc.flat.2, bytesLE size v)) ++ puts)

/-- Old values of a remote atomic come back (R197, R198); the word's lanes behind them act next (R80), and the last one releases
the mark. -/
def State.landOld (s : State) (line core slot load : Nat) (values : List (Nat × Nat)) : State :=
  let s := { s with away := s.away.erase line }.wakeLine (.line line)
  match s.warp core slot with
  | none => s
  | some w =>
    match w.load? load with
    | some ld => match ld.kind with
      | .remote size away rest =>
        let w := w.deliver ld (Lanes.ofFn fun l => values.any fun v => v.1 = l.val) fun l => ((values.find? fun v => v.1 = l.val).map (·.2)).getD 0
        let left := away - values.length
        let s := s.setWarp core slot (if left = 0 && rest.isEmpty then w.release ld.id
          else { w with loads := w.loads.map fun x => if x.id = ld.id then { x with kind := .remote size left rest } else x })
        s.atomGo core slot load
      | _ => s
    | none => s

/-- A peer's atomics to one line act at the slice that has duty for it (R197, R198); on a sync line what they wrote is then sent as
an update (R415). -/
def State.serveAtomic (s : State) (src size line core slot load : Nat) (lanes : List AtomReq) (known : Bool) : State :=
  let sync := known || s.lineSync line
  let (s, olds, puts) := s.atomAll size sync lanes
  let s := if sync then s.sendResult line puts else s
  if 192 ≤ core then s
  else if src = s.self then s.landOld line core slot load olds
  else s.answer src (.old line core slot load olds)

/-- The slice accepts a peer's store to a line (R417, R418): the line is in service until the store is performed or given up. -/
def State.acceptStore (s : State) (src line : Nat) : State :=
  let s := s.dropCopies line
  ({ s with updates := SMap.put s.updates line { core := 256 + src, slot := 0, win := 0, owed := [], data := [], hold := some false } } :
    State).answer src (.accepted line (s.lineBytes line))

/-- The page of a peer's write is a sync page, as its sender translates it. -/
def PeerMsg.isSync : PeerMsg → Bool
  | .store _ _ sync | .atomic _ _ _ _ _ sync => sync
  | _ => false

/-- A request to a line of this device's own memory; false: it waits. A store or an atomic of the device that has the page on loan goes
back to it, with the line where the store caused the loan, and acts there (R417). -/
def State.serveHome (s : State) (src : Nat) (m : PeerMsg) (line : Nat) (req : PageReq) : State × Bool :=
  let was := s.lentTo line
  if (SMap.get? s.updates line).isSome then (s.askBack line, false)
  else match s.hostBlocks line (req != .read) with
    | some s => (s, false)
    | none =>
      match s.pageStep src (line % 2 ^ 41 / 32) req (m.isSync || s.lineSync line) with
      | .wait s => (s, false)
      | .go s =>
        match s.lentTo line, m with
        | some d, _ =>
          if d != src then (s.passOn src d m, true)
          else match m with
            | .read n => (s.answer src (.data n .e (s.lineBytes n)), true)
            | .write n =>
              let s := s.dropLine n
              (s.answer src (.data n .m (s.lineBytes n)), true)
            | .store .. =>
              let s := if was = some src then s else s.answer src (.data line .m (s.lineBytes line))
              (s.passOn src src m, true)
            | _ => (s.passOn src src m, true)
        | none, .read n =>
          let s := s.dirRead 192 n true
          (s.answer src (.data n .s (s.lineBytes n)), true)
        | none, .write n => (s.acceptStore src n, true)
        | none, .store pa bs sync => (s.unitWrite (.mem pa) bs sync, true)
        | none, .atomic size lanes core slot load sync => (s.serveAtomic src size line core slot load lanes sync, true)
        | none, _ => (s, true)

/-- A request to a line of a page that this device borrowed (R417); false: it waits. -/
def State.serveLent (s : State) (src : Nat) (m : PeerMsg) (line : Nat) (req : PageReq) : State × Bool :=
  let loc : Loc := .mem (line * 128)
  if (SMap.get? s.loans (line / 32)).isNone then (s.passOn src (line / 2 ^ 41) m, true)
  else if (SMap.get? s.updates line).isSome then (s.askBack line, false)
  else if req = .read then
    if !s.readable loc then ((s.request 192 0 loc false).1, false)
    else
      let s := if s.heldState loc == .m then s.sendMsg (s.writerOf line) (line / 2 ^ 41) true true (.writeBack line (s.lineBytes line)) else s
      let d := s.dirLine line
      let s := { s with held := SMap.put s.held line .s }
      let s := s.setDir line { d with st := .s, holders := if d.holders.contains 192 then d.holders else d.holders ++ [192] }
      (s.answer src (.data line .s (s.lineBytes line)), true)
  else if !s.writable loc then ((s.request 192 0 loc true).1, false)
  else match m with
    | .store pa bs sync => (s.unitWrite (.mem pa) bs sync, true)
    | .write n => (s.acceptStore src n, true)
    | .atomic size lanes core slot load sync => (s.serveAtomic src size line core slot load lanes sync, true)
    | _ => (s, true)

/-- A request to a line, wherever its home is. -/
def State.serveLine (s : State) (src : Nat) (m : PeerMsg) (line : Nat) (req : PageReq) : State × Bool :=
  if line / 2 ^ 41 = s.self then s.serveHome src m line req else s.serveLent src m line req

/-- A peer's accepted stores or update to a line take their places (R415, R418), at the slice that has duty for the line. -/
def State.serveCommit (s : State) (src line : Nat) (stores : List (Nat × List Byte)) : State :=
  match SMap.get? s.updates line with
  | some u =>
    if u.core != 256 + src then s
    else (stores.foldl (fun s x => s.writeEvent none (.mem x.1) x.2 u.hold.isNone) s).endUpdate line
  | none => match (if line / 2 ^ 41 = s.self then s.lentTo line else none) with
    | some d => s.passOn src d (.commit line stores)
    | none => s

/-- A peer gives up the stores that were accepted, or its update, of a line (R415, R418); an update that still waits here is gone. -/
def State.serveCancel (s : State) (src line : Nat) : State :=
  let waits := s.peerWait.filter fun x => x.src = src && match x.msg with
    | .update n stores => n = line && !stores.isEmpty
    | _ => false
  if !waits.isEmpty then
    waits.foldl (fun s x => s.rxDone x.rx) { s with peerWait := s.peerWait.filter fun x => !waits.contains x }
  else match SMap.get? s.updates line with
  | some u => if u.core = 256 + src then s.endUpdate line else s
  | none => match (if line / 2 ^ 41 = s.self then s.lentTo line else none) with
    | some d => if d = src then s else s.passOn src d (.update line [])
    | none => s

/-- A slice asks an accepted line back: this device gives it up, or will when the acceptance arrives. -/
def State.giveBackLine (s : State) (line : Nat) : State :=
  if s.writable (.mem (line * 128)) && (SMap.get? s.loans (line / 32)).isNone then
    (s.dropLine line).answer (line / 2 ^ 41) (.update line [])
  else if s.wanted.contains (line, true) then { s with revoked := s.revoked ++ [line] }
  else s

/-- An update of this device waits at its home while that has another one in service (R415). -/
def State.queueUpdate (s : State) (line : Nat) : State :=
  match SMap.get? s.updates line with
  | none => s
  | some u => { s with updates := SMap.put (SMap.del s.updates line) (queuedKey line) u }

/-- Serves a request of a peer (R415 to R419); false: it waits its turn (R414). -/
def State.serveMsg (s : State) (src : Nat) (m : PeerMsg) : State × Bool :=
  match m with
  | .read line => s.serveLine src m line .read
  | .write line => s.serveLine src m line .write
  | .store pa _ _ => s.serveLine src m (pa / 128) .write
  | .atomic _ lanes _ _ _ _ => s.serveLine src m ((lanes.head?).elim 0 fun r => r.loc.lineNo) .atomic
  | .writeBack line bs => ((s.markDirty (line * 128) bs.length).putBytes (.mem (line * 128)) bs, true)
  | .commit line stores => (s.serveCommit src line stores, true)
  | .revoke line => (s.giveBackLine line, true)
  | .update line stores =>
    let mine : Bool := line / 2 ^ 41 = src && (SMap.get? s.updates line).any fun u => u.core < 256 && u.owed = [256 + src]
    if stores.isEmpty then (s.serveCancel src line, true)
    else if (SMap.get? s.updates line).isSome && !mine then (s.askBack line, false)
    else if line / 2 ^ 41 = s.self then
      match s.hostBlocks line true with
      | some s => (s, false)
      | none =>
        let devs := (s.sharers line).erase src
        let owed := s.coresWith line ++ devs.map (256 + ·)
        (s.acceptUpdate line { core := 256 + src, slot := 0, win := 0, owed := owed, data := stores, hold := none } devs none stores, true)
    else ((if mine then s.queueUpdate line else s).acceptUpdate line { core := 256 + src, slot := 0, win := 0, owed := s.coresWith line, data := stores, hold := none } []
      none stores, true)
  | .recall gpage => s.givePage gpage src
  | .declare ctx d home va at_ inst => s.peerDeclares src ctx d home va at_ inst
  | .rootLine i => (s.advanceCtr i 1 1, true)
  | .runs ctx => (s.noteRuns src ctx, true)
  | .poke loc bs => if s.writable loc then (s.writeEvent none loc bs, true) else ((s.request 192 0 loc true).1, false)
  | .place launch va record ctx block core => s.placeHere src launch va record ctx block core
  | .ended launch block => (s.remoteEnded launch block, true)
  | .triggered launch block => (s.remoteTriggered launch block, true)
  | .lost ctx => (s.stopDomain ctx, true)
  | .barOpen home n mask => (s.barOpened src home n mask, true)
  | .barPoison home n mask => (s.barPoisoned src home n mask, true)
  | .barDone home n mask => (s.barEnded src home n mask, true)
  | .retire ctx target => (s.retired src ctx target, true)
  | _ => (s, true)

/-- A message that is served is acknowledged (R341); a pair that goes on is acknowledged later (R351). -/
def State.serveHold (s : State) (x : PeerHold) : State × Bool :=
  match x.msg with
  | .bulk pa bs core cnt nc =>
    match s.bulkWrite pa bs core cnt nc with
    | (s, true) => (s.rxDone x.rx, true)
    | (s, false) => (s, false)
  | .pair route bs => s.servePair x.rx route bs
  | .entry e =>
    let s := s.noteRuns x.src e.ctx
    if (s.lull (portLull e.line)).stopped.contains e.ctx then (s, false)
    else match s.accepts (portLull e.line) [e] with
      | none => (s, false)
      | some t => (t.rxDone x.rx, true)
  | m =>
    match s.serveMsg x.src m with
    | (s, true) => (s.rxDone x.rx, true)
    | (s, false) => (s, false)

/-- The line that a request of a peer asks for (R414); what ends the service of a line asks for none. -/
def PeerMsg.asks : PeerMsg → Option Nat
  | .read n | .write n => some n
  | .store pa _ _ => some (pa / 128)
  | .atomic _ lanes _ _ _ _ => (lanes.head?).map fun r => r.loc.lineNo
  | .update n stores => if stores.isEmpty then none else some n
  | _ => none

/-- The request stands behind another one of the same line (R414). -/
def PeerHold.behind (x : PeerHold) (waiting : List PeerHold) : Bool :=
  x.msg.asks.isSome && waiting.any fun y => y.msg.asks = x.msg.asks

/-- The waiting requests of peers are tried again, in order of arrival; a later one for the same line stays behind. -/
def State.servePeers (s : State) : List PeerHold → List PeerHold → State
  | [], kept => { s with peerWait := kept }
  | x :: rest, kept =>
    if x.behind kept then s.servePeers rest (kept ++ [x])
    else match s.serveHold x with
    | (s, true) => s.servePeers rest kept
    | (s, false) => s.servePeers rest (kept ++ [x])

/-- Everything that waited for a line, a page or room is tried again: peers' requests, owed launch writes, roots, arrivals. -/
def State.retryAll (s : State) : State :=
  let s := (s.servePeers s.peerWait []).landPrefs
  let s := (s.launches.map fun p => (p.1, p.2.writes.length + 1)).foldl (fun s p => s.pumpWrites p.1 p.2) s
  let s := ((s.lulls.map (·.1)).foldl State.flushRoots s).pumpStatus
  s.pumpHeld

/-- A message of a peer is served, or waits its turn (R414). One that ends the service of a line lets what waits for it go on. -/
def State.takeMsg (s : State) (x : PeerHold) : State :=
  if x.behind s.peerWait then { s with peerWait := s.peerWait ++ [x] }
  else match s.serveHold x with
  | (s, true) => match x.msg with
    | .commit _ _ | .update _ _ => s.retryAll
    | _ => s
  | (s, false) => { s with peerWait := s.peerWait ++ [x] }

/-! ### Answers of peers -/

/-- A sharer has acknowledged the first phase of the update of a line (R415). -/
def State.ackUpdate (s : State) (line sharer : Nat) : State :=
  let owes := fun (k : Nat) => (SMap.get? s.updates k).any fun u => u.owed.contains sharer
  let key := if owes line then line else queuedKey line
  match SMap.get? s.updates key with
  | none => s
  | some u =>
    let u := { u with owed := u.owed.erase sharer }
    let s := { s with updates := SMap.put s.updates key u }
    let s := match s.warp u.core u.slot with
      | none => s
      | some w => s.setWarp u.core u.slot { w with windows := w.windows.map fun (x : Window) =>
          if x.serial = u.win then { x with updates := x.updates.map fun (e : Nat × List Nat) => if e.1 = line then (line, u.owed) else e } else x }
    s.finishUpdate line u

/-- A device has given back a page (R419): with the last one the home records the new state and serves what waited. -/
def State.ackRecall (s : State) (dev gpage : Nat) : State :=
  let key := if gpage / 2 ^ 36 = s.self then gpage % 2 ^ 36 else 2 ^ 40 + gpage
  match s.recalls.find? fun r => r.page = key && r.owed.contains dev with
  | none => s
  | some r =>
    let owed := r.owed.erase dev
    if !owed.isEmpty then { s with recalls := s.recalls.map fun x => if x.page = key then { x with owed := owed } else x }
    else
      let s := { s with recalls := s.recalls.filter fun x => x.page != key }
      let home : Bool := key < 2 ^ 40
      let kept := match (SMap.get? s.pages key).map (fun (p : Page) => p.state) with
        | some (.shared xs) => xs.filter fun x => !r.devs.contains x
        | _ => []
      let s := if !home || kept.isEmpty then
          (linesOf gpage).foldl (fun s n =>
            let d := s.dirLine n
            if d.holders.contains 192 then s.setDir n { d with holders := d.holders.filter (· != 192) } else s) s
        else s
      let s := if !home then s
        else if kept.isEmpty then { s with pages := SMap.del s.pages key }
        else
          let s := s.putPage key (.shared kept)
          if r.driver then s.startRecall key kept none true else s
      let s := match r.then_ with
        | some (e, req) => match s.pageStep e key req ((linesOf gpage).any s.lineSync) with
          | .go s => s
          | .wait s => s
        | none => s
      ((linesOf gpage).foldl (fun s n => s.wakeLine (.line n)) s).retryAll

/-- A line that was asked for is here: the requests for it are over and the warps that wait for it go on. -/
def State.landLine (s : State) (loc : Loc) (grant : CxlState) : State :=
  let key := heldKey loc
  let s := { s with
    held := SMap.put s.held key grant
    wanted := s.wanted.filter fun r => r.1 != key || (r.2 && grant != .e && grant != .m) }
  match loc.gran with
  | none => s
  | some g => s.wakeLine g

/-- A slice accepted a store of this device to a line (R418): the line is held writable. An acceptance that was asked back before it arrived is given up, and is asked for again. -/
def State.landAccepted (s : State) (line : Nat) (bs : List Byte) : State :=
  let loc : Loc := .mem (line * 128)
  if s.revoked.contains line then
    ({ s with revoked := s.revoked.erase line, wanted := s.wanted.erase (line, true) }.answer (line / 2 ^ 41)
      (.update line [])).wakeLine (.line line)
  else
    ((s.putBytes loc bs).landLine loc .e).retryAll

/-- Delivers an answer of a peer. A line whose page was recalled before it came, or to which a write of this device is under way, is
not kept: it is asked for again. -/
def State.landMsg (s : State) (src : Nat) (m : PeerMsg) : State :=
  match m with
  | .data line grant bs =>
    let away : Bool := line / 2 ^ 41 != s.self
    let loan : Bool := away && (grant = .e || grant = .m)
    if s.voided.contains line || (!loan && s.away.contains line) then
      ({ s with voided := s.voided.erase line, wanted := s.wanted.filter fun r => r.1 != line }.wakeLine (.line line)).retryAll
    else
      let s := s.putBytes (.mem (line * 128)) bs
      let waits := (s.warps.filter fun e => e.2.wait == some (.line (.line line))).map fun e => (line / 32, e.1, e.2.issues)
      let s := if loan && (SMap.get? s.loans (line / 32)).isNone then
          { s with loans := SMap.put s.loans (line / 32) false, lendFor := s.lendFor ++ waits }
        else s
      let s := if (SMap.get? s.updates line).any fun u => away && 256 ≤ u.core then s.freeLine line else s
      (s.landLine (.mem (line * 128)) grant).retryAll
  | .accepted line bs => s.landAccepted line bs
  | .old line core slot load values => s.landOld line core slot load values
  | .updateAck line => s.ackUpdate line (256 + src)
  | .update _ _ => (s.serveMsg src m).1.retryAll
  | .recallAck gpage => s.ackRecall src gpage
  | _ => (s.serveMsg src m).1

/-! ### The events of the directories (R411 to R415) -/

/-- `DIRECTORY_REQUEST` (R413): the slice that has duty for a line (R416) serves one core's request for it while it is not in service. A
core's own request takes nothing from its own windows (R325), an L1 never evicts a line that a window pins and has a way for one that
it fills (R322), and no core asks for a line of a sync page to write it (R415). -/
def execDirectoryRequest (core line : Nat) (req : DirReq) (s : State) : Res :=
  let loc : Loc := .mem (line * 128)
  let other : Loc := .mem (line * 128 + 64)
  let fill := fun (t : L1Tag) => { t.fill 3 with valid := true }
  if !s.hasDuty line then notDue s
  else match req with
    | .evict =>
      if (s.pinned core).contains line then notDue s else .next ((s.dirEvict core line).tagLines core [line] L1Tag.left)
    | .read =>
      if s.readable loc && s.readable other && (s.noWay core [line]).isNone then
        .next ((s.dirRead core line (s.lineSync line)).tagLines core [line] fill)
      else notDue s
    | .write =>
      if s.writable loc && s.writable other && s.readable loc && !s.lineSync line && (s.noWay core [line]).isNone then
        .next ((s.dirWrite core line none).tagLines core [line] fill)
      else notDue s
    | .atomic =>
      if s.writable loc && s.writable other && s.readable loc then .next ((s.dirTake line none).trigger none (.line line))
      else notDue s

/-- `SYNC_UPDATE` (R415): the oldest window of a warp, which could commit but for its updates, sends the one of a line. -/
def execSyncUpdate (core slot line : Nat) (s : State) : Res :=
  match s.warp core slot with
  | none => notDue s
  | some w =>
    match w.windows with
    | [] => notDue s
    | x :: _ =>
      let due : Bool := (x.isClosed || x.steady) && w.released x.serial && (s.unwritable core x).isNone &&
        x.syncLines.contains line && !(x.updates.any fun u => u.1 = line)
      if !due || (SMap.get? s.updates line).isSome then notDue s
      else
        match s.openUpdate core slot x.serial line (x.storesTo line) with
        | (s, none) => .next s
        | (s, some owed) => match s.warp core slot with
          | none => .next s
          | some w => .next (s.setWarp core slot { w with windows := w.windows.map fun y =>
              if y.serial = x.serial then { y with updates := y.updates ++ [(line, owed)] } else y })

/-- `SYNC_UPDATE_ACK` (R415): a sharer of this device has acknowledged. -/
def execSyncUpdateAck (line sharer : Nat) (s : State) : Res :=
  match SMap.get? s.updates line with
  | none => notDue s
  | some u => if u.owed.contains sharer then .next (s.ackUpdate line sharer) else notDue s

/-- `PAGE_RECALL` (R419): the home device of a page that this device holds takes it back; the page by its global number. -/
def execPageRecall (page : Nat) (s : State) : Res :=
  if page / 2 ^ 36 = s.self then notDue s else .next (s.givePage page (page / 2 ^ 36)).1

/-- `RECALL_ACK` (R419): a holder's acknowledgement arrives. -/
def execRecallAck (dev page : Nat) (s : State) : Res :=
  let key := if page / 2 ^ 36 = s.self then page % 2 ^ 36 else 2 ^ 40 + page
  if s.recalls.any fun r => r.page = key && r.owed.contains dev then .next (s.ackRecall dev page) else notDue s

/-- `DRIVER_RECALL` (R420): a write of `PG_RECALL`; ignored while one runs. -/
def execDriverRecall (value : DWord) (s : State) : Res :=
  let page := bits value.toNat 12 36
  if s.recalls.any (·.driver) then .next s
  else match (SMap.get? s.pages page).map (fun (p : Page) => p.state) with
    | none => .next s
    | some p =>
      if s.recalls.any fun r => r.page = page then
        .next { s with recalls := s.recalls.map fun r => if r.page = page then { r with driver := true } else r }
      else .next (s.startRecall page p.holders none true)

/-! ### The host (R422 to R427) -/

/-- The host's state of a sector of a local line, which it keeps in the directory entry of the line (R412, R424). -/
def State.setHostSec (s : State) (pa : Nat) (st : CxlState) : State :=
  let k := pa % 2 ^ 48 / 64
  let line := s.self * 2 ^ 41 + k / 2
  let s : State := { s with hostSec := if st == .i then SMap.del s.hostSec k else SMap.put s.hostSec k st }
  s.setDir line (s.dirLine line)

/-- Sectors of a local line leave every L1; the copies of its other sector stay (R424). A rollback trigger (R325). -/
def State.takeSectors (s : State) (line mask : Nat) : State :=
  let d := s.dirLine line
  let cores := (s.coresWith line ++ d.holders.filter (· < 192)).eraseDups
  let s := cores.foldl (fun s c => s.tagLines c [line] fun t => t.takenPart mask) s
  let left := d.holders.filter fun c => 192 ≤ c || (s.tag c line).valid
  (s.setDir line { d with st := if left.isEmpty then CxlState.i else d.st, holders := left }).trigger none (.line line)

/-- `HOST_MEM_REQUEST` (R424): a request for one sector; outside the window, or with mem = 0, it is answered with an error and
has no effect; a line in service makes it wait, a back-invalidate of either of its sectors among the services (R425). While the host
keeps a sector in S no core writes it, whatever the state of the line: that is the downgrade of a core's permission to the sector. -/
def execHostMemRequest (op : HostMemOp) (pa : Nat) (s : State) : Res :=
  let a := s.self * 2 ^ 48 + pa % 2 ^ 48 / 64 * 64
  let line := a / 128
  let page := a % 2 ^ 48 / 4096
  let mask := a / 64 % 2 + 1
  let write := match op with
    | .readCurrent | .readShared => false
    | _ => true
  if !(s.reg 0x2500 0).getLsbD 30 || !s.inWindow pa then .next s
  else if (SMap.get? s.updates line).any fun u => u.hold = some false then .next (s.askBack line)
  else if s.busyLine line then notDue s
  else match (SMap.get? s.pages page).map (fun (p : Page) => p.state) with
    | some (.lent d) =>
      if write then .next (s.startRecall page [d] none false)
      else if s.heldState (.mem a) == .i then .next (s.request 192 0 (.mem a) false).1
      else match op with
        | .readShared => .next (s.setHostSec a .s)
        | _ => .next s
    | some (.shared xs) =>
      if write then .next (s.startRecall page xs none false)
      else match op with
        | .readShared => .next (s.setHostSec a .s)
        | _ => .next s
    | none =>
      match op with
      | .readCurrent => .next s
      | .readShared => .next (s.setHostSec a .s)
      | .readOwn | .inv => .next ((s.takeSectors line mask).setHostSec a .e)
      | .write bs =>
        if bs.length != 64 then notDue s
        else .next ((((s.markDirty a 64).putBytes (.mem a) bs).takeSectors line mask).setHostSec a .i)

/-- A host sector leaves this device; the other sector of its line stays where it is (R423). -/
def State.dropSector (s : State) (sector : Nat) : State :=
  let line := sector / 2
  let cores := s.coresWith (2 ^ 45 + line)
  let s := cores.foldl (fun s c => s.tagLines c [2 ^ 45 + line] fun t => t.takenPart (sector % 2 + 1)) s
  { s with held := SMap.del s.held (2 ^ 46 + sector) }.trigger none (.host line)

/-- The host agent evicts a sector with CleanEvict or DirtyEvict (R421): no window pins its line (R322); the read counts of its copies
are lost (R77). -/
def State.evictSector (s : State) (sector : Nat) : State :=
  let key := 2 ^ 45 + sector / 2
  let cores := s.coresWith key
  if cores.any fun c => (s.pinned c).contains key then s
  else
    let s := cores.foldl (fun s c => s.tagLines c [key] fun t =>
      let lacks := t.lacks ||| (sector % 2 + 1)
      if lacks = 3 then { t.left with lacks := 0 } else { t with readCount := 0, lacks := lacks }) s
    { s with held := SMap.del s.held (2 ^ 46 + sector) }

/-- `HOST_SNOOP` (R423): a snoop that invalidates a sector or takes its data takes every copy; `SnpCur` changes nothing. -/
def execHostSnoop (kind : Snoop) (sector : Nat) (s : State) : Res :=
  match kind with
  | .cur => .next s
  | .data | .inv => .next (s.dropSector sector)

/-- `BACK_INVALIDATE_RESPONSE` (R424, R425): the host gives up a sector, or keeps it in S, with its modified data. -/
def execBackInvalidateResponse (sector : Nat) (data : Option (List Byte)) (s : State) : Res :=
  let a := s.self * 2 ^ 48 + sector * 64
  match s.backInv.find? fun r => r.1 = sector with
  | none => notDue s
  | some r =>
    let s := { s with backInv := s.backInv.filter fun x => x.1 != sector }
    let s := match data with
      | none => s
      | some bs => (s.markDirty a bs.length).putBytes (.mem a) bs
    .next (((s.setHostSec a (if r.2 then .i else .s)).wakeLine (.line (a / 128))).retryAll)

/-- `CXL_CACHE_RESPONSE` (R423): the host agent takes a sector that it asked for; one asked for to be written that is granted
in E becomes M at once. -/
def execCxlCacheResponse (sector : Nat) (grant : CxlState) (data : List Byte) (s : State) : Res :=
  if grant = .i || !(s.wanted.any fun r => r.1 = 2 ^ 46 + sector) then notDue s
  else
    let s := if data.length = 64 then s.putBytes (.host (sector * 64)) data else s
    let owned := grant == .e && s.wanted.any fun r => r.1 = 2 ^ 46 + sector && r.2
    .next ((s.landLine (.host (sector * 64)) (if owned then .m else grant)).retryAll)

/-- A bit of `BU_READY` changes: MSI-X vector 4 (R429). -/
def State.setReady (s : State) (bit : Nat) (on : Bool) : State :=
  let r := s.reg 0x30000 0
  if r.getLsbD bit = on then s
  else
    let v := if on then r ||| BitVec.ofNat 64 (2 ^ bit) else r &&& ~~~(BitVec.ofNat 64 (2 ^ bit))
    State.interrupt { s with mmio := SMap.put s.mmio 0x30000 v } 4

/-- The host link goes down (R427): sectors are I, cached host lines are gone, `HX_CTL` says down; a snapshot trigger (R437). -/
def State.linkDown (s : State) : State :=
  let lines := (s.held.filterMap fun e => if 2 ^ 46 ≤ e.1 then some ((e.1 - 2 ^ 46) / 2) else none).eraseDups
  let asked := (s.wanted.filterMap fun e => if 2 ^ 46 ≤ e.1 then some ((e.1 - 2 ^ 46) / 2) else none).eraseDups
  let back := (s.backInv.map fun r => (s.self * 2 ^ 48 + r.1 * 64) / 128).eraseDups
  let kept := (s.hostSec.map fun e => s.self * 2 ^ 41 + e.1 / 2).eraseDups
  let s := { s with
    mmio := SMap.put s.mmio 0x2500 (BitVec.ofNat 64 (2 ^ 28))
    ide := (false, false), hostSec := [], backInv := []
    held := s.held.filter fun e => e.1 < 2 ^ 46
    wanted := s.wanted.filter fun e => e.1 < 2 ^ 46 }
  let s := kept.foldl (fun s n => s.setDir n (s.dirLine n)) s
  let s := lines.foldl (fun s n => s.trigger none (.host n)) s
  let s := asked.foldl (fun s n => s.wakeLine (.host n)) s
  let s := back.foldl (fun s n => s.wakeLine (.line n)) s
  (((s.interrupt 0).setReady 39 false).snapTrigger 5 0 0).retryAll

/-- `HOST_LINK_DOWN` (R427). -/
def execHostLinkDown (s : State) : Res := .next s.linkDown

/-- `HX_CTL_WRITE` (R422, R426): a write that sets cache or mem while ide reads 0 is ignored; down is cleared by a 1. -/
def execHxCtlWrite (value : Word) (s : State) : Res :=
  let ide : Bool := s.ide.1 && s.ide.2
  if !ide && (value.getLsbD 31 || value.getLsbD 30) then .next s
  else
    let down := (s.reg 0x2500 0).getLsbD 28 && !value.getLsbD 28
    let v := bits value.toNat 30 2 * 2 ^ 30 + if down then 2 ^ 28 else 0
    .next { s with mmio := SMap.put s.mmio 0x2500 (BitVec.ofNat 64 v) }

end Sys2Proof.Machine
end

