-- ==== Sys2Proof/Machine/Transfer.lean ====
section
/-! DEFINITION. `XFER` and `XMC` (R241 to R243): their checks at issue, their flits, the part of them on the own device. -/
namespace Sys2Proof.Machine

/-- A pair of uniform registers as 64 bits. -/
def Warp.readSS (w : Warp) (n : Nat) : Nat := (w.readS n).toNat + (w.readS (n + 1)).toNat * 2 ^ 32

/-- First addresses on the 4 KiB pages of a range. -/
def pageStarts (va n : Nat) : List Nat := (List.range ((va + n - 1) / 4096 - va / 4096 + 1)).map fun k => max va ((va / 4096 + k) * 4096)

/-- The physical pages of a transfer's destination: each may be written by the warp (R242, R74). -/
def State.transferPages (s : State) (w : Warp) (core : Nat) : List Nat → Except (Cause × Nat) (List Nat)
  | [] => .ok []
  | va :: rest =>
    let a := va % 2 ^ 64
    let base := s.spbase.toNat
    if 2 ^ 57 ≤ a then .error (.protection 0, a)
    else if base ≤ a && a < base + 2 ^ 20 then .error (.protection 1, a)
    else match s.translate core w.ctx a { mmio := false, host := false } .write w.super with
      | .error c => .error (c, a)
      | .ok loc =>
        match s.transferPages w core rest with
        | .error x => .error x
        | .ok ps => .ok (loc.flat.2 / 4096 * 4096 :: ps)

/-- A misaligned operand of a transfer word: the trap with its address, a free value where no address is at fault (R242). -/
def misalignedAt (act : LaneSet) (va : DWord) (k : Access) : Trap :=
  { kind := .misaligned, lane := lowLane act, va := va, akind := k.code }

/-- An operand that a transfer word rejects. -/
def badOperand (act : LaneSet) : Trap := { kind := .illegalOperand, lane := lowLane act }

/-- The trap of a destination page. -/
def destTrap (act : LaneSet) (c : Cause) (va reason : Nat) : Trap :=
  match c with
  | .misaligned => misalignedAt act (BitVec.ofNat 64 va) .write
  | .pageFault => { kind := .pageFault, lane := lowLane act, va := BitVec.ofNat 64 va, akind := 1 }
  | .poison => { kind := .softError, lane := lowLane act }
  | .table pa => { kind := .pageFault, lane := lowLane act, table := some pa }
  | .protection r => { kind := .protection, lane := lowLane act, va := BitVec.ofNat 64 va, akind := 1, reason := if r = 8 then reason else r }

/-- The trap of a bad length or address (R242, R243). -/
def transferAlign (s : State) (act : LaneSet) (len most src dst : Nat) : Option Trap :=
  if len % 4 != 0 || len < 4 || most < len then some (misalignedAt act (Config.freeValue s.free) .read)
  else if src % 4 != 0 then some (misalignedAt act (BitVec.ofNat 64 src) .read)
  else if dst % 4 != 0 then some (misalignedAt act (BitVec.ofNat 64 dst) .write)
  else none

/-- The checks of an `XFER` word (R241, R242): a trap, or the destination's pages. -/
def State.xferCheck (s : State) (cur : Cur) (w : Warp) (act : LaneSet) : Except Trap (List Nat) :=
  let src := cur.before.readSS 0
  let dst := cur.before.readSS 2
  let len := (cur.before.readS 4).toNat
  let off := (cur.before.readS 5).toNat
  let target := (cur.before.readS 6).toNat
  let nc : Bool := bits target 12 1 = 1
  match transferAlign s act len (2 ^ 31) src dst with
  | some t => .error t
  | none =>
    if bits target 13 19 != 0 || 191 < bits target 4 8 then .error (badOperand act)
    else if !nc && off % 4 != 0 then .error (misalignedAt act (BitVec.ofNat 64 off) .write)
    else if !nc && 2 ^ 20 ≤ off then .error (badOperand act)
    else match s.transferPages w cur.core (pageStarts dst len) with
      | .error (c, va) => .error (destTrap act c va 0)
      | .ok ps =>
        match ps.find? fun p => p / 2 ^ 48 != bits target 0 4 with
        | some _ => .error (destTrap act (.protection 8) dst ((Config.freeValue s.free).toNat % 8))
        | none => .ok ps

/-- The word waits for allowance toward a device (R354); else it draws what its first lane's flits need. -/
def State.needAllowance (s : State) (core dev need : Nat) : Option State :=
  if dev = s.self then some s
  else
    let s := s.addInterest core dev
    if s.allowance core dev < need then none else some ((List.range need).foldl (fun s _ => s.drawAllowance core dev) s)

/-- The warp is becalmed at a transfer word (R354). -/
def State.becalmWord (s : State) (cur : Cur) (w : Warp) (dev need : Nat) : Res :=
  let key := warpKey cur.core cur.slot + if need = 2 then 2 ^ 20 else 0
  .next (((s.addInterest cur.core dev).becalm key dev).holdWord cur w (some (.becalmed dev)))

/-- `XFER` (R241, R242): each lane of `active` enters one transfer. `args` of its entry: length, destination, counter offset,
nc, core, device, then the physical pages of the destination; `mode` 1 where its first flit has drawn its allowance. -/
def execXfer (h : Hdr) (d : Near) (s : State) : Res :=
  irrevocable (.xfer h d) h s fun w cur act =>
    match s.xferCheck cur w act with
    | .error t => trapWord s.fresh cur w act t
    | .ok pages =>
      let target := (cur.before.readS 6).toNat
      let dev := bits target 0 4
      match s.needAllowance cur.core dev 1 with
      | none => s.becalmWord cur w dev 1
      | some s =>
        let args := (cur.before.readS 4).toNat :: cur.before.readSS 2 :: (cur.before.readS 5).toNat :: bits target 12 1 ::
          bits target 4 8 :: dev :: pages
        let first := lowLane act
        let (s, w) := s.addStatusEntries w act d fun l =>
          { blankEntry .xfer 2 cur w with
            addr := BitVec.ofNat 64 (cur.before.readSS 0), args := args, mode := if l.val = first then 1 else 0 }
        finish s cur (w.advance cur.pc cur.lanes 0)

/-- The checks of an `XMC` word (R243): a trap, or the destination's pages. -/
def State.xmcCheck (s : State) (cur : Cur) (w : Warp) (act : LaneSet) : Except Trap (List Nat) :=
  let src := cur.before.readSS 0
  let dst := cur.before.readSS 2
  let len := (cur.before.readS 4).toNat
  let devs := listDevs (cur.before.readSS 6)
  if devs.isEmpty || devs.eraseDups.length != devs.length then .error (badOperand act)
  else if devs.any fun d => !s.present.getLsbD d then .error (destTrap act (.protection 4) dst 0)
  else match transferAlign s act len 224 src dst with
    | some t => .error t
    | none =>
      match s.transferPages w cur.core (pageStarts dst len) with
      | .error (c, va) => .error (destTrap act c va 0)
      | .ok ps => .ok ps

/-- `XMC` (R243): each lane of `active` enters one multicast. `args` of its entry: length, local destination
address, list, local address of the second page that the destination reaches, virtual destination address. -/
def execXmc (h : Hdr) (d : Near) (s : State) : Res :=
  irrevocable (.xmc h d) h s fun w cur act =>
    match s.xmcCheck cur w act with
    | .error t => trapWord s.fresh cur w act t
    | .ok pages =>
      let list := cur.before.readSS 6
      let dev := (listDevs list).headD 0
      match s.needAllowance cur.core dev 2 with
      | none => s.becalmWord cur w dev 2
      | some s =>
        let dst := (pages.headD 0 + cur.before.readSS 2 % 4096) % 2 ^ 48
        let first := lowLane act
        let (s, w) := s.addStatusEntries w act d fun l =>
          { blankEntry .xmc 2 cur w with
            addr := BitVec.ofNat 64 (cur.before.readSS 0), args := [(cur.before.readS 4).toNat, dst, list, pages.getD 1 0 % 2 ^ 48, cur.before.readSS 2]
            mode := if l.val = first then 1 else 0 }
        finish s cur (w.advance cur.pc cur.lanes 0)

/-! ### The flits of an entry -/

/-- The physical address of byte `off` of an `XFER`'s destination. -/
def Entry.destPa (e : Entry) (off : Nat) : Nat :=
  let dst := e.args.getD 1 0
  let va := dst + off
  e.args.getD (6 + (va / 4096 - dst / 4096)) 0 + va % 4096

/-- The spec field of an `XFER` flit (R346). -/
def bulkSpec (pa core cnt nc bytes : Nat) : BitVec 80 :=
  BitVec.ofNat 80 (pa % 2 ^ 48 / 4 * 2 ^ 34 + core % 256 * 2 ^ 26 + cnt / 4 % 2 ^ 18 * 2 ^ 8 + nc % 2 * 2 ^ 7 + (bytes / 4 - 1) % 64 * 2)

/-- An entry of the fabric queue may go on. -/
def State.mayFabric (s : State) (n : Nat) (e : Entry) : Bool :=
  (e.kind == .xfer || e.kind == .xmc) && e.win.isNone && e.fid.isNone && e.acc != 2 && !s.fenced n e && !s.behindQueue n e

/-- The next flit of an `XFER` entry: the bytes it carries, by offset and number. -/
def Entry.nextFlit (e : Entry) : Nat × Nat := (224 * e.elem, min 224 (e.args.getD 0 0 - 224 * e.elem))

/-- What the source of the next flit gives. -/
def State.flitSource (s : State) (e : Entry) : Got :=
  let (off, n) := if e.kind == .xmc then (0, e.args.getD 0 0) else e.nextFlit
  s.engineGet e true (pieces (e.addr.toNat + off) n)

/-- Where the bytes of the next flit go: one run, or two where it reaches into a destination page whose frame does not follow. -/
def Entry.runs (e : Entry) (bs : List Byte) : List (Nat × List Byte) :=
  let off := e.nextFlit.1
  let n := 4096 - (e.args.getD 1 0 + off) % 4096
  if bs.length ≤ n || e.destPa (off + n) = e.destPa off + n then [(e.destPa off, bs)]
  else [(e.destPa off, bs.take n), (e.destPa (off + n), bs.drop n)]

/-- The guard granules that the source of the next flit overlaps are recorded (R76). -/
def State.noteSource (s : State) (e : Entry) (n : Nat) : State × Entry := s.noteGuards e [(e.addr.toNat + e.nextFlit.1, n)]

/-- An `XFER` entry after its next flit has left. -/
def Entry.sent (e : Entry) : Entry :=
  { e with started := true, elem := e.elem + 1, mode := 0, acc := if e.args.getD 0 0 ≤ 224 * (e.elem + 1) then 2 else 1 }

/-- The next flit of an `XFER` to the own device is written and counted here (R242). -/
def State.xferHere (s : State) (n : Nat) (e : Entry) (bs : List Byte) : State :=
  match s.hubWrites (e.runs bs) with
  | (s, false) => s
  | (s, true) =>
    let (s, e) := s.noteSource e bs.length
    if e.args.getD 3 0 = 1 then s.setEntry n e.sent
    else
      let here := (s.launchBlocksOn e (e.args.getD 4 0)).filter fun b => !b.2.ended && !b.2.away
      let cnt := e.args.getD 2 0
      let touched : Bool := (s.oneOf here).any fun b => cnt + 4 ≤ b.size && b.touches cnt 4
      let (s', out) := s.fresh.countArrival (s.oneOf here) cnt bs.length
      let s := if touched then s'.engineTouch e cnt else s'
      s.setEntry n { e.sent with outcome := if e.outcome = 0 then out else e.outcome, guard := e.guard || touched }

/-- The next flit of an `XFER` to a peer joins the hub's queue; a flit names one address, so bytes for two frames leave as two flits
(DESIGN CHOICE, log 43). -/
def State.xferSend (s : State) (n : Nat) (e : Entry) (bs : List Byte) : State :=
  let dev := e.args.getD 5 0
  let runs := e.runs bs
  let flit := fun (s : State) (r : Nat × List Byte) =>
    s.newFlit 3 dev 2 (bulkSpec r.1 (e.args.getD 4 0) (e.args.getD 2 0) (e.args.getD 3 0) r.2.length) (padPayload r.2)
  let (s, e) := s.noteSource e bs.length
  (runs.zipIdx.foldl (fun s r => s.enqueue dev { flit := flit s r.1, core := e.core, draw := r.2 != 0, ack := .entry n }) s).setEntry n
    { e.sent with owed := e.owed + runs.length }

/-- Where the bytes of an `XMC` go: one run, or two where they reach into a destination page whose frame does not follow. -/
def Entry.xmcRuns (e : Entry) (bs : List Byte) : List (Nat × List Byte) :=
  let dst := e.args.getD 1 0
  let n := 4096 - dst % 4096
  let second := e.args.getD 3 0
  if bs.length ≤ n || second = dst + n then [(dst, bs)] else [(dst, bs.take n), (second, bs.drop n)]

/-- An `XMC` entry acts: the own device as first target writes here, then the pair goes on to the next one (R243); a pair names one
address, so bytes for two frames leave as two pairs (DESIGN CHOICE, log 43). -/
def State.xmcGo (s : State) (n : Nat) (e : Entry) (bs : List Byte) : State :=
  let list := e.args.getD 2 0
  let devs := listDevs list
  let (s, e) := s.noteGuards e [(e.addr.toNat, bs.length)]
  let runs := e.xmcRuns bs
  let here : Bool := devs.head? = some s.self
  match (if here then s.hubWrites (runs.map fun r => (s.self * 2 ^ 48 + r.1, r.2)) else (s, true)) with
  | (s, false) => s
  | (s, true) =>
    let next := if here then 1 else 0
    let done := { e with started := true, elem := 1, acc := 2 }
    match devs[next]? with
    | none => s.setEntry n done
    | some d =>
      let pair := fun (s : State) (r : (Nat × List Byte) × Nat) =>
        s.sendPair e.core d list (next + 1) r.1.1 r.1.2 .none (.entry n) (r.2 != 0)
      (runs.zipIdx.foldl pair s).setEntry n { done with owed := runs.length }

/-- A fabric entry issues its next flit or pair (R242, R355); an entry whose source faults only starts. -/
def fabricStep (n : Nat) (s : State) : Res :=
  match s.entry? n with
  | none => notDue s
  | some e =>
    if !s.mayFabric n e then notDue s
    else
      let dev := if e.kind == .xmc then (listDevs (e.args.getD 2 0)).headD 0 else e.args.getD 5 0
      match (if e.mode = 1 then some s else s.needAllowance e.core dev (if e.kind == .xmc then 2 else 1)) with
      | none => notDue s
      | some s1 =>
        match s.flitSource e with
        | .fault _ _ => .next (s.setEntry n { e with started := true })
        | .wait s => .next s
        | .bytes bs =>
          if e.kind == .xmc then .next (s1.xmcGo n e bs)
          else if dev = s.self then .next (s1.xferHere n e bs)
          else .next (s1.xferSend n e bs)

/-- The access of a fabric entry that fails now (R222): its element is a flit. -/
def State.fabricFault (s : State) (e : Entry) : Option (Cause × Nat × Access × Nat) :=
  if e.acc = 2 then none
  else match s.flitSource e with
    | .fault c va => some (c, va, .read, e.elem)
    | _ => none

/-- A flit of a fabric entry is acknowledged (R242). What a peer did with the counter is not in the flits of R340: the outcome
is one of the three that R242 allows, and a counter that was there may have lain in a guard granule, which is a touch of the issuing
warp (R76). -/
def State.ackEntry (s : State) (n : Nat) : State :=
  match s.entry? n with
  | none => s
  | some e =>
    let last : Bool := e.acc = 2 && e.owed ≤ 1
    let open_ : Bool := last && e.kind == .xfer && e.args.getD 3 0 = 0 && e.outcome = 0
    let x := (Config.freeValue s.free).toNat
    let out := [0, 3, 7].getD (x % 3) 0
    let touched : Bool := open_ && out = 0 && x / 3 % 2 = 1
    let s := if open_ then s.fresh else s
    let s := if touched then s.engineTouch e (e.args.getD 2 0) else s
    s.setEntry n { e with owed := e.owed - 1, outcome := if open_ then out else e.outcome, guard := e.guard || touched }

end Sys2Proof.Machine
end

