-- ==== Sys2Proof/Machine/EngineEvents.lean ====
section
/-! DEFINITION. The suspension and the completion of an engine entry, whatever its queue (R213, R222). -/
namespace Sys2Proof.Machine

/-- The access of a started entry that fails now: cause, address, kind, element index (R222). -/
def State.entryFault (s : State) (n : Nat) (e : Entry) : Option (Cause × Nat × Access × Nat) :=
  match e.kind with
  | .cpy | .gath | .scat | .cpym => (SMap.get? s.blocks e.block).bind fun b => s.copyFault n e b
  | .gemvn => s.gemvnFault n e
  | .coll => s.collFault e
  | .xfer | .xmc => s.fabricFault e
  | _ => none

/-- An operation is abandoned (R222, R279): outcome 2, what it did so far stays, its slots are published or released. -/
def State.abandonEntry (s : State) (n : Nat) (e : Entry) : State :=
  let e := { e with outcome := 2, fid := none, started := true }
  match e.kind with
  | .cpy | .gath | .scat | .cpym =>
    match e.acc, SMap.get? s.blocks e.block with
    | 1, some b => s.copyFinish n e b
    | _, _ => s.setEntry n { e with acc := 2, todo := [] }
  | _ => s.setEntry n { e with acc := 2 }

/-- An entry suspended at an element (R278): what it has read for elements that have not moved is read again. What it read of 64 bytes,
the record and the table that R55 fixes at its issue, stays. -/
def Entry.suspend (e : Entry) (elem fid : Nat) : Entry :=
  { e with elem := elem, fid := some fid, seen := if e.acc = 1 then [] else e.seen.filter fun x => 64 ≤ x.2.length }

/-- `ENGINE_ELEMENT_FAULT` (R222, R405): a started entry whose next access fails is suspended at its element; one that
reads a poisoned line ends with outcome 2 (R449). -/
def execEngineElementFault (entry : Nat) (s : State) : Res :=
  match s.entry? entry with
  | none => notDue s
  | some e =>
    if !e.started || e.fid.isSome || e.win.isSome then notDue s
    else match s.entryFault entry e with
      | none => notDue s
      | some (.poison, _, _, _) => .next (s.abandonEntry entry e)
      | some (.table pa, _, _, _) => .next (s.request e.core e.slot (.mem pa) false).1
      | some (c, va, k, elem) =>
        let s := if e.kind == .gemvn then s.gemvnGo entry e else s
        let (s, fid) := s.newFault (faultOf c va elem e.ctx e.core e.slot e.queue k.code (.entry entry))
        .next (s.setEntry entry (((s.entry? entry).getD e).suspend elem fid))

/-- The operation of an entry that writes a status word has ended. -/
def Entry.isOver (e : Entry) : Bool :=
  e.acc = 2 && e.fid.isNone && match e.kind with
    | .cpy | .gath | .scat | .gemvn | .coll => true
    | .cpym => e.todo.isEmpty
    | .xfer | .xmc => e.owed = 0
    | _ => false

/-- `ENGINE_COMPLETION` (R82, R213, R217): the status word of an operation whose writes have all been performed is written, a reserved
slot published. -/
def execEngineCompletion (entry : Nat) (s : State) : Res :=
  match s.entry? entry with
  | none => notDue s
  | some e =>
    if !e.isOver || !s.stored (.entry entry) then notDue s
    else
      let s := if e.queue = 0 then s.copyPublish e else s
      .next (s.completeEntry entry e)

end Sys2Proof.Machine
end

