-- ==== Sys2Proof/Machine/Fabric.lean ====
section
/-! DEFINITION. The fabric (R336 to R357): paths and credits, sending, acknowledgement and resending, receiving in order, key
switches, send allowance, the loss of a device. -/
namespace Sys2Proof.Machine

/-! ### Ports and paths (R337, R345, R348, R352) -/

/-- The link of a port runs. -/
def State.portUp (s : State) (p : Nat) : Bool :=
  let x := s.port p
  p < 15 && x.en && x.link = 2 && (s.reg 0x30000 0).getLsbD (24 + p)

/-- The ports that carry traffic straight to a device. -/
def State.directPorts (s : State) (dev : Nat) : List Nat :=
  (List.range 15).filter fun p => s.portUp p && !(s.port p).limited && (s.port p).peer = dev

/-- The relay toward a device (R352): the lowest device whose up-link vector shows a link to it. -/
def State.relayFor (s : State) (dev : Nat) : Option Nat :=
  (List.range 16).find? fun r => r != s.self && r != dev && (s.directPorts r).any fun p => (s.port p).peerUp.getLsbD dev

/-- The ports that now carry traffic toward a device: direct links, else the first hops of the detour. -/
def State.pathPorts (s : State) (dev : Nat) : List Nat :=
  match s.directPorts dev with
  | [] => match s.relayFor dev with
    | none => []
    | some r => s.directPorts r
  | ps => ps

/-- T_d (R348). -/
def State.poolSize (s : State) (dev : Nat) : Nat := 1024 * (s.pathPorts dev).length

/-- The pool of credits toward a device. -/
def State.pool (s : State) (dev : Nat) : Pool := SMap.getD s.pools dev { outstanding := 0, becalmed := [], woken := [], last := none }

/-- Sets a pool. -/
def State.setPool (s : State) (dev : Nat) (x : Pool) : State := { s with pools := SMap.put s.pools dev x }

/-- A number of credits is back in a pool. -/
def State.poolBack (s : State) (dev n : Nat) : State :=
  let x := s.pool dev
  s.setPool dev { x with outstanding := x.outstanding - n }

/-- The up-link vector of this device (R340). -/
def State.upLinks (s : State) : Nat :=
  ((List.range 16).filter fun d => (List.range 15).any fun p => s.portUp p && (s.port p).peer = d).foldl (fun n d => n + 2 ^ d) 0

/-- The key alarm of a port (R345): its bit of `KY_ALM`, MSI-X vector 5. -/
def State.keyAlarm (s : State) (p : Nat) : State :=
  let r := s.reg 0x40040 0
  if r.getLsbD p then s
  else State.interrupt { s with mmio := SMap.put s.mmio 0x40040 (r ||| BitVec.ofNat 64 (2 ^ p)) } 5

/-- A key has sealed a flit: it is no longer fresh (R433). -/
def State.useKey (s : State) (p slot : Nat) : State :=
  match s.keySlot 0 p slot with
  | none => s
  | some k => { s with keys := SMap.put s.keys (keyId 0 p slot) { k with fresh := false } }

/-! ### Sending (R341, R345, R348, R349) -/

/-- A flit of the second hop of a detour. -/
def OutFlit.second (s : State) (f : OutFlit) : Bool := f.flit.relay && f.flit.src != s.self

/-- A flit takes a credit on its way out: classes 0 and 2, but for second hops (R348). -/
def OutFlit.takesCredit (s : State) (f : OutFlit) : Bool := (f.flit.cls = 0 || f.flit.cls = 2) && !f.second s

/-- A route flit of `XMC`: its data flit follows it on the same link (R351). -/
def flitRoute (f : Flit) : Bool := f.kind = 4 && !f.spec.getLsbD 0

/-- Flits that leave in one go. -/
def OutFlit.need (f : OutFlit) : Nat := if flitRoute f.flit then 2 else 1

/-- A flit of the queue toward a device may leave through a port: a credit is free, its core's allowance covers it, a second
hop goes straight, and no earlier flit of its class and core waits. -/
def State.maySend (s : State) (dev p : Nat) (before : List OutFlit) (f : OutFlit) : Bool :=
  let data : Bool := f.flit.kind = 4 && f.flit.spec.getLsbD 0
  !data && !(before.any fun g => g.flit.cls = f.flit.cls && g.core = f.core) &&
    (!f.takesCredit s || (s.pool dev).outstanding + f.need ≤ s.poolSize dev) &&
    (!f.draw || f.need ≤ s.allowance f.core dev) && (!f.second s || (s.port p).peer = dev)

/-- The position of the first flit of a queue that may leave through a port. -/
def State.firstSend (s : State) (dev p : Nat) : List OutFlit → List OutFlit → Option Nat
  | _, [] => none
  | before, f :: rest => if s.maySend dev p before f then some before.length else s.firstSend dev p (before ++ [f]) rest

/-- The ports' switch point is reached with a fresh key in the other slot: a switch comes first (R344). -/
def State.mustSwitch (s : State) (p : Nat) : Bool :=
  let x := s.port p
  (switchPoint ≤ x.txCtr || switchPoint ≤ x.ctlCtr) && s.freshKey 0 p (1 - x.txSlot)

/-- The switch point is reached without a fresh key: the key alarm rises (R345). -/
def State.checkAlarm (s : State) (p : Nat) : State :=
  let x := s.port p
  if (switchPoint ≤ x.txCtr || switchPoint ≤ x.ctlCtr) && !s.freshKey 0 p (1 - x.txSlot) then s.keyAlarm p else s

/-- The bytes of a flit as a port of this device seals it. -/
def State.imageOf (s : State) (p : Nat) (f : Flit) : List Byte :=
  (s.keySlot 0 p (if f.slot then 1 else 0)).elim [] fun k => flitImage k s.self p f

/-- One flit leaves through a port toward a device (R341): it takes a credit and the next ctr and is kept for replay. -/
def State.sendFlit (s : State) (p dev : Nat) (f : OutFlit) : State :=
  let x := s.port p
  let credit : Bool := f.takesCredit s
  let flit := { f.flit with relay := f.second s || x.peer != dev, slot := x.txSlot = 1, ctr := x.txCtr }
  let s := if f.draw then (s.addInterest f.core dev).drawAllowance f.core dev else s
  let s := if credit then s.setPool dev { s.pool dev with outstanding := (s.pool dev).outstanding + 1 } else s
  let s := s.setPort p { x with
    txCtr := x.txCtr + 1, txData := x.txData + 1
    relayed := if f.second s then x.relayed + 1 else x.relayed
    lent := if credit then x.lent ++ [(flit.cls, dev)] else x.lent
    replay := x.replay ++ [{ flit := flit, image := s.imageOf p flit, sends := 1, credit := if credit then some dev else none, ack := f.ack }] }
  (s.useKey p x.txSlot).checkAlarm p

/-- The port can seal and keep a number of further data flits. -/
def State.canSeal (s : State) (p n : Nat) : Bool :=
  let x := s.port p
  s.portUp p && (s.keySlot 0 p x.txSlot).isSome && !x.limited && x.txCtr + n ≤ 0xFFFFFFFF && x.replay.length + n ≤ 512

/-- The port that carries the next `n` flits toward a device: successive flits go round-robin over its links (R337), past those that cannot
take them. -/
def State.turnPort (s : State) (dev n : Nat) : Option Nat :=
  let ps := (s.pathPorts dev).filter fun p => s.canSeal p n
  match (s.pool dev).last with
  | none => ps.head?
  | some q => (ps.find? (q < ·)).or ps.head?

/-- The device whose queue a port serves next: its own peer, then those it is a first hop to; the port's turn has come there. -/
def State.nextQueue (s : State) (p : Nat) : Option (Nat × Nat) :=
  let peer := (s.port p).peer
  (peer :: (List.range 16).filter (· != peer)).findSome? fun d =>
    let q := SMap.getD s.hubq d []
    (s.firstSend d p [] q).bind fun k => if s.turnPort d (q[k]?.elim 1 OutFlit.need) = some p then some (d, k) else none

/-- `FLIT_TRANSMIT` (R341): a port sends the next flit that may leave through it; a route flit leaves with its data flit. -/
def execFlitTransmit (port : Nat) (s : State) : Res :=
  match s.nextQueue port with
  | none => notDue s
  | some (dev, k) =>
    let q := SMap.getD s.hubq dev []
    match q[k]? with
    | none => notDue s
    | some f =>
      if !s.canSeal port f.need || s.mustSwitch port then notDue s
      else
        let out := (q.drop k).take f.need
        let s := { s with hubq := SMap.put s.hubq dev (q.take k ++ q.drop (k + f.need)) }
        let s := s.setPool dev { s.pool dev with last := some port }
        .next (out.foldl (fun s f => s.sendFlit port dev f) s)

/-- The slot and ctr that a port's next control flit acknowledges (R340, R341): the oldest flit without its full effect, else
the next one expected. -/
def Port.ackPoint (x : Port) : Nat × Nat := x.unacked.headD (x.rxSlot, x.rxNext)

/-- The port's next control flit names a missing flit (R341): one behind a gap has come, or a flit behind one is held and no
acknowledgement is owed. -/
def Port.naks (x : Port) : Bool := x.nakOwed || (!x.early.isEmpty && !x.ackOwed)

/-- Something that a control flit reports is owed (R342). -/
def Port.owesControl (x : Port) : Bool := x.ackOwed || x.nakOwed || x.credOwed.any (· != 0) || !x.refusals.isEmpty

/-- The slot and ctr that a port's next control flit carries (R340): with nak = 1 the flit that is missing, the next one expected, else what
it acknowledges. -/
def Port.named (x : Port) : Nat × Nat := if x.naks then (x.rxSlot, x.rxNext) else x.ackPoint

/-- The refusals that the port's next control flit lists: new ones, then those that it repeats. -/
def Port.lists (x : Port) : List (Nat × Nat) := (x.refusals.take 27 ++ x.told).take 27

/-- The credit fields of the port's next control flit: credits returned so far, modulo 256. A flit adds at most 15, so that no 16 flits
lost in a row lose a credit. -/
def Port.credNow (x : Port) : List Nat := (List.range 3).map fun k => (x.credSent.getD k 0 + min 15 (x.credOwed.getD k 0)) % 256

/-- The port that carries the control flits of a port: itself, or toward the relay while its link is down (R352). -/
def State.controlPort (s : State) (p : Nat) : Option Nat :=
  if 15 ≤ p then none
  else if s.portUp p then some p
  else if (s.port p).en then (s.relayFor (s.port p).peer).bind fun r => (s.directPorts r).head?
  else none

/-- The enabled ports toward a device, in order. -/
def State.portsOf (s : State) (dev : Nat) : List Nat := (List.range 15).filter fun k => (s.port k).en && (s.port k).peer = dev

/-- The control flit that port `p` owes, as port `q` sends it (R340). Its fields are cumulative (R342): a missing flit, credits and
refusals are reported again until what they report is over. Over a relay it says which of the links between the two devices it is for,
in a byte for which the manual names no field (DESIGN CHOICE, log 48). -/
def State.controlOf (s : State) (p q : Nat) : Flit :=
  let x := s.port p
  let y := s.port q
  let a := x.named
  let cred := fun (k : Nat) => x.credNow.getD k 0
  let rs := x.lists
  let spec := a.2 % 2 ^ 32 * 2 ^ 48 + a.1 * 2 ^ 47 + (if x.naks then 2 ^ 46 else 0) +
    (if rs.isEmpty then 0 else 2 ^ 45) + cred 0 * 2 ^ 37 + cred 1 * 2 ^ 29 + cred 2 * 2 ^ 21
  let list := rs.flatMap fun r => bytesLE 8 (r.2 + r.1 * 2 ^ 32)
  let which := if q = p then 0 else (s.portsOf x.peer).idxOf p
  { kind := 0, src := s.self, dst := x.peer, relay := q != p, slot := y.txSlot = 1, cls := 3, ctr := y.ctlCtr
    spec := BitVec.ofNat 80 spec, payload := padPayload (bytesLE 2 s.upLinks ++ bytesLE 6 which ++ list) }

/-- `CONTROL_FLIT_SEND` (R342): acknowledgements, credits and refusals that are owed leave in one control flit, sealed under the key of the
link that carries it. -/
def execControlFlitSend (port : Nat) (s : State) : Res :=
  match s.controlPort port with
  | none => notDue s
  | some q =>
    let y := s.port q
    if (s.keySlot 0 q y.txSlot).isNone || y.limited || !(s.port port).owesControl || s.mustSwitch q then notDue s
    else
      let f := s.controlOf port q
      let s := s.setPort q { y with ctlCtr := y.ctlCtr + 1, sentCtl := some (f, s.imageOf q f) }
      let x := s.port port
      let x := { x with
        ackOwed := (x.naks && x.ackOwed) || 27 < x.refusals.length, nakOwed := false
        refusals := x.refusals.drop 27, told := x.lists
        unacked := x.unacked.filter fun u => !(x.refusals.take 27).contains u
        credSent := x.credNow, credOwed := x.credOwed.map fun n => n - 15 }
      .next (((s.setPort port x).useKey q y.txSlot).checkAlarm q)

/-! ### A link that fails (R342, R352) -/

/-- A device that loses its last link to another refuses the relayed flits for it that it has not forwarded (R352). -/
def State.refuseRelays (s : State) (dev : Nat) : State :=
  if !(s.directPorts dev).isEmpty then s
  else
    let q := SMap.getD s.hubq dev []
    let out := q.filter fun f => f.second s
    let s := { s with hubq := SMap.put s.hubq dev (q.filter fun f => !f.second s) }
    out.foldl (fun s f => match f.ack with
      | .relay r =>
        let x := s.port r.port
        s.setPort r.port { x with refusals := x.refusals ++ [(r.slot, r.ctr)] }
      | _ => s) s

/-- The link of a port goes down and, while enabled, trains again. Flits held beyond a gap come anew, over the link or over the detour, whose
origin first learns the next one expected here (R352). -/
def State.linkFails (s : State) (p : Nat) : State :=
  let x := s.port p
  let s := s.setPort p { x with
    link := if x.en then 1 else 0, replay := x.replay.map fun r => { r with sends := 0 }, early := [], nakOwed := true }
  (s.setReady (24 + p) false).refuseRelays x.peer

/-- The flit at a position of a replay buffer is sent again; after 16 sends the link goes down (R342). -/
def State.resend (s : State) (p k : Nat) : State :=
  let x := s.port p
  match x.replay[k]? with
  | none => s
  | some r =>
    if 16 ≤ r.sends then s.linkFails p
    else if (s.keySlot 0 p (if r.flit.slot then 1 else 0)).isNone then s
    else (s.setPort p { x with retx := x.retx + 1, replay := x.replay.set k { r with sends := r.sends + 1 } }).countLife 67

/-- `REPLAY_TIMEOUT` (R342): no progress for 4,096 flit times; the oldest unacknowledged flit is sent again. -/
def execReplayTimeout (port : Nat) (s : State) : Res :=
  if !s.portUp port || (s.port port).replay.isEmpty then notDue s else .next (s.resend port 0)

/-- A flit leaves a replay buffer for the front of its device's queue: the credit it held is free again (R352). -/
def State.reroute (s : State) (p : Nat) (rs : List Replay) : State :=
  rs.reverse.foldl (fun s r =>
    let x := s.port p
    let s := s.setPort p { x with replay := x.replay.erase r, lent := match r.credit with | none => x.lent | some d => x.lent.erase (r.flit.cls, d) }
    let s := match r.credit with
      | none => s
      | some d => s.poolBack d 1
    if r.flit.kind = 7 then s
    else { s with hubq := SMap.put s.hubq r.flit.dst ({ flit := r.flit, core := 192, draw := false, ack := r.ack } :: SMap.getD s.hubq r.flit.dst []) }) s

/-! ### Control flits received (R340, R342, R344) -/

/-- One more device knows of an `RDECL` of a warp (R303). -/
def State.declareDone (s : State) (core slot : Nat) : State :=
  match s.warp core slot with
  | none => s
  | some w => s.setWarp core slot { w with declares := w.declares - 1 }

/-- What an acknowledged flit releases. -/
def State.ackRun (s : State) : AckTo → State
  | .none => s
  | .entry n => s.ackEntry n
  | .store o line => (s.performed o line).retryAll
  | .work i k => s.ackWork i k
  | .relay rx => s.rxDone (some rx)
  | .declare core slot => s.declareDone core slot

/-- The old send slot is retired once every flit sealed under it is acknowledged (R344). -/
def State.retire (s : State) (p : Nat) : State :=
  let x := s.port p
  if !x.retiring then s
  else State.countLife { s.setPort p { x with retiring := false, ksw := x.ksw + 1 } with
    keys := SMap.del s.keys (keyId 0 p (1 - x.txSlot)) } 69

/-- The flits below an acknowledgement leave the replay buffer. -/
def State.acknowledge (s : State) (p slot ctr : Nat) : State :=
  let x := s.port p
  if slot != x.txSlot && !x.retiring then s
  else
    let hit := fun (r : Replay) =>
      let rs := if r.flit.slot then 1 else 0
      (rs = slot && r.flit.ctr < ctr) || (slot = x.txSlot && rs != slot)
    let done := x.replay.filter hit
    let s := s.setPort p { x with replay := x.replay.filter fun r => !hit r }
    let s := done.foldl (fun s r => s.ackRun r.ack) s
    if slot = x.txSlot then s.retire p else s

/-- A number of credits of a class comes back (R348): the oldest lent ones. -/
def State.creditsBack (s : State) (p cls : Nat) : Nat → State
  | 0 => s
  | n + 1 =>
    let x := s.port p
    match x.lent.find? fun c => c.1 = cls with
    | none => s
    | some c => ((s.setPort p { x with lent := x.lent.erase c }).poolBack c.2 1).creditsBack p cls n

/-- The credits that a control flit reports beyond the last one's, whose fields count modulo 256 (R342). -/
def State.creditsNow (s : State) (p : Nat) (now : List Nat) : State :=
  let seen := (s.port p).credSeen
  let s := s.setPort p { s.port p with credSeen := now }
  (List.range 3).foldl (fun s k => s.creditsBack p k ((now.getD k 0 + 256 - seen.getD k 0) % 256)) s

/-- The refusal entries of a control flit, as (slot, ctr): the first, and every later one that is not zero. -/
def flitRefused (f : Flit) : List (Nat × Nat) :=
  if !f.spec.getLsbD 45 then []
  else (List.range 27).filterMap fun k =>
    let e := leNat ((f.payload.drop (8 + 8 * k)).take 8)
    if k != 0 && e = 0 then none else some (e / 2 ^ 32 % 2, e % 2 ^ 32)

/-- A flit whose slot holds no key, or whose tag fails, is refused (R343). -/
def State.refuseFlit (s : State) (p : Nat) : State :=
  let x := s.port p
  (s.setPort p { x with authf := x.authf + 1 }).countLife 68

/-- The device that a port faces has not delivered a flit, where the next one that it expects is (slot, ctr) (R352). -/
def Replay.beyond (x : Port) (slot ctr : Nat) (r : Replay) : Bool :=
  let rs := if r.flit.slot then 1 else 0
  if rs = slot then ctr ≤ r.flit.ctr else slot != x.txSlot

/-- What an accepted control flit says of port `p` takes effect (R340, R342, R352): with nak = 0 it acknowledges; with nak = 1 the flit that
it names is resent, or, where the link is down, that flit and those beyond it take the detour. -/
def State.obeyControl (s : State) (p : Nat) (f : Flit) : State :=
  let spec := f.spec.toNat
  let slot := bits spec 47 1
  let ctr := bits spec 48 32
  let nak : Bool := bits spec 46 1 = 1
  let s := s.setPort p { s.port p with peerUp := BitVec.ofNat 16 (leNat (f.payload.take 2)) }
  let refused := flitRefused f
  let s := s.reroute p ((s.port p).replay.filter fun r => refused.contains (if r.flit.slot then 1 else 0, r.flit.ctr))
  let s := if nak then s else s.acknowledge p slot ctr
  let s := s.creditsNow p [bits spec 37 8, bits spec 29 8, bits spec 21 8]
  let x := s.port p
  if !nak then s
  else if !s.portUp p then if (s.pathPorts x.peer).isEmpty then s else s.reroute p (x.replay.filter (Replay.beyond x slot ctr))
  else match x.replay.findIdx? fun r => (if r.flit.slot then 1 else 0) = slot && r.flit.ctr = ctr with
    | none => s
    | some k => s.resend p k

/-- A control flit for another device goes on to it, under the next control counter of a link there (R352); without such a link it is
lost, and a later one replaces it. -/
def State.relayControl (s : State) (f : Flit) : State :=
  match (s.directPorts f.dst).find? fun p => (s.keySlot 0 p (s.port p).txSlot).isSome with
  | none => s
  | some p =>
    let x := s.port p
    let g := { f with relay := true, slot := x.txSlot = 1, ctr := x.ctlCtr }
    (s.setPort p { x with ctlCtr := x.ctlCtr + 1, relayed := x.relayed + 1, sentCtl := some (g, s.imageOf p g) }).useKey p x.txSlot

/-- A flit that arrives at a port authenticates (R343): the bytes that stood for it on the link open to it under the key of its slot, with
the link identity of that key and the device that the port faces. Which port of that device sent it stands in no register here. -/
def State.authentic (s : State) (p : Nat) (f : Flit) : Bool :=
  (s.keySlot 1 p (if f.slot then 1 else 0)).any fun k => (List.range 15).any fun q =>
    gcmOpen k.key (flitIv k.lid (s.port p).peer q f) (bytesLE 16 (flitHeader f).toNat) f.body f.tag == some f.payload

/-- `CONTROL_FLIT` (R340): one that authenticates acts at once, unless its control counter is not above the highest accepted
under its slot. One for another device is handed on to it; one that came through a relay says which link it is for (R352). -/
def execControlFlit (port : Nat) (f : Flit) (s : State) : Res :=
  let slot := if f.slot then 1 else 0
  if f.kind != 0 || 15 ≤ port then notDue s
  else if !s.authentic port f then .next (s.refuseFlit port)
  else if ((s.port port).ctlSeen.getD slot none).any fun n => f.ctr ≤ n then .next s
  else
    let s := s.setPort port { s.port port with ctlSeen := (s.port port).ctlSeen.set slot (some f.ctr) }
    if !f.relay then .next (s.obeyControl port f)
    else if f.dst != s.self then .next (s.relayControl f)
    else match (s.portsOf f.src)[leNat ((f.payload.drop 2).take 6)]? with
      | none => .next s
      | some p => .next (s.obeyControl p f)

/-! ### Data flits received (R341, R346, R351, R310) -/

/-- The lull entry of a kind-5 flit (R339), and what it says of a plan. -/
def flitLull (f : Flit) (credit : Option Nat) : LullEntry :=
  let at_ := fun (o n : Nat) => leNat ((f.payload.drop o).take n)
  let lab := BitVec.ofNat 32 (at_ 144 4)
  { ctx := at_ 160 4 % 4096, line := at_ 152 8, obj := none, level := labelLevel lab, index := labelIndex lab
    present := BitVec.ofNat 32 (at_ 140 4), vals := Lanes.ofFn fun l => BitVec.ofNat 32 (at_ (4 * l.val) 4)
    res := Lanes.ofFn fun l => BitVec.ofNat 3 (at_ 128 12 / 2 ^ (3 * l.val)), core := 192, block := 0, rootc := false
    apart := false, credit := credit, seq := 0 }

/-- The plan arrival of a kind-5 or kind-6 flit (R310, R339). -/
def flitPlan (f : Flit) (credit : Option Nat) (rx : Option RxRef) : HeldWrite :=
  let at_ := fun (o n : Nat) => leNat ((f.payload.drop o).take n)
  let spec := f.spec.toNat
  let base : HeldWrite :=
    { planid := BitVec.ofNat 32 (bits spec 48 32), tag := BitVec.ofNat 32 (bits spec 16 32), sig := bits spec 4 12
      doff := at_ 0 4, data := (f.payload.drop 16).take (min 208 (at_ 4 4)), label := none, line := 0, ctx := 0, credit := credit
      rx := rx, work := none, put := false }
  if f.kind = 6 then base
  else { base with
    doff := at_ 168 8, data := f.payload.take 128, line := at_ 152 8, ctx := at_ 160 4
    label := some (BitVec.ofNat 32 (at_ 144 4), BitVec.ofNat 32 (at_ 140 4), at_ 128 12) }

/-- A delivered flit for another device goes on to it; the first hop is acknowledged after the second (R352). -/
def State.relayOn (s : State) (f : Flit) (rx : RxRef) : State :=
  (s.enqueue f.dst { flit := { f with relay := true }, core := 192, draw := false, ack := .relay rx }).refuseRelays f.dst

/-- The effect of a delivered data flit at this device. -/
def State.takeFlit (s : State) (p : Nat) (f : Flit) (rx : RxRef) : State :=
  let spec := f.spec.toNat
  let credit := if rx.cls.isSome then some p else none
  let bare := some { rx with cls := none }
  match f.kind with
  | 1 => match Config.decodeMsg f.spec f.payload with
    | none => s.rxDone (some rx)
    | some m => s.takeMsg { src := f.src, msg := m, rx := some rx }
  | 2 => match Config.decodeMsg f.spec f.payload with
    | none => s.rxDone (some rx)
    | some m => (s.landMsg f.src m).rxDone (some rx)
  | 3 =>
    let n := 4 * (bits spec 1 6 + 1)
    s.takeMsg { src := f.src, rx := some rx
                msg := .bulk (s.self * 2 ^ 48 + bits spec 34 46 * 4) (f.payload.take n) (bits spec 26 8) (bits spec 8 18 * 4) (bits spec 7 1 = 1) }
  | 4 =>
    let x := s.port p
    if flitRoute f then s.setPort p { x with route := some f }
    else match x.route with
      | none => s.rxDone (some rx)
      | some r =>
        let rx := { rx with route := some (if r.slot then 1 else 0, r.ctr) }
        (s.setPort p { x with route := none }).takeMsg { src := f.src, msg := .pair r f.payload, rx := some rx }
  | 5 =>
    if bits spec 48 32 = 0 then s.takeMsg { src := f.src, msg := .entry (flitLull f credit), rx := bare }
    else s.planArrive (flitPlan f credit bare)
  | 6 => s.planArrive (flitPlan f credit bare)
  | 7 =>
    let s := s.rxDone (some rx)
    let x := s.port p
    { s.setPort p { x with rxSlot := 1 - x.rxSlot, rxNext := 0, ackOwed := true, told := x.told.filter (·.1 != x.rxSlot) } with keys := SMap.del s.keys (keyId 1 p x.rxSlot) }
  | _ =>
    let s := s.rxDone (some rx)
    let x := s.port p
    s.setPort p { x with perr := x.perr + 1 }

/-- The next flit in order is delivered (R341). -/
def State.deliverFlit (s : State) (p : Nat) (f : Flit) : State :=
  let x := s.port p
  let slot := if f.slot then 1 else 0
  let second : Bool := f.relay && f.dst = s.self
  let rx : RxRef := { port := p, slot := slot, ctr := f.ctr, cls := if (f.cls = 0 || f.cls = 2) && !second then some f.cls else none, route := none }
  let s := s.setPort p { x with rxNext := x.rxNext + 1, rxData := x.rxData + 1, unacked := x.unacked ++ [(slot, f.ctr)] }
  if f.dst != s.self && f.kind < 8 then s.relayOn f rx else s.takeFlit p f rx

/-- The flits held beyond the next expected one are delivered as far as they follow on. -/
def State.deliverEarly (s : State) (p : Nat) : Nat → State
  | 0 => s
  | fuel + 1 =>
    let x := s.port p
    match x.early.find? fun f => (if f.slot then 1 else 0) = x.rxSlot && f.ctr = x.rxNext with
    | none => s
    | some f => ((s.setPort p { x with early := x.early.erase f }).deliverFlit p f).deliverEarly p fuel

/-- A data flit arrives (R341, R343, R344): refused where it does not authenticate, else delivered in order, held, or a duplicate that is
acknowledged again. -/
def State.receive (s : State) (p : Nat) (f : Flit) : State :=
  let x := s.port p
  let slot := if f.slot then 1 else 0
  if !s.authentic p f then s.refuseFlit p
  else if slot = x.rxSlot && f.ctr < x.rxNext then s.setPort p { x with ackOwed := true, nakOwed := x.nakOwed || !x.early.isEmpty }
  else if slot = x.rxSlot && f.ctr = x.rxNext then (s.deliverFlit p f).deliverEarly p 64
  else if x.early.any (fun g => g.slot = f.slot && g.ctr = f.ctr) || 64 ≤ x.early.length then s.setPort p { x with nakOwed := true }
  else s.setPort p { x with early := x.early ++ [f], nakOwed := true }

/-- A data flit of a kind arrives at a running port; one for another device comes over the first hop of a detour. -/
def State.flitEvent (s : State) (p : Nat) (f : Flit) (ok : Bool) : Res :=
  if !ok || !s.portUp p || (f.dst != s.self && !f.relay) then notDue s else .next (s.receive p f)

/-- `REQUEST_FLIT` (R339): kind 1. -/
def execRequestFlit (port : Nat) (f : Flit) (s : State) : Res := s.flitEvent port f (f.kind = 1)

/-- `RESPONSE_FLIT` (R339): kind 2. -/
def execResponseFlit (port : Nat) (f : Flit) (s : State) : Res := s.flitEvent port f (f.kind = 2)

/-- `BULK_WRITE_FLIT` (R346): kind 3. -/
def execBulkWriteFlit (port : Nat) (f : Flit) (s : State) : Res := s.flitEvent port f (f.kind = 3)

/-- `MULTICAST_FLIT` (R351): the pair of kind 4. -/
def execMulticastFlit (port : Nat) (route data : Flit) (s : State) : Res :=
  let ok : Bool := flitRoute route && data.kind = 4 && !flitRoute data && data.dst = route.dst && data.relay = route.relay
  match s.flitEvent port route ok with
  | .next s => s.flitEvent port data ok
  | other => other

/-- `LULL_ENTRY_FLIT` (R301): kind 5. -/
def execLullEntryFlit (port : Nat) (f : Flit) (s : State) : Res := s.flitEvent port f (f.kind = 5)

/-- `PLAN_WRITE_FLIT` (R310): kind 6. -/
def execPlanWriteFlit (port : Nat) (f : Flit) (s : State) : Res := s.flitEvent port f (f.kind = 6)

/-- `KEY_SWITCH_MARKER` (R344): kind 7, a marker of the link itself. -/
def execKeySwitchMarker (port : Nat) (f : Flit) (s : State) : Res := s.flitEvent port f (f.kind = 7 && f.dst = s.self)

/-- `RESERVED_KIND_FLIT` (R339): kinds 8 to 15, discarded and counted where they arrive. -/
def execReservedKindFlit (port : Nat) (f : Flit) (s : State) : Res := s.flitEvent port f (8 ≤ f.kind && f.kind ≤ 15)

/-- `UNAUTHENTICATED_FLIT` (R343): a flit is refused unread and counted. -/
def execUnauthenticatedFlit (port : Nat) (s : State) : Res := if 15 ≤ port then notDue s else .next (s.refuseFlit port)

/-- `KEY_SWITCH` (R344): the marker leaves under the active slot; later flits are sealed under the other one from ctr 0. -/
def execKeySwitch (port : Nat) (s : State) : Res :=
  let x := s.port port
  if !s.mustSwitch port || !s.portUp port || (s.keySlot 0 port x.txSlot).isNone || 0xFFFFFFFF < x.txCtr || 512 ≤ x.replay.length then
    notDue s
  else
    let marker : Flit :=
      { kind := 7, src := s.self, dst := x.peer, relay := false, slot := x.txSlot = 1, cls := 3, ctr := x.txCtr, spec := 0
        payload := List.replicate 224 0 }
    .next (s.setPort port { x with
      txSlot := 1 - x.txSlot, txCtr := 0, ctlCtr := 0, retiring := true, txData := x.txData + 1
      replay := x.replay ++ [{ flit := marker, image := s.imageOf port marker, sends := 1, credit := none, ack := .none }] })

/-! ### Send allowance (R349, R355) -/

/-- A warp of the core is becalmed toward the device. -/
def State.becalmedOn (s : State) (dev core : Nat) : Bool := s.warps.any fun e => e.1 / 64 = core && e.2.wait == some (.becalmed dev)

/-- A flit of core `c` waits in the hub's queue, to draw or for a credit; of core 192 those that are still to draw. -/
def OutFlit.waitsFor (c : Nat) (f : OutFlit) : Bool := f.core = c && (f.draw || c < 192)

/-- Cores in the allowance set of a device: those that showed interest in the last 4,096 flit times, 64 regrants, and those with a flit
in its queue or a becalmed warp. -/
def State.allowanceSet (s : State) (dev : Nat) : List Nat :=
  let q := SMap.getD s.hubq dev []
  (List.range 193).filter fun c => (SMap.get? (s.core c).interest dev).any (· < 64) || q.any (OutFlit.waitsFor c) || s.becalmedOn dev c

/-- The raises of a regrant, cores in ascending (grant, number) order. -/
def State.raiseGrants (s : State) (dev target : Nat) : List Nat → Int → State
  | [], _ => s
  | c :: cs, f =>
    let x := s.core c
    let g := SMap.getD x.sa dev 0
    let r := max 0 (min ((target : Int) - g) f)
    let s := s.setCore c { x with sa := SMap.put x.sa dev (g + r.toNat) }
    s.raiseGrants dev target cs (f - r)

/-- A regrant interval has passed for every core's interest in a device. -/
def State.passRegrant (s : State) (dev : Nat) : State :=
  let older := fun (x : Nat × Core) =>
    let q := SMap.getD s.hubq dev []
    match SMap.get? x.2.interest dev with
    | none => x
    | some n =>
      let n := if q.any (OutFlit.waitsFor x.1) || s.becalmedOn dev x.1 then 0 else min 320 (n + 1)
      (x.1, { x.2 with interest := SMap.put x.2.interest dev n })
  { s with cores := s.cores.map older }

/-- `ALLOWANCE_REGRANT` (R349): every 64 flit times the grants of the allowance set toward a device are raised. -/
def execAllowanceRegrant (dev : Nat) (s : State) : Res :=
  if dev = s.self || 16 ≤ dev || !s.present.getLsbD dev then notDue s
  else
    let grants := (List.range 193).foldl (fun n c => n + SMap.getD (s.core c).sa dev 0) 0
    let f : Int := (s.poolSize dev : Int) - (s.pool dev).outstanding - grants
    let a := s.allowanceSet dev
    let sorted := a.mergeSort fun c d =>
      let gc := SMap.getD (s.core c).sa dev 0
      let gd := SMap.getD (s.core d).sa dev 0
      gc < gd || (gc = gd && c ≤ d)
    .next ((s.raiseGrants dev (min 4095 (s.poolSize dev / max 1 a.length)) sorted f).passRegrant dev)

/-- `GRANT_RETURN` (R349): a core that left the allowance set 16,384 flit times ago, 256 regrants, returns its grant. -/
def execGrantReturn (dev core : Nat) (s : State) : Res :=
  let c := s.core core
  if (s.allowanceSet dev).contains core || !(SMap.get? c.interest dev).any (320 ≤ ·) then notDue s
  else .next (s.setCore core { c with sa := SMap.del c.sa dev, interest := SMap.del c.interest dev })

/-- A becalmed warp is one that still waits for the device's allowance. -/
def State.stillBecalmed (s : State) (dev key : Nat) : Bool :=
  match SMap.get? s.warps (key % 2 ^ 20) with
  | some w => w.wait == some (.becalmed dev)
  | none => false

/-- Flits of allowance that the word of a becalmed warp needs. -/
def becalmedNeed (key : Nat) : Nat := if 2 ^ 20 ≤ key then 2 else 1

/-- The allowance of a core that warps woken before will draw: they run and have not issued since. -/
def State.promised (s : State) (dev core : Nat) : Nat :=
  (s.pool dev).woken.foldl (fun n x =>
    let k := x.1 % 2 ^ 20
    if k / 64 = core && (SMap.get? s.warps k).any (fun w => w.wait.isNone && w.issues = x.2) then n + becalmedNeed x.1 else n) 0

/-- The first warp of a list, in the order in which they were becalmed, whose core's allowance covers it: cores do not wait for one
another, and no warp passes one of its own core (R355). -/
def State.nextWake (s : State) (dev : Nat) : List Nat → List Nat → Option Nat
  | _, [] => none
  | passed, key :: rest =>
    let core := key % 2 ^ 20 / 64
    if !passed.contains core && s.promised dev core + becalmedNeed key ≤ s.allowance core dev then some key
    else s.nextWake dev (core :: passed) rest

/-- `BECALMED_WAKE` (R355): a warp becalmed toward a device wakes once its core's allowance covers its need beside those that woke
before it. -/
def execBecalmedWake (dev : Nat) (s : State) : Res :=
  let p := s.pool dev
  match s.nextWake dev [] (p.becalmed.filter (s.stillBecalmed dev)) with
  | none => notDue s
  | some key =>
    let k := key % 2 ^ 20
    match SMap.get? s.warps k with
    | none => notDue s
    | some w =>
      let live := p.woken.filter fun x => (SMap.get? s.warps (x.1 % 2 ^ 20)).any fun w => w.wait.isNone && w.issues = x.2
      let p := { p with becalmed := p.becalmed.filter fun x => x != key && s.stillBecalmed dev x, woken := live ++ [(key, w.issues)] }
      .next ((s.setPool dev p).setWarp (k / 64) (k % 64) { w with wait := none })

/-! ### Loss of a device (R314, R352) -/

/-- The device's transfers toward a lost one end with outcome 5 (R242). -/
def Entry.afterLoss (dev : Nat) (e : Entry) : Entry :=
  let lost : Bool := match e.kind with
    | .xfer => e.args.getD 5 0 = dev && !(e.acc = 2 && e.owed = 0)
    | .xmc => (listDevs (e.args.getD 2 0)).contains dev && !(e.acc = 2 && e.owed = 0)
    | _ => false
  if lost then { e with acc := 2, owed := 0, outcome := 5, started := true, fid := none } else e

/-- Warps that wait for a line of a lost device, or for allowance toward it, go on; their words find it absent. -/
def Warp.afterLoss (dev : Nat) (w : Warp) : Warp :=
  match w.wait with
  | some (.line (.line n)) => if n / 2 ^ 41 = dev then { w with wait := none } else w
  | some (.becalmed d) => if d = dev then { w with wait := none } else w
  | _ => w

/-- What a lost device held or owed is given up: recalls and updates go on without it, grants toward it are over (R349). -/
def State.forget (s : State) (dev : Nat) : State :=
  let pages := s.recalls.filterMap fun r => if r.owed.contains dev then some r.page else none
  let s := pages.foldl (fun s p => s.ackRecall dev (if 2 ^ 40 ≤ p then p - 2 ^ 40 else s.self * 2 ^ 36 + p)) s
  let keep := s.pages.filterMap fun (p : Nat × Page) => match p.2.state with
    | .lent d => if d = dev then none else some p
    | .shared xs =>
      let ys := xs.erase dev
      if ys.isEmpty then none else some (p.1, { p.2 with state := .shared ys })
  let s := { s with
    pages := keep
    held := s.held.filter fun e => 2 ^ 46 ≤ e.1 || e.1 / 2 ^ 41 != dev
    wanted := s.wanted.filter fun e => 2 ^ 46 ≤ e.1 || e.1 / 2 ^ 41 != dev
    revoked := s.revoked.filter fun n => n / 2 ^ 41 != dev
    owedStatus := s.owedStatus.filter fun x => x.2.1 != dev
    cores := s.cores.map fun (x : Nat × Core) => (x.1, { x.2 with sa := SMap.del x.2.sa dev, interest := SMap.del x.2.interest dev })
    peerWait := s.peerWait.filter fun x => x.src != dev }
  let s := (s.updates.filter fun u => u.2.core = 256 + dev).foldl (fun s u => s.endUpdate u.1) s
  let lines := s.updates.filterMap fun u => if u.2.owed.contains (256 + dev) then some u.1 else none
  lines.foldl (fun s n => s.ackUpdate n (256 + dev)) s

/-- Flits toward a device that is lost, queued or not acknowledged, are over, with what waits for them. -/
def State.dropFlits (s : State) (dev : Nat) : State :=
  let queued := (SMap.getD s.hubq dev []).map (·.ack)
  let sent := s.ports.flatMap fun p => (p.2.replay.filter fun r => r.flit.dst = dev).map (·.ack)
  let s := { s with
    hubq := SMap.del s.hubq dev
    ports := s.ports.map fun (p : Nat × Port) => (p.1, { p.2 with replay := p.2.replay.filter fun r => r.flit.dst != dev }) }
  (queued ++ sent).foldl (fun s a => match a with
    | .relay r => s.rxDone (some r)
    | .store o line => s.performed o line
    | .declare core slot => s.declareDone core slot
    | _ => s) s

/-- Contexts that had blocks on a device (R314): those of launches that placed blocks there, of blocks that its scheduler placed
here, and those that the device said it runs. -/
def State.ctxsOn (s : State) (dev : Nat) : List Nat :=
  (((s.launches.filter fun l => (l.2.remotePlaced.any fun r => r.1 = dev) || l.2.home.any fun h => h.1 = dev).map fun l => l.2.ctx) ++
    ((s.ctxDevs.filter fun x => x.1 = dev).map (·.2))).eraseDups

/-- `DEVICE_LOST` (R314): no path to a device for 10^6 flit times. The other devices learn which contexts had blocks there. -/
def execDeviceLost (dev : Nat) (s : State) : Res :=
  if dev = s.self || 16 ≤ dev || !s.present.getLsbD dev || !(s.pathPorts dev).isEmpty then notDue s
  else
    let ctxs := s.ctxsOn dev
    let objs := (s.objs.filter fun o => o.2.domain && o.2.live && ctxs.contains o.2.ctx && (o.2.home = s.self || o.2.home = dev)).map (·.1)
    let s := s.loseMembers fun p => p.members.getLsbD dev
    let s := objs.foldl (fun s n => s.stopObj n 4) s
    let s := s.dropFlits dev
    let s := { s with
      present := s.present &&& ~~~(BitVec.ofNat 16 (2 ^ dev))
      pools := SMap.del s.pools dev
      entries := s.entries.map fun (e : Nat × Entry) => (e.1, e.2.afterLoss dev)
      warps := s.warps.map fun (w : Nat × Warp) => (w.1, w.2.afterLoss dev) }
    let s := ctxs.foldl (fun s c => s.others.foldl (fun s d => s.sendMsg 192 d false true (.lost c)) s) s
    .next (s.forget dev).retryAll

end Sys2Proof.Machine
end

