-- ==== Sys2Proof/Machine/Float.lean ====
section
/-! DEFINITION. Floating point (R156 to R170) and the float words of the main file (R179): signalling values trap before
anything is written (R25, R26), flags are sticky (R50). -/
namespace Sys2Proof.Machine

/-- A launch marker (R24, R25). -/
def isMarker (x : Word) : Bool := 0x7FA00000 ≤ x.toNat && x.toNat ≤ 0x7FA0008F

/-- A signalling NaN of a format. -/
def signals (f : Fmt) (x : Nat) : Bool := f.val x == .nan true

/-- A float source for the check of R25: in lane `l`, the register code and its pattern when it signals. -/
abbrev FSrc := Fin 32 → Option (Nat × Word)

/-- The code of a near operand in `sr.trapinfo` (R395). -/
def nearCode : Near → Nat
  | .q n => n.val | .y n => 16 + n.val | .s n => 20 + n.val | .k n => 28 + n.val

/-- An FP32 source. -/
def src32 (w : Warp) (n : Near) : FSrc := fun l =>
  let x := w.read32 .f32 n l
  if isMarker x || signals fp32 x.toNat then some (nearCode n, x) else none

/-- A packed 16-bit source in a format: either element or the whole pattern signals (R165). -/
def srcPacked (w : Warp) (f : Fmt) (ty : ElemTy) (n : Near) : FSrc := fun l =>
  let x := w.read32 ty n l
  if isMarker x || signals f (bits x.toNat 0 16) || signals f (bits x.toNat 16 16) then some (nearCode n, x) else none

/-- An FP64 source (R25): the register of the pair that holds a marker, the even one when both do, else the odd one. -/
def src64 (w : Warp) (n : Near) : FSrc := fun l =>
  let lo := w.readAt n 0 l
  let hi := w.readAt n 1 l
  if isMarker lo then some (nearCode n, lo)
  else if isMarker hi then some (nearCode n + 1, hi)
  else if signals fp64 (hi ++ lo).toNat then some (nearCode n + 1, hi)
  else none

/-- An integer source of a conversion: only markers count (R169). -/
def srcInt (w : Warp) (n : Near) : FSrc := fun l =>
  let x := w.read32 .int n l
  if isMarker x then some (nearCode n, x) else none

/-- A main-file register that is read as FP32 (R157). -/
def srcV (w : Warp) (v : Nat) : FSrc := fun l =>
  let x := w.readV v l
  if isMarker x || signals fp32 x.toNat then some (0x800 + v, x) else none

/-- The `SNAN_USE` trap of a word (R25, R26): the lowest lane, its first source in field order. -/
def snanTrap (act : LaneSet) (srcs : List FSrc) : Option Trap :=
  (LaneSet.list act).findSome? fun l =>
    (srcs.findSome? fun src => src l).map fun r =>
      { kind := .snanUse, lane := l.val, aux := r.1, pattern := r.2 }

/-- ORs flags over the active lanes (R50). -/
def orFlags (act : LaneSet) (f : Fin 32 → Nat) : Word :=
  (LaneSet.list act).foldl (fun x l => x ||| BitVec.ofNat 32 (f l)) 0

/-- The lanes whose result saturated, as a mask. -/
def satMask (act : LaneSet) (f : Fin 32 → Bool) : Word :=
  LaneSet.mask (Lanes.ofFn fun l => act[l] && f l)

/-- Adds sticky bits that arrive after `lat` clocks (R153). -/
def Warp.addSticky (w : Warp) (lat : Nat) (sat fflags : Word) : Warp :=
  { w with regs := { w.regs with sticky := w.regs.sticky ++ [{ due := w.clk + lat, sat := sat, fflags := fflags }] } }

/-- The F pipe of the partition takes no other word for `extra` clocks after this one (R158). -/
def Warp.occupy (w : Warp) (extra : Nat) : Warp := { w with fFree := w.clk + 1 + extra }

/-- The extra clocks of a word that `k` threads execute at `width` lanes per clock (R158). -/
def extraClocks (k width : Nat) : Nat := (k + width - 1) / width - 1

/-- An F-pipe word with a 32-bit result: check, compute, write, flags (R157). -/
def fword32 (i : Instr) (h : Hdr) (d : Near) (s : State) (lat width : Nat) (srcs : Warp → List FSrc)
    (f : Warp → Fin 32 → FOut) : Res :=
  regWordT i h s [] fun cur act w =>
    match snanTrap act (srcs cur.before) with
    | some t => .error t
    | none =>
      let extra := extraClocks (LaneSet.count cur.lanes) width
      let out := f cur.before
      .ok (((w.put32 d act (fun l => BitVec.ofNat 32 (out l).val) (lat + extra)).addSticky (lat + extra) 0
        (orFlags act fun l => (out l).flags)).occupy extra)

/-- An F-pipe word with a 64-bit result. -/
def fword64 (i : Instr) (h : Hdr) (d : Near) (s : State) (lat width : Nat) (srcs : Warp → List FSrc)
    (f : Warp → Fin 32 → FOut) : Res :=
  regWordT i h s [] fun cur act w =>
    match snanTrap act (srcs cur.before) with
    | some t => .error t
    | none =>
      let extra := extraClocks (LaneSet.count cur.lanes) width
      let out := f cur.before
      .ok (((w.put64 d act (fun l => BitVec.ofNat 64 (out l).val) (lat + extra)).addSticky (lat + extra) 0
        (orFlags act fun l => (out l).flags)).occupy extra)

/-- An FP32 operand's value. -/
def f32At (w : Warp) (n : Near) (l : Fin 32) : FVal := fp32.val (w.read32 .f32 n l).toNat

/-- An FP64 operand's value. -/
def f64At (w : Warp) (n : Near) (l : Fin 32) : FVal := fp64.val (w.read64 n l).toNat

/-! ### FP32 (R159 to R164) -/

/-- An FP32 word of two sources. -/
def f32two (i : Instr) (h : Hdr) (d a b : Near) (s : State) (f : FVal → FVal → FOut) : Res :=
  fword32 i h d s 4 32 (fun w => [src32 w a, src32 w b]) fun w l => f (f32At w a l) (f32At w b l)

/-- `FADD.f32` (R159). -/
def execFaddF32 (h : Hdr) (d a b : Near) (s : State) : Res := f32two (.faddF32 h d a b) h d a b s fp32.add
/-- `FSUB.f32` (R159). -/
def execFsubF32 (h : Hdr) (d a b : Near) (s : State) : Res :=
  f32two (.fsubF32 h d a b) h d a b s fun x y => fp32.add x y.neg
/-- `FMUL.f32` (R159). -/
def execFmulF32 (h : Hdr) (d a b : Near) (s : State) : Res := f32two (.fmulF32 h d a b) h d a b s fp32.mul
/-- `FFMA.f32` (R159): d is the addend. -/
def execFfmaF32 (h : Hdr) (d a b : Near) (s : State) : Res :=
  fword32 (.ffmaF32 h d a b) h d s 4 32 (fun w => [src32 w a, src32 w b, src32 w d])
    fun w l => fp32.fma (f32At w a l) (f32At w b l) (f32At w d l)
/-- `FMIN.f32` and `FMAX.f32` (R160). -/
def f32minMax (i : Instr) (h : Hdr) (d a b : Near) (s : State) (max : Bool) : Res :=
  fword32 i h d s 4 32 (fun w => [src32 w a, src32 w b])
    fun w l => ⟨fp32.minMax max (w.read32 .f32 a l).toNat (w.read32 .f32 b l).toNat, 0⟩
/-- `FMIN.f32` (R160). -/
def execFminF32 (h : Hdr) (d a b : Near) (s : State) : Res := f32minMax (.fminF32 h d a b) h d a b s false
/-- `FMAX.f32` (R160). -/
def execFmaxF32 (h : Hdr) (d a b : Near) (s : State) : Res := f32minMax (.fmaxF32 h d a b) h d a b s true
/-- An FP32 word of one source given by its pattern. -/
def f32one (i : Instr) (h : Hdr) (d a : Near) (s : State) (f : Nat → FOut) : Res :=
  fword32 i h d s 4 32 (fun w => [src32 w a]) fun w l => f (w.read32 .f32 a l).toNat
/-- A sign operation: NaNs become canonical (R47, R161). -/
def signOp (f : Nat → Nat) (x : Nat) : FOut := ⟨if (fp32.val x).isNan then fp32.nan else f x, 0⟩
/-- `FABS.f32` (R161). -/
def execFabsF32 (h : Hdr) (d a : Near) (s : State) : Res :=
  f32one (.fabsF32 h d a) h d a s (signOp fun x => x % 2 ^ 31)
/-- `FNEG.f32` (R161). -/
def execFnegF32 (h : Hdr) (d a : Near) (s : State) : Res :=
  f32one (.fnegF32 h d a) h d a s (signOp fun x => (x + 2 ^ 31) % 2 ^ 32)
/-- The mode a selector from 28 up names (R49). -/
def rndOf : Nat → Rnd
  | 0 => .rne | 1 => .rz | 2 => .ru | _ => .rd
/-- `FRND.f32` (R163). -/
def execFrndF32 (h : Hdr) (d a b : Near) (s : State) : Res :=
  let mode := match b with
    | .k n => rndOf n.val
    | _ => .rne
  f32one (.frndF32 h d a b) h d a s fun x => ⟨frnd mode x, 0⟩
/-- `FSCALE.f32` (R162): b is a signed integer. -/
def execFscaleF32 (h : Hdr) (d a b : Near) (s : State) : Res :=
  fword32 (.fscaleF32 h d a b) h d s 4 32 (fun w => [src32 w a, srcInt w b])
    fun w l => fscale (w.read32 .f32 a l).toNat (w.read32 .int b l).toInt
/-- A special function (R51), at a quarter of the lane rate (R158). -/
def fspecial (i : Instr) (h : Hdr) (d a : Near) (s : State) (g : Special) : Res :=
  fword32 i h d s 8 8 (fun w => [src32 w a]) fun w l => g.apply (f32At w a l)
/-- `FRCP.f32` (R51). -/
def execFrcpF32 (h : Hdr) (d a : Near) (s : State) : Res := fspecial (.frcpF32 h d a) h d a s .rcp
/-- `FRSQ.f32` (R51). -/
def execFrsqF32 (h : Hdr) (d a : Near) (s : State) : Res := fspecial (.frsqF32 h d a) h d a s .rsq
/-- `FSQRT.f32` (R51). -/
def execFsqrtF32 (h : Hdr) (d a : Near) (s : State) : Res := fspecial (.fsqrtF32 h d a) h d a s .sqrt
/-- `FEX2.f32` (R51). -/
def execFex2F32 (h : Hdr) (d a : Near) (s : State) : Res := fspecial (.fex2F32 h d a) h d a s .ex2
/-- `FLG2.f32` (R51). -/
def execFlg2F32 (h : Hdr) (d a : Near) (s : State) : Res := fspecial (.flg2F32 h d a) h d a s .lg2
/-- `FCLASS.f32` (R164): never traps. -/
def execFclassF32 (h : Hdr) (d a : Near) (s : State) : Res :=
  regWord (.fclassF32 h d a) h s (f := fun before act w =>
    w.put32 d act (fun l => BitVec.ofNat 32 (fclass (before.read32 .f32 a l).toNat)) 4)

/-! ### Packed 16-bit floats (R165, R166) -/

/-- Element `j` of a packed operand. -/
def half (x : Word) (j : Nat) : Nat := bits x.toNat (16 * j) 16

/-- Both elements of a packed result; their flags are ORed. -/
def packHalves (f : Nat → FOut) : FOut :=
  ⟨(f 0).val + (f 1).val * 2 ^ 16, (BitVec.ofNat 32 (f 0).flags ||| BitVec.ofNat 32 (f 1).flags).toNat⟩

/-- A packed word of two sources in format `fm` (R165). -/
def packed2 (fm : Fmt) (ty : ElemTy) (i : Instr) (h : Hdr) (d a b : Near) (s : State) (f : Nat → Nat → FOut) : Res :=
  fword32 i h d s 4 32 (fun w => [srcPacked w fm ty a, srcPacked w fm ty b]) fun w l =>
    packHalves fun j => f (half (w.read32 ty a l) j) (half (w.read32 ty b l) j)

/-- A packed multiply-add that also reads d. -/
def packed3 (fm : Fmt) (ty : ElemTy) (i : Instr) (h : Hdr) (d a b : Near) (s : State) : Res :=
  fword32 i h d s 4 32 (fun w => [srcPacked w fm ty a, srcPacked w fm ty b, srcPacked w fm ty d]) fun w l =>
    packHalves fun j => fm.fma (fm.val (half (w.read32 ty a l) j)) (fm.val (half (w.read32 ty b l) j))
      (fm.val (half (w.read32 ty d l) j))

/-- `FDOT2` (R166): two product leaves, flushed, added as a tree node, then added to d. -/
def fdot2 (fm : Fmt) (ty : ElemTy) (i : Instr) (h : Hdr) (d a b : Near) (s : State) : Res :=
  fword32 i h d s 4 32 (fun w => [srcPacked w fm ty a, srcPacked w fm ty b, src32 w d]) fun w l =>
    let prod := fun (j : Nat) => fp32.mul (fm.val (half (w.read32 ty a l) j)) (fm.val (half (w.read32 ty b l) j))
    let node := treeAddF (ingress (prod 0).val) (ingress (prod 1).val)
    let sum := treeAddF (w.read32 .f32 d l).toNat node.val
    ⟨sum.val, (BitVec.ofNat 32 (prod 0).flags ||| BitVec.ofNat 32 (prod 1).flags ||| BitVec.ofNat 32 node.flags |||
      BitVec.ofNat 32 sum.flags).toNat⟩

/-- `FADD.f16x2` (R165). -/
def execFaddF16x2 (h : Hdr) (d a b : Near) (s : State) : Res :=
  packed2 fp16 .f16x2 (.faddF16x2 h d a b) h d a b s fun x y => fp16.add (fp16.val x) (fp16.val y)
/-- `FSUB.f16x2` (R165). -/
def execFsubF16x2 (h : Hdr) (d a b : Near) (s : State) : Res :=
  packed2 fp16 .f16x2 (.fsubF16x2 h d a b) h d a b s fun x y => fp16.add (fp16.val x) (fp16.val y).neg
/-- `FMUL.f16x2` (R165). -/
def execFmulF16x2 (h : Hdr) (d a b : Near) (s : State) : Res :=
  packed2 fp16 .f16x2 (.fmulF16x2 h d a b) h d a b s fun x y => fp16.mul (fp16.val x) (fp16.val y)
/-- `FFMA.f16x2` (R165). -/
def execFfmaF16x2 (h : Hdr) (d a b : Near) (s : State) : Res := packed3 fp16 .f16x2 (.ffmaF16x2 h d a b) h d a b s
/-- `FMIN.f16x2` (R165). -/
def execFminF16x2 (h : Hdr) (d a b : Near) (s : State) : Res :=
  packed2 fp16 .f16x2 (.fminF16x2 h d a b) h d a b s fun x y => ⟨fp16.minMax false x y, 0⟩
/-- `FMAX.f16x2` (R165). -/
def execFmaxF16x2 (h : Hdr) (d a b : Near) (s : State) : Res :=
  packed2 fp16 .f16x2 (.fmaxF16x2 h d a b) h d a b s fun x y => ⟨fp16.minMax true x y, 0⟩
/-- `FDOT2.f16x2` (R166). -/
def execFdot2F16x2 (h : Hdr) (d a b : Near) (s : State) : Res := fdot2 fp16 .f16x2 (.fdot2F16x2 h d a b) h d a b s
/-- `FADD.bf16x2` (R165). -/
def execFaddBf16x2 (h : Hdr) (d a b : Near) (s : State) : Res :=
  packed2 bf16 .bf16x2 (.faddBf16x2 h d a b) h d a b s fun x y => bf16.add (bf16.val x) (bf16.val y)
/-- `FSUB.bf16x2` (R165). -/
def execFsubBf16x2 (h : Hdr) (d a b : Near) (s : State) : Res :=
  packed2 bf16 .bf16x2 (.fsubBf16x2 h d a b) h d a b s fun x y => bf16.add (bf16.val x) (bf16.val y).neg
/-- `FMUL.bf16x2` (R165). -/
def execFmulBf16x2 (h : Hdr) (d a b : Near) (s : State) : Res :=
  packed2 bf16 .bf16x2 (.fmulBf16x2 h d a b) h d a b s fun x y => bf16.mul (bf16.val x) (bf16.val y)
/-- `FFMA.bf16x2` (R165). -/
def execFfmaBf16x2 (h : Hdr) (d a b : Near) (s : State) : Res := packed3 bf16 .bf16x2 (.ffmaBf16x2 h d a b) h d a b s
/-- `FMIN.bf16x2` (R165). -/
def execFminBf16x2 (h : Hdr) (d a b : Near) (s : State) : Res :=
  packed2 bf16 .bf16x2 (.fminBf16x2 h d a b) h d a b s fun x y => ⟨bf16.minMax false x y, 0⟩
/-- `FMAX.bf16x2` (R165). -/
def execFmaxBf16x2 (h : Hdr) (d a b : Near) (s : State) : Res :=
  packed2 bf16 .bf16x2 (.fmaxBf16x2 h d a b) h d a b s fun x y => ⟨bf16.minMax true x y, 0⟩
/-- `FDOT2.bf16x2` (R166). -/
def execFdot2Bf16x2 (h : Hdr) (d a b : Near) (s : State) : Res := fdot2 bf16 .bf16x2 (.fdot2Bf16x2 h d a b) h d a b s

/-! ### FP64 (R167), 16 lanes per clock -/

/-- An FP64 word of two sources. -/
def f64two (i : Instr) (h : Hdr) (d a b : Near) (s : State) (f : Nat → Nat → FOut) : Res :=
  fword64 i h d s 4 16 (fun w => [src64 w a, src64 w b]) fun w l => f (w.read64 a l).toNat (w.read64 b l).toNat

/-- `FADD.f64` (R167). -/
def execFaddF64 (h : Hdr) (d a b : Near) (s : State) : Res :=
  f64two (.faddF64 h d a b) h d a b s fun x y => fp64.add (fp64.val x) (fp64.val y)
/-- `FSUB.f64` (R167). -/
def execFsubF64 (h : Hdr) (d a b : Near) (s : State) : Res :=
  f64two (.fsubF64 h d a b) h d a b s fun x y => fp64.add (fp64.val x) (fp64.val y).neg
/-- `FMUL.f64` (R167). -/
def execFmulF64 (h : Hdr) (d a b : Near) (s : State) : Res :=
  f64two (.fmulF64 h d a b) h d a b s fun x y => fp64.mul (fp64.val x) (fp64.val y)
/-- `FFMA.f64` (R167): d is the addend. -/
def execFfmaF64 (h : Hdr) (d a b : Near) (s : State) : Res :=
  fword64 (.ffmaF64 h d a b) h d s 4 16 (fun w => [src64 w a, src64 w b, src64 w d])
    fun w l => fp64.fma (f64At w a l) (f64At w b l) (f64At w d l)
/-- `FMIN.f64` (R167). -/
def execFminF64 (h : Hdr) (d a b : Near) (s : State) : Res :=
  f64two (.fminF64 h d a b) h d a b s fun x y => ⟨fp64.minMax false x y, 0⟩
/-- `FMAX.f64` (R167). -/
def execFmaxF64 (h : Hdr) (d a b : Near) (s : State) : Res :=
  f64two (.fmaxF64 h d a b) h d a b s fun x y => ⟨fp64.minMax true x y, 0⟩

/-! ### Compares (R145) -/

/-- The conditions of `FCMP`. -/
inductive FCond where
  | eq | ne | lt | le | gt | ge
deriving DecidableEq, Repr

/-- A compare's truth value and flags: an ordered condition of a NaN is false and sets nv for lt, le, gt, ge. -/
def FCond.holds (c : FCond) (x y : FVal) : Bool × Nat :=
  if x.isNan || y.isNan then
    match c with
    | .eq => (false, 0)
    | .ne => (true, 0)
    | _ => (false, fNv)
  else
    (match c with
     | .eq => x.feq y
     | .ne => !x.feq y
     | .lt => x.lt y
     | .le => x.lt y || x.feq y
     | .gt => y.lt x
     | .ge => y.lt x || x.feq y, 0)

/-- A float compare. -/
def fcmp (i : Instr) (h : Hdr) (acc : Bool) (pd : Fin 16) (s : State) (width : Nat) (srcs : Warp → List FSrc)
    (f : Warp → Fin 32 → Bool × Nat) : Res :=
  regWordT i h s [] fun cur act w =>
    match snanTrap act (srcs cur.before) with
    | some t => .error t
    | none =>
      let extra := extraClocks (LaneSet.count cur.lanes) width
      let out := f cur.before
      .ok (((w.setP pd.val act (fun l => (out l).1 && (!acc || cur.before.readP pd.val l)) (4 + extra)).addSticky
        (4 + extra) 0 (orFlags act fun l => (out l).2)).occupy extra)

/-- An FP32 compare. -/
def fcmp32 (i : Instr) (h : Hdr) (acc : Bool) (pd : Fin 16) (a b : Near) (c : FCond) (s : State) : Res :=
  fcmp i h acc pd s 32 (fun w => [src32 w a, src32 w b]) fun w l => c.holds (f32At w a l) (f32At w b l)

/-- An FP64 compare. -/
def fcmp64 (i : Instr) (h : Hdr) (acc : Bool) (pd : Fin 16) (a b : Near) (c : FCond) (s : State) : Res :=
  fcmp i h acc pd s 16 (fun w => [src64 w a, src64 w b]) fun w l => c.holds (f64At w a l) (f64At w b l)

/-- `FCMP.eq.f32` (R145). -/
def execFcmpEqF32 (h : Hdr) (acc : Bool) (pd : Fin 16) (a b : Near) (s : State) : Res :=
  fcmp32 (.fcmpEqF32 h acc pd a b) h acc pd a b .eq s
/-- `FCMP.ne.f32` (R145). -/
def execFcmpNeF32 (h : Hdr) (acc : Bool) (pd : Fin 16) (a b : Near) (s : State) : Res :=
  fcmp32 (.fcmpNeF32 h acc pd a b) h acc pd a b .ne s
/-- `FCMP.lt.f32` (R145). -/
def execFcmpLtF32 (h : Hdr) (acc : Bool) (pd : Fin 16) (a b : Near) (s : State) : Res :=
  fcmp32 (.fcmpLtF32 h acc pd a b) h acc pd a b .lt s
/-- `FCMP.le.f32` (R145). -/
def execFcmpLeF32 (h : Hdr) (acc : Bool) (pd : Fin 16) (a b : Near) (s : State) : Res :=
  fcmp32 (.fcmpLeF32 h acc pd a b) h acc pd a b .le s
/-- `FCMP.gt.f32` (R145). -/
def execFcmpGtF32 (h : Hdr) (acc : Bool) (pd : Fin 16) (a b : Near) (s : State) : Res :=
  fcmp32 (.fcmpGtF32 h acc pd a b) h acc pd a b .gt s
/-- `FCMP.ge.f32` (R145). -/
def execFcmpGeF32 (h : Hdr) (acc : Bool) (pd : Fin 16) (a b : Near) (s : State) : Res :=
  fcmp32 (.fcmpGeF32 h acc pd a b) h acc pd a b .ge s
/-- `FCMP.lt.f64` (R145). -/
def execFcmpLtF64 (h : Hdr) (acc : Bool) (pd : Fin 16) (a b : Near) (s : State) : Res :=
  fcmp64 (.fcmpLtF64 h acc pd a b) h acc pd a b .lt s
/-- `FCMP.eq.f64` (R145). -/
def execFcmpEqF64 (h : Hdr) (acc : Bool) (pd : Fin 16) (a b : Near) (s : State) : Res :=
  fcmp64 (.fcmpEqF64 h acc pd a b) h acc pd a b .eq s

/-! ### Conversions (R168 to R170) -/

/-- A conversion's result: pattern, flags, saturation. -/
structure COut where
  val : Nat
  flags : Nat
  sat : Bool

/-- A float result. -/
def FOut.conv (x : FOut) : COut := ⟨x.val, x.flags, false⟩

/-- An integer result of 32 bits. -/
def IOut.conv (x : IOut) : COut := ⟨(BitVec.ofInt 32 x.val).toNat, x.flags, x.sat⟩

/-- Rounds into a format: in a mode, or by ordered dither at a position and phase. -/
abbrev Rounder := Fmt → Nat → FVal → FOut

/-- The result of conversion code `code` of the 64-bit pattern `x` (a 32-bit source in its low word) (R168, R169). -/
def convert (code : Nat) (rnd : Rounder) (x : Nat) : COut :=
  let mode := rndOf (code % 4)
  let lo := bits x 0 32
  let hi := bits x 32 32
  match code / 4 with
  | 0 => (toInteger mode (-(2 ^ 31)) (2 ^ 31 - 1) (fp32.val lo)).conv
  | 1 => (toInteger mode 0 (2 ^ 32 - 1) (fp32.val lo)).conv
  | 2 => (rnd fp32 0 (fp64.val x)).conv
  | 3 => (toInteger mode (-(2 ^ 31)) (2 ^ 31 - 1) (fp64.val x)).conv
  | 4 => (packHalves fun j => rnd bf16 j (fp32.val (if j = 0 then lo else hi))).conv
  | 5 => (packHalves fun j => rnd fp16 j (fp32.val (if j = 0 then lo else hi))).conv
  | 6 =>
    let m := rndOf (code % 2)
    if code < 26 then (ofInteger fp32 m (BitVec.ofNat 32 lo).toInt).conv else (ofInteger fp32 m lo).conv
  | _ =>
    match code with
    | 28 => ⟨(fp32.convert .rne (fp16.val (bits x 0 16))).val + (fp32.convert .rne (fp16.val (bits x 16 16))).val * 2 ^ 32, 0, false⟩
    | 29 => ⟨(fp32.convert .rne (bf16.val (bits x 0 16))).val + (fp32.convert .rne (bf16.val (bits x 16 16))).val * 2 ^ 32, 0, false⟩
    | 30 => ⟨(fp64.convert .rne (fp32.val lo)).val, 0, false⟩
    | _ => ⟨(ofInteger fp64 .rne (BitVec.ofNat 32 lo).toInt).val, 0, false⟩

/-- Sources of a conversion and how they signal (R25, R169); of a pair the even register first (DESIGN CHOICE, log entry 103). -/
def convertSrcs (code : Nat) (a : Near) (w : Warp) : List FSrc :=
  if code < 8 ∨ code = 30 then [src32 w a]
  else if code < 16 then [src64 w a]
  else if code < 24 then [src32 w a, fun l =>
    let x := w.readAt a 1 l
    if isMarker x || signals fp32 x.toNat then some (nearCode a + 1, x) else none]
  else if code < 28 ∨ code = 31 then [srcInt w a]
  else if code = 28 then [srcPacked w fp16 .f16x2 a]
  else [srcPacked w bf16 .bf16x2 a]

/-- The element type of a 32-bit conversion source (R111). -/
def convertTy (code : Nat) : ElemTy :=
  if code < 8 ∨ code = 30 then .f32 else if code = 28 then .f16x2 else if code = 29 then .bf16x2 else .int

/-- The source pattern of a conversion. -/
def convertSource (code : Nat) (a : Near) (w : Warp) (l : Fin 32) : Nat :=
  if 8 ≤ code ∧ code < 24 then (w.read64 a l).toNat else (w.read32 (convertTy code) a l).toNat

/-- `FCVT` and `FCVTD`: `rnd` rounds in lane `l` under phase `phi`. -/
def convertWord (i : Instr) (h : Hdr) (d a : Near) (code : Nat) (s : State)
    (rnd : Nat → Fin 32 → Rounder) : Res :=
  regWordT i h s [] fun cur act w =>
    match snanTrap act (convertSrcs code a cur.before) with
    | some t => .error t
    | none =>
      let wide64 := (8 ≤ code && code < 24) || 28 ≤ code
      let extra := extraClocks (LaneSet.count cur.lanes) (if wide64 then 16 else 32)
      let out := fun (l : Fin 32) => convert code (rnd cur.before.regs.phase.toNat l) (convertSource code a cur.before l)
      let w := if 28 ≤ code then w.put64 d act (fun l => BitVec.ofNat 64 (out l).val) (4 + extra)
        else w.put32 d act (fun l => BitVec.ofNat 32 (out l).val) (4 + extra)
      .ok ((w.addSticky (4 + extra) (satMask act fun l => (out l).sat) (orFlags act fun l => (out l).flags)).occupy extra)

/-- `FCVT` (R169). -/
def execFcvt (h : Hdr) (d a : Near) (code : Fin 32) (s : State) : Res :=
  convertWord (.fcvt h d a code) h d a code.val s fun _ _ f _ v => f.convert (rndOf (code.val % 4)) v
/-- `FCVTD` (R170): ordered dither at position l × e + j. -/
def execFcvtd (h : Hdr) (d a : Near) (code : Fin 32) (s : State) : Res :=
  let e := if code.val = 8 then 1 else 2
  convertWord (.fcvtd h d a code) h d a code.val s fun phi l f j v => f.dither ((l.val * e + j) % 64) phi v

/-! ### Float words of the main file (R179) -/

/-- A main-file float word: reads and writes `v`n, checks its sources, sets flags. -/
def vfloat (i : Instr) (h : Hdr) (v : Nat) (s : State) (srcs : Warp → List FSrc) (f : Warp → Fin 32 → FOut) : Res :=
  regWordT i h s [v] fun cur act w =>
    match snanTrap act (srcs cur.before ++ [srcV cur.before v]) with
    | some t => .error t
    | none =>
      let out := f cur.before
      let g := fun (l : Fin 32) => BitVec.ofNat 32 (out l).val
      .ok (((w.setV v act g 4).shiftY act (fun l => (g l).setWidth 64) 4).addSticky 4 0 (orFlags act fun l => (out l).flags))

/-- `VFMA.f32` (R179). -/
def execVfmaF32 (h : Hdr) (v : Fin 128) (a b : Near) (s : State) : Res :=
  vfloat (.vfmaF32 h v a b) h v.val s (fun w => [src32 w a, src32 w b])
    fun w l => fp32.fma (f32At w a l) (f32At w b l) (fp32.val (w.readV v.val l).toNat)
/-- `VADD.f32` (R179). -/
def execVaddF32 (h : Hdr) (v : Fin 128) (a : Near) (s : State) : Res :=
  vfloat (.vaddF32 h v a) h v.val s (fun w => [src32 w a])
    fun w l => fp32.add (fp32.val (w.readV v.val l).toNat) (f32At w a l)

end Sys2Proof.Machine
end

