-- ==== Sys2Proof/Machine/Iter.lean ====
section
/-! DEFINITION. Iterator records and the words that use them: `ITSET`, `SWEEP` (R234 to R237). -/
namespace Sys2Proof.Machine

/-- Count, stride, index and broadcast bit of dimension `d` of a record (R234). -/
def iterCount (r d : Nat) : Nat := bits r (64 + 32 * d) 32
/-- Signed byte stride. -/
def iterStride (r d : Nat) : Int := sextNat (bits r (192 + 32 * d) 32) 32
/-- Index counter. -/
def iterIdx (r d : Nat) : Nat := bits r (384 + 32 * d) 32
/-- The dimension does not move the address. -/
def iterBcast (r d : Nat) : Bool := bits r (356 + d) 1 = 1
/-- Element type: 0 FP32, 1 BF16, 2 FP16, 3 INT32. -/
def iterType (r : Nat) : Nat := bits r 352 4
/-- Bytes of an element. -/
def iterSize (r : Nat) : Nat := if iterType r = 1 || iterType r = 2 then 2 else 4

/-- A record that `ITSET` rejects (R235). -/
def iterBad (r : Nat) : Bool :=
  bits r 360 24 != 0 || bits r 344 8 != 0 || bits r 320 24 != 0 || 3 < iterType r || bits r 0 64 % iterSize r != 0 ||
    (List.range 4).any fun d => iterCount r d ≤ iterIdx r d

/-- Number of elements of a record. -/
def iterTotal (r : Nat) : Nat := iterCount r 0 * iterCount r 1 * iterCount r 2 * iterCount r 3

/-- Number of the element where the counters stand. -/
def iterPos (r : Nat) : Nat := iterIdx r 0 + iterCount r 0 * (iterIdx r 1 + iterCount r 1 * (iterIdx r 2 + iterCount r 2 * iterIdx r 3))

/-- The address of the element where the counters stand (R234). -/
def iterAddr (r : Nat) : DWord :=
  (List.range 4).foldl (fun a d => if iterBcast r d then a else a + BitVec.ofInt 64 (iterIdx r d * iterStride r d)) (BitVec.ofNat 64 (bits r 0 64))

/-- Sets the counter of a dimension. -/
def iterSet (r d v : Nat) : Nat := setBits r (384 + 32 * d) 32 v

/-- The counters advance, dimension 0 fastest; past the last element they are all 0. -/
def iterNext (r : Nat) : List Nat → Nat
  | [] => r
  | d :: ds => if iterIdx r d + 1 < iterCount r d then iterSet r d (iterIdx r d + 1) else iterNext (iterSet r d 0) ds

/-- The valid record of an iterator register. -/
def Warp.iter (w : Warp) (k : Nat) : Option Nat := (SMap.get? w.regs.iters k).map (·.toNat)

/-- Sets an iterator register. -/
def Warp.setIter (w : Warp) (k r : Nat) : Warp := { w with regs := { w.regs with iters := SMap.put w.regs.iters k (BitVec.ofNat 512 r) } }

/-- Targets of iterator accesses (R184). -/
def plainAccess : Accepts := { mmio := false, host := true }

/-- `ITSET` (R235): one load of the record at the address of the lowest active lane. -/
def execItset (h : Hdr) (it : Fin 8) (a : Near) (s : State) : Res :=
  withWord (.itset h it a) h s fun w cur act =>
    match w.inWindow cur.second 1 [] with
    | none => .next (s.holdWord cur w w.wait)
    | some w1 =>
      if w1.steadyBusy then .next (s.holdWord cur w w.wait)
      else match LaneSet.lowest act with
        | none => finish s cur (w1.advance cur.pc cur.lanes 0)
        | some l =>
          let va := cur.before.read64 a l
          match s.globalLoc w cur.core plainAccess .read 64 va with
          | .error c => trapWord s cur w1 act (c.trap l va .read)
          | .ok loc =>
            let gs := loc.grans 64
            match s.readable loc, s.noWay cur.core (lineNos gs) with
            | false, _ =>
              let (s, why) := s.request cur.core cur.slot loc false
              .next (s.holdWord cur w why)
            | true, some line => .next (s.holdWord cur (w.closeForWay line) w.wait)
            | true, none =>
              let s1 := ((s.cachePages cur.core w.ctx [va.toNat]).fillLines cur.core w.ctx [(va.toNat, loc)]).useLines cur.core [loc] 64 L1Tag.load
              let r := if (s.touch w loc 64).isSome then 0 else leNat (s.loadBytes w loc 64)
              let w1 := (s.noteTouches (w1.addReads gs [va.toNat / 4096]) 64 [(l, loc)]).noteError (s.poisoned [(l, loc)])
              if iterBad r then trapWord s1 cur w1 act { kind := .illegalOperand, lane := lowLane act }
              else finish s1 cur ((w1.setIter it.val r).advance cur.pc cur.lanes 0)

/-! ### SWEEP -/

/-- The float value of an element as FP32 bits (R52): widened exactly, a NaN becomes the canonical one. -/
def iterFloat (ty x : Nat) : Nat :=
  (fp32.convert .rne (match ty with
    | 1 => bf16.val x
    | 2 => fp16.val x
    | _ => fp32.val x)).val

/-- An element that is a signalling NaN sets nv (R236). -/
def iterSignals (ty x : Nat) : Bool :=
  match ty with
  | 1 => signals bf16 x
  | 2 => signals fp16 x
  | 3 => false
  | _ => signals fp32 x

/-- The element result of an operation (R236): bits and flags. -/
def sweepOp (op x y : Nat) : FOut :=
  match op with
  | 0 => ⟨x, 0⟩
  | 1 => fp32.add (fp32.val x) (fp32.val y)
  | 2 => fp32.mul (fp32.val x) (fp32.val y)
  | 3 => fp32.add (fp32.val x) (fp32.val y).neg
  | 4 => ⟨fp32.minMax false x y, 0⟩
  | 5 => ⟨fp32.minMax true x y, 0⟩
  | 6 => ⟨(x + y) % 2 ^ 32, 0⟩
  | _ => ⟨x &&& y, 0⟩

/-- A result, an integer or FP32, as an element of a type (R236, R52): rne. -/
def sweepStore (int : Bool) (ty r : Nat) : FOut :=
  let v := if int then ofInteger fp32 .rne (BitVec.ofNat 32 r).toInt else ⟨r, 0⟩
  match int, ty with
  | true, 3 => ⟨r, 0⟩
  | false, 3 =>
    let x := toInteger .rne (-(2 ^ 31)) (2 ^ 31 - 1) (fp32.val r)
    ⟨(BitVec.ofInt 32 x.val).toNat, x.flags⟩
  | true, 0 => v
  | false, 0 => ⟨r, 0⟩
  | true, 1 => ofInteger bf16 .rne (BitVec.ofNat 32 r).toInt
  | true, _ => ofInteger fp16 .rne (BitVec.ofNat 32 r).toInt
  | false, 1 => bf16.convert .rne (fp32.val r)
  | false, _ => fp16.convert .rne (fp32.val r)

/-- How one element of a sweep ends. -/
inductive SweepEnd where
  | done (s : State) (w : Warp)
  | trap (s : State) (w : Warp) (t : Trap)
  | wait (s : State) (w : Warp) (why : Option Wait)

/-- What the load of an element gives. -/
inductive SweepLoad where
  | value (s : State) (w : Warp) (x : Nat)
  | fault (c : Cause) (va : DWord)
  | wait (loc : Loc)

/-- Loads the element of a record where its counters stand. -/
def State.sweepLoad (s : State) (w : Warp) (cur : Cur) (r : Nat) : SweepLoad :=
  let va := iterAddr r
  let n := iterSize r
  match s.globalLoc w cur.core plainAccess .read n va with
  | .error c => .fault c va
  | .ok loc =>
    if !s.readable loc || (s.noWay cur.core (lineNos (loc.grans n))).isSome then .wait loc
    else
      let x := if (s.touch w loc n).isSome then 0 else leNat (s.bytesAt loc n)
      let s1 := ((s.cachePages cur.core w.ctx [va.toNat]).fillLines cur.core w.ctx [(va.toNat, loc)]).useLines cur.core
        [loc] n L1Tag.load
      .value s1 ((s.noteTouches w n [(0, loc)]).noteError (s.poisoned [(0, loc)])) x

/-- What the store of an element lacks now (R323, R415): the state that asks for it, and what the word waits for. -/
def State.sweepAsk (s : State) (w : Warp) (cur : Cur) (va n x : Nat) (loc : Loc) : Option (State × Option Wait) :=
  if (s.touch w loc n).isSome then none
  else if s.isSync cur.core w.ctx va loc then
    if s.updated cur.core cur.slot loc then none else some (s.sendUpdate cur.core cur.slot loc [(loc.flat.2, bytesLE n x)])
  else if !s.coreWritable cur.core loc then
    match s.request cur.core cur.slot loc true with
    | (s, why) => if s.coreWritable cur.core loc then none else some (s, why)
  else if (s.noWay cur.core (lineNos (loc.grans n))).isSome then some (s, none)
  else none

/-- Stores an element and advances the counters. -/
def State.sweepPut (s : State) (w : Warp) (cur : Cur) (va n x : Nat) (loc : Loc) (next : Warp → Warp) : SweepEnd :=
  let w1 := next (s.noteTouches w n [(0, loc)])
  let s := (s.cachePages cur.core w.ctx [va]).useLines cur.core [loc] n L1Tag.store
  if (s.touch w loc n).isSome then .done s w1
  else .done (s.storeNow (warpKey cur.core cur.slot) [(loc, bytesLE n x)] (s.isSync cur.core w.ctx va loc)) w1

/-- One element (R236): its loads, the operation, its store, the advance of the counters. A conversion to INT32 that is out of range, or
of a NaN, sets nv and no bit of `sr.sat`, since an element has no lane (DESIGN CHOICE, log 72). Where a line is missing it is asked for
and nothing of the element happens yet. -/
def State.sweepElem (s : State) (w : Warp) (cur : Cur) (lane op kd ka kb rd ra rb : Nat) : SweepEnd :=
  let wait := fun (loc : Loc) =>
    let (s, why) := s.request cur.core cur.slot loc false
    SweepEnd.wait s w why
  match s.sweepLoad w cur ra with
  | .fault (.table pa) _ => wait (.mem pa)
  | .fault c va => .trap s w { c.trap 0 va .read with lane := lane }
  | .wait loc => wait loc
  | .value s1 w1 x =>
    match (if op = 0 then SweepLoad.value s1 w1 0 else s1.sweepLoad w1 cur rb) with
    | .fault (.table pa) _ => wait (.mem pa)
    | .fault c va => .trap s1 w1 { c.trap 0 va .read with lane := lane }
    | .wait loc => wait loc
    | .value s2 w2 y =>
      let int : Bool := iterType ra = 3
      let f := fun (ty x : Nat) => if int then x else iterFloat ty x
      let r := sweepOp op (f (iterType ra) x) (f (iterType rb) y)
      let out := sweepStore int (iterType rd) r.val
      let nv := if iterSignals (iterType ra) x || (op != 0 && iterSignals (iterType rb) y) then fNv else 0
      let flags := BitVec.ofNat 32 (nv ||| r.flags ||| out.flags)
      let adv := fun (k : Nat) (w : Warp) => match w.iter k with
        | none => w
        | some r => w.setIter k (iterNext r (List.range 4))
      let va := iterAddr rd
      let n := iterSize rd
      match s.globalLoc w cur.core plainAccess .write n va with
      | .error (.table pa) => wait (.mem pa)
      | .error c => .trap s2 w2 { c.trap 0 va .write with lane := lane }
      | .ok loc =>
        match s.sweepAsk w cur va.toNat n out.val loc with
        | some (s, why) => .wait s w why
        | none => s2.sweepPut w2 cur va.toNat n out.val loc fun w =>
          let w := if flags = 0 then w else w.addSticky 0 0 flags
          ([kd, ka] ++ if op = 0 then [] else [kb]).eraseDups.foldl (fun w k => adv k w) w

/-- The elements from the counters on, in order, until one faults or must wait (R237). -/
def State.sweepRun (cur : Cur) (lane op kd ka kb : Nat) : Nat → State → Warp → SweepEnd
  | 0, s, w => .done s w
  | n + 1, s, w =>
    match w.iter kd, w.iter ka, (if op = 0 then w.iter ka else w.iter kb) with
    | some rd, some ra, some rb =>
      match s.sweepElem w cur lane op kd ka kb rd ra rb with
      | .done s w => State.sweepRun cur lane op kd ka kb n s w
      | other => other
    | _, _, _ => .done s w

/-- The operand checks of a sweep (R236): an iterator is invalid, products differ, types do not suit the operation. -/
def sweepBad (op : Nat) (rd ra rb : Option Nat) : Bool :=
  match rd, ra, rb with
  | some d, some a, some b =>
    let rs := if op = 0 then [d, a] else [d, a, b]
    rs.any (fun r => iterTotal r != iterTotal d) ||
      (1 ≤ op && op ≤ 5 && rs.any fun r => iterType r = 3) || (6 ≤ op && rs.any fun r => iterType r != 3)
  | _, _, _ => true

/-- At the end every counter is 0 (R236). -/
def Warp.clearIter (w : Warp) (k : Nat) : Warp :=
  match w.iter k with
  | none => w
  | some r => w.setIter k ((List.range 4).foldl (fun r d => iterSet r d 0) r)

/-- `SWEEP` (R236, R237). -/
def execSweep (h : Hdr) (op itd ita itb : Fin 8) (s : State) : Res :=
  irrevocable (.sweep h op itd ita itb) h s fun w cur act =>
    let kb := if op.val = 0 then ita.val else itb.val
    if sweepBad op.val (w.iter itd.val) (w.iter ita.val) (w.iter kb) then
      trapWord s cur w act { kind := .illegalOperand, lane := lowLane act }
    else
      let rd := (w.iter itd.val).getD 0
      match State.sweepRun cur (lowLane act) op.val itd.val ita.val kb (iterTotal rd - iterPos rd) s w with
      | .trap s w t => trapWord s cur w act t
      | .wait s w why => .next (s.holdWord cur w why)
      | .done s w =>
        let w := ((w.clearIter itd.val).clearIter ita.val).clearIter kb
        finish s cur (w.advance cur.pc cur.lanes 0)

end Sys2Proof.Machine
end

