-- ==== Sys2Proof/Machine/System.lean ====
section
/-! DEFINITION. `TRAP`, `SVC`, `RFT` and `SNAP` (R245 to R247, R399), aborts (R453) and the stop of a warp (R335). -/
namespace Sys2Proof.Machine

/-- The warp at the trap of a `TRAP` or `SVC` (R246): every issuing thread stands at the next word; as the second word of a pair
neither word takes effect and the threads rest at the first one (R107, R399). -/
def Warp.afterTrap (w : Warp) (cur : Cur) : Warp := if cur.second then w else w.advance cur.pc cur.lanes 0

/-- `TRAP` (R246): `SOFTWARE`, with every issuing thread at the next word. -/
def execTrap (h : Hdr) (code : BitVec 12) (s : State) : Res :=
  irrevocable (.trap h code) h s fun w cur act =>
    trapWord s cur (w.afterTrap cur) act { kind := .software, aux := code.toNat, lane := lowLane act }

/-- `SVC` (R246). -/
def execSvc (h : Hdr) (code : BitVec 12) (s : State) : Res :=
  irrevocable (.svc h code) h s fun w cur act =>
    trapWord s cur (w.afterTrap cur) act { kind := .svc, aux := code.toNat, lane := lowLane act }

/-- `SNAP` (R245): one trigger with its tag and core goes to the root. -/
def execSnap (h : Hdr) (code : BitVec 12) (s : State) : Res :=
  irrevocable (.snap h code) h s fun w cur _ =>
    finish (s.snapTrigger 0 code.toNat cur.core) cur (w.advance cur.pc cur.lanes 0)

/-! ### The stop of a warp (R335, R453) -/

/-- Why a warp that is not in its handler must stop now: an abort of its context, or a pre-emption that names it. -/
def State.mustStop (s : State) (w : Warp) : Option Halt :=
  if s.aborts.contains w.ctx then some .abort
  else match s.preempt with
    | none => none
    | some p => if (p.whole && w.ctx = p.ctx) || p.launches.contains w.launch then some .preempt else none

/-- Every uncommitted window of a warp rolls back, for no trigger (R335). -/
def State.stopWindows (s : State) (core slot : Nat) : State :=
  match s.warp core slot with
  | none => s
  | some w => match w.windows with
    | [] => s
    | x :: _ => s.rollbackTo core slot x.serial false

/-- A warp stops (R335): its uncommitted windows roll back; a word that has not acted waits no longer. (A pair whose first word acted
outside any window still waits to end.) -/
def State.stopWarp (s : State) (core slot : Nat) (why : Halt) : State :=
  let s := s.stopWindows core slot
  match s.warp core slot with
  | none => s
  | some w =>
    let wait := match w.wait with
      | some (.slot n) => some (Wait.slot n)
      | some (.drain ns) => some (.drain ns)
      | some (.pair pc lanes r) => some (.pair pc lanes r)
      | _ => none
    s.setWarp core slot { w.dropPending with halt := some why, wait := wait }

/-- Every resident warp that must stop and is not in its handler stops. -/
def State.stopAll (s : State) : State :=
  (s.warps.map (·.1)).foldl (fun s key => match SMap.get? s.warps key with
    | none => s
    | some w =>
      if w.super || w.halt.isSome then s
      else match s.mustStop w with
        | none => s
        | some why => s.stopWarp (key / 64) (key % 64) why) s

/-- An abort of a context (R453): its warps stop, `SV_ABT` holds it, MSI-X vector 2. -/
def State.abortCtx (s : State) (ctx : Nat) : State :=
  (State.stopAll { s with aborts := if s.aborts.contains ctx then s.aborts else s.aborts ++ [ctx] }).interrupt 2

/-! ### RFT (R247, R399) -/

/-- Reads bytes at a virtual address with supervisor rights, page by page; none where a page refuses. -/
def State.superRead (s : State) (unit ctx : Nat) : Nat → Nat → Nat → Option (List Byte)
  | 0, _, _ => some []
  | fuel + 1, va, n =>
    if n = 0 then some []
    else match s.translateNow unit ctx va { mmio := false, host := false } .read true with
      | .error _ => none
      | .ok loc =>
        let k := min n (4096 - va % 4096)
        (s.superRead unit ctx fuel (va + k) (n - k)).map fun rest => s.bytesAt loc k ++ rest

/-- `n` bytes at an offset of a frame. -/
def frameAt (bs : List Byte) (off n : Nat) : Nat := leNat ((bs.drop off).take n)

/-- An `sr` word of a frame (R397): sat, fflags, rc, mshift, phase, sbchk, tile, itvalid. -/
def frameSr (bs : List Byte) (k : Nat) : Nat := frameAt bs (4144 + 4 * k) 4

/-- The frame says that the warp is killed (R399). -/
def frameKills (bs : List Byte) : Bool :=
  let ctl := frameAt bs 32 4
  let tile := frameSr bs 6
  bits ctl 1 1 = 1 || bits ctl 3 29 != 0 || setsrRejects 11 (BitVec.ofNat 32 (frameSr bs 2)) ||
    !(tile = 2 || tile = 4 || tile = 8 || tile = 16 || tile = 32) || 2 ^ 8 ≤ frameSr bs 7 ||
    (List.range 8).any fun n => bits (frameSr bs 7) n 1 = 1 && iterBad (frameAt bs (3632 + 64 * n) 64)

/-- The state that a frame holds (R397); a thread that had exited stays exited (R399). -/
def Regs.ofFrame (r : Regs) (wasLive : LaneSet) (bs : List Byte) : Regs :=
  let at4 := fun (off : Nat) => BitVec.ofNat 32 (frameAt bs off 4)
  let thread := fun (l : Fin 32) =>
    let x := frameAt bs (64 + 8 * l.val) 8
    ({ pc := { packet := BitVec.ofNat 32 x, word := bits x 32 2 }, live := bits x 34 1 = 1 && wasLive[l] } : Thread)
  let pos := fun (l n : Nat) =>
    yKnown (BitVec.ofNat 64 (frameAt bs (2368 + 256 * n + 8 * l) 8))
  let level := fun (j : Nat) =>
    if bits (frameAt bs (3596 + 16 * j) 4) 0 1 = 1 then
      some ({ start := at4 (3584 + 16 * j), stop := at4 (3588 + 16 * j), count := at4 (3592 + 16 * j) } : Loop)
    else none
  { r with
    threads := Lanes.ofFn thread
    q := (List.range 16).map fun n => (n, Lanes.ofFn fun l => at4 (320 + 128 * n + 4 * l.val))
    y := Lanes.ofFn fun l => (List.range 4).map fun n => pos l.val n
    s := (List.range 32).map fun n => (n, at4 (3392 + 4 * n))
    p := (List.range 16).map fun n => (n, Lanes.ofFn fun l => (at4 (3520 + 4 * n)).getLsbD l.val)
    loops := ((List.range 3).filterMap level).reverse
    iters := ((List.range 8).filter fun n => bits (frameSr bs 7) n 1 = 1).map fun n => (n, BitVec.ofNat 512 (frameAt bs (3632 + 64 * n) 64))
    sat := BitVec.ofNat 32 (frameSr bs 0), fflags := BitVec.ofNat 32 (frameSr bs 1 % 32), rc := BitVec.ofNat 32 (frameSr bs 2)
    mshift := BitVec.ofNat 32 (frameSr bs 3), phase := BitVec.ofNat 32 (frameSr bs 4 % 64), tile := frameSr bs 6
    sticky := [] }

/-- The registers with the results that arrived while the handler ran. -/
def Regs.withLate (r : Regs) (late : List (Nat × Nat × Word)) : Regs :=
  { r with q := late.foldl (fun q e =>
      SMap.put q e.1 (Lanes.ofFn fun l => if l.val = e.2.1 then e.2.2 else (SMap.getD q e.1 (Lanes.all 0))[l])) r.q }

/-- The warp after its frame is reloaded, out of supervisor mode. -/
def Warp.resumed (w : Warp) (bs : List Byte) : Warp :=
  let regs := (w.regs.ofFrame w.wasLive bs).withLate w.late
  let alone : LaneSet := if bits (frameAt bs 32 4) 0 1 = 1 then Lanes.ofFn fun l => regs.threads[l].live else Lanes.all false
  Warp.passBars { w with
    barred := w.barred.filter fun b => !b.super
    regs := { regs with sup2 := alone }, sbchk := frameSr bs 5 % 2 = 1, super := false, trapinfo := 0, marks := [], arrivals := [], crossed := [], late := [], streak := 0
    nextSteady := false }

/-- The live threads of a warp exit as `EXIT` does (R399, R141); those that had exited before the handler stay so. -/
def State.killWarp (s : State) (cur : Cur) (w : Warp) : State :=
  let threads := Lanes.ofFn fun l => { w.regs.threads[l] with live := w.wasLive[l] }
  let w := { w with regs := { w.regs with threads := threads }, super := false, trapinfo := 0, guard := none, late := [] }
  s.exitLanes cur w w.wasLive

/-- The handler has ended: what waited for that takes effect (R398, R406, R453). -/
def State.afterHandler (s : State) (core slot : Nat) : State :=
  let s := match s.warp core slot with
    | none => s
    | some w => match s.mustStop w with
      | none => s
      | some why => s.stopWarp core slot why
  s.reportFaults

/-- The effect of `RFT` (R399) on the frame as read. -/
def State.returnFrom (s : State) (cur : Cur) (w : Warp) (bs : List Byte) : State :=
  if frameKills bs then s.killWarp cur w
  else
    let abort : Bool := bits (frameAt bs 32 4) 2 1 = 1
    if !abort && frameAt bs 36 4 != 0 then
      { s with softKills := SMap.put s.softKills w.ctx (SMap.getD s.softKills w.ctx 0 + 1) }.killWarp cur w
    else
      let w' := w.resumed bs
      let gone : LaneSet := Lanes.ofFn fun l => w.wasLive[l] && !w'.regs.threads[l].live
      let s := if LaneSet.any gone then s.exitLanes cur w' gone else s.setWarp cur.core cur.slot w'
      if abort then s.abortCtx w.ctx else s

/-- `RFT` (R247, R399): illegal outside the handler; in it, after `commit_point()`, the frame decides. -/
def execRft (h : Hdr) (s : State) : Res :=
  match s.cur with
  | none => .fault .noIssue
  | some cur =>
    match s.warp cur.core cur.slot with
    | none => .fault .noIssue
    | some w =>
      if !w.super then
        let act := cur.before.active h cur.lanes
        .next (s.raise cur act { kind := .illegalInstruction, lane := lowLane act })
      else irrevocable (.rft h) h s fun w cur _ =>
        match s.superRead cur.core w.ctx 3 (s.frameVa cur.core cur.slot w.ctx) 4208 with
        | none => .next { s.doubleFault cur.core cur.slot w with cur := some { cur with ended := .trapped } }
        | some bs => .next ((s.returnFrom cur w bs).afterHandler cur.core cur.slot)

end Sys2Proof.Machine
end

