-- ==== Sys2Proof/Machine/Resolve.lean ====
section
/-! DEFINITION. Engine faults as a warp's handler meets them and as the driver resolves them (R406, R407, R452), and soft
errors (R400, R449). -/
namespace Sys2Proof.Machine

/-! ### A warp enters its handler without a word's trap (R394, R406, R400) -/

/-- The warp could issue: it is not stopped, and what it waited for has come. -/
def State.mayEnter (s : State) (w : Warp) : Bool :=
  w.halt.isNone && w.pending.isNone &&
    match w.wait with
    | none | some .commit => true
    | some (.slot id) => !w.loads.any fun ld => ld.id = id
    | some (.drain ns) => !ns.any fun n => (SMap.get? s.entries n).isSome
    | some (.line _) | some (.becalmed _) | some (.pair ..) => false

/-- The lanes that a trap with no trapping word reports: the manual does not say. -/
def State.openLanes (s : State) : LaneMask := (Config.freeValue s.free).setWidth 32

/-- The lowest lane of a mask. -/
def lowOf (m : LaneMask) : Nat := ((List.range 32).find? fun l => m.getLsbD l).getD 0

/-- `ENGINE_FAULT_ENTRY` (R406): the warp's open window closes first; once both windows have committed it enters the handler. -/
def execEngineFaultEntry (core slot fid : Nat) (s : State) : Res :=
  match s.warp core slot, s.efaults.find? fun e => e.1 = fid with
  | some w, some (_, f) =>
    if w.super || !s.mayEnter w || s.faultOwed core slot != some fid then notDue s
    else if !w.windows.isEmpty then
      if w.openWin.isSome then .next (s.setWarp core slot w.closeOpen) else notDue s
    else
      let lanes := s.openLanes
      let s := { s.fresh with efaults := s.efaults.map fun (e : Nat × EFault) => if e.1 = fid then (fid, { f with handler := true, entered := true }) else e }
      .next (s.enterSupervisor core slot w
        { kind := .engineFault, eng := true, lane := lowOf lanes, amask := lanes, va := f.va, akind := f.kind, queue := f.queue
          fid := fid, elem := f.elem })
  | _, _ => notDue s

/-- The state groups that poison bits mark are corrupt (R400): 1 `v` file, 2 `q` and `y`, 3 `s` and `p`, 4 accumulators, 5 loop and
iterator records. What they hold is free. -/
def Warp.corrupt (w : Warp) (n : Nat) (groups : Word) : Warp :=
  let row := fun (g r : Nat) => Lanes.ofFn fun l => Config.softWord n (g * 65536 + r * 32 + l.val)
  let one := fun (g k : Nat) => Config.softWord n (g * 65536 + k)
  let w := if groups.getLsbD 1 then { w with v := (List.range 128).map fun r => (r, row 1 r) } else w
  let w := if groups.getLsbD 2 then { w with regs := { w.regs with
      q := (List.range 16).map fun r => (r, row 2 r)
      y := Lanes.ofFn fun l => (w.regs.y[l]).zipIdx.map fun x =>
        { x.1 with val := one 2 (1024 + 64 * l.val + 2 * x.2 + 1) ++ one 2 (1024 + 64 * l.val + 2 * x.2) } } } else w
  let w := if groups.getLsbD 3 then { w with regs := { w.regs with
      s := (List.range 32).map fun k => (k, one 3 k)
      p := (List.range 16).map fun r => (r, Lanes.ofFn fun l => (one 3 (64 + r)).getLsbD l.val) } } else w
  let w := if groups.getLsbD 4 then { w with acc := (List.range 128).map fun r => (r, row 4 r) } else w
  if groups.getLsbD 5 then { w with regs := { w.regs with
    loops := w.regs.loops.zipIdx.map fun x => { start := one 5 (4 * x.2), stop := one 5 (4 * x.2 + 1), count := one 5 (4 * x.2 + 2) }
    iters := w.regs.iters.map fun x => (x.1, ((List.range 16).foldl (fun (b : BitVec 512) k =>
      b <<< 32 ||| (one 5 (64 + 16 * x.1 + k)).setWidth 512) 0)) } } else w

/-- `SOFT_ERROR_TRAP` (R400): the uncommitted windows roll back, then the warp enters the handler with what is
corrupt as it reads. In the handler it is a double fault (R398). -/
def execSoftErrorTrap (core slot : Nat) (s : State) : Res :=
  match s.warp core slot with
  | none => notDue s
  | some w =>
    match w.soft with
    | none => notDue s
    | some (struct, poison) =>
      if !(s.mayEnter { w with pending := none } || (w.inPair && !w.windows.isEmpty && w.halt.isNone)) then notDue s
      else
        let t := s.stopWindows core slot
        match t.warp core slot with
        | none => notDue s
        | some w =>
          let lanes := t.openLanes
          .next (t.fresh.enterSupervisor core slot { w.corrupt t.free poison with soft := none, pending := none, wait := none }
            { kind := .softError, lane := lowOf lanes, amask := lanes, pattern := BitVec.ofNat 32 struct, poison := poison })

/-! ### Resolution (R406, R452) -/

/-- The outstanding fault of a number. -/
def State.efault? (s : State) (fid : Nat) : Option EFault := ((s.efaults.take 4096).find? fun e => e.1 = fid).map (·.2)

/-- The fault is decided: its number is free. -/
def State.dropFault (s : State) (fid : Nat) : State := { s with efaults := s.efaults.filter fun e => e.1 != fid }

/-- Changes a launch. -/
def State.mapLaunch (s : State) (lid : Nat) (f : Launch → Launch) : State :=
  match SMap.get? s.launches lid with
  | none => s
  | some l => { s with launches := SMap.put s.launches lid (f l) }

/-- The writes that a launch owes are tried again. -/
def State.pumpLaunch (s : State) (lid : Nat) : State :=
  s.pumpWrites lid (((SMap.get? s.launches lid).elim 0 fun l => l.writes.length) + 1)

/-- A lull goes on with a context's arrivals. -/
def State.unstop (s : State) (k ctx : Nat) : State :=
  let l := s.lull k
  s.setLull k { l with stopped := l.stopped.erase ctx }

/-- Changes the reports of an object, which stand in order of arrival. -/
def State.setReports (s : State) (n : Nat) (f : List LineDone → List LineDone) : State :=
  { s with reports := s.reports.flatMap fun r => if r.obj = n then f [r] else [r] }

/-- What a resume does to what the fault suspended: the access is tried again. -/
def State.resume (s : State) : Suspended → State
  | .entry n => match s.entry? n with
    | none => s.mapSaved fun r => match r with
      | .entry va b k e => if k = n then .entry va b k { e with fid := none } else r
      | r => r
    | some e => s.setEntry n { e with fid := none }
  | .spill k e => if (s.lull k).kept.contains e then ((s.unstop k e.ctx).spillEntry k e).1 else s.unstop k e.ctx
  | .root k _ _ => s.flushRoots k
  | .report n => if (s.obj? n).isSome then s.setReports n fun rs => rs.map fun r => { r with fault := none }
    else s.mapSaved fun r => match r with
      | .object k o rs => .object k o (if k = n then rs.map fun r => { r with fault := none } else rs)
      | r => r
  | .queue q _ => s.setQueue q { s.queue q with hold := none }
  | .counter lid _ => s.mapLaunch lid fun l => { l with owedFault := none }
  | .write lid => (s.mapLaunch lid fun l => { l with owedFault := none }).pumpLaunch lid
  | .work _ _ => s.pumpHeld

/-- The record at a queue's head, as it was read, is refused with status 16: an abandoned read of its placement table (R452). -/
def State.refuseHead (s : State) (q : Nat) (held : Option (DWord × Nat × BitVec 1024)) : State :=
  let refuse := fun (s : State) (va : DWord) (record ctx : Nat) =>
    let lid := SMap.fresh s.launches
    (({ s with launches := SMap.put s.launches lid (newLaunch va record ctx q) } : State).takeHead q).refuse lid 16
  if 48 ≤ q then
    match (s.queue q).records with
    | [] => s
    | (va, ctx, record) :: _ => refuse s va record.toNat ctx
  else match held with
    | some (va, ctx, record) => refuse s va record.toNat ctx
    | none => s.takeHead q

/-- A slot of a saved entry is published or released in the record of its block (R279). -/
def settleSlot (n : Nat) (e : Entry) (rings : SMap Ring) : SMap Ring :=
  match e.slotIx, SMap.get? rings e.layout.handle with
  | some k, some r => SMap.put rings e.layout.handle (if e.layout.out then r.release (entryOwner n) k else r.publish k)
  | _, _ => rings

/-- A suspended entry whose warp was saved is abandoned (R279): its slot is published or released in the block's record, its status
goes into the warp's record, and it is over. -/
def State.abandonSaved (s : State) (n : Nat) : State :=
  let all := s.waiting ++ s.saved.map (·.2)
  match all.findSome? fun r => match r with
    | .entry va b k e => if k = n then some (va, b, e) else none
    | _ => none with
  | none => s
  | some (va, b, e) =>
    let e := { e with fid := none, outcome := 2, acc := 3, todo := [], started := true }
    s.mapSaved fun r => match r with
      | .entry va b k x => if k = n then .entry va b k e else .entry va b k x
      | .block v x pad => if v == va && x.index = b && e.kind.isCopy && !e.layout.side && e.kind != .cpym
          then .block v { x with rings := settleSlot n e x.rings } pad else r
      | .warp v i c k w arr =>
        if v == va && i = b && c = e.core && k = e.slot && e.bound then .warp v i c k (w.putStatus e.load e.lane e.status) arr else r
      | r => r

/-- What an abandon does to what the fault suspended. -/
def State.abandon (s : State) : Suspended → State
  | .entry n => match s.entry? n with
    | none => s.abandonSaved n
    | some e => s.abandonEntry n e
  | .spill k e => { s.takeAny k e with heldWrites := s.heldWrites.filter fun a => !(a.heldAt k && a.entry == e) }.unstop k e.ctx
  | .root k ctx line =>
    let l := s.lull k
    s.setLull k { l with kept := l.kept.filter fun e => !(e.rootc && e.ctx == ctx && e.line == line) }
  | .report n => if (s.obj? n).isSome then s.setReports n fun rs => rs.filter fun r => r.fault.isNone
    else s.mapSaved fun r => match r with
      | .object k o rs => .object k o (if k = n then rs.filter fun r => r.fault.isNone else rs)
      | r => r
  | .queue q what =>
    let held := (s.queue q).hold.bind fun h => h.record
    let s := s.setQueue q { s.queue q with hold := none }
    if what = 2 then s.refuseHead q held else s.takeHead q
  | .counter lid _ => match SMap.get? s.launches lid with
    | none => s
    | some l =>
      let s := s.mapLaunch lid fun l => { l with owedFault := none }
      ((s.setQueue l.queue { s.queue l.queue with current := none }).takeHead l.queue).refuse lid 16
  | .write lid => (s.mapLaunch lid fun l => { l with owedFault := none, writes := l.writes.drop 1 }).pumpLaunch lid
  | .work i _ => s.breakInst i 2

/-- `ENGINE_FAULT_RESUME` (R406): `EF_RES` act 1; a number that is not outstanding is ignored. -/
def execEngineFaultResume (fid : Nat) (s : State) : Res :=
  match s.efault? fid with
  | none => .next s
  | some f => .next (((s.dropFault fid).resume f.what).reportFaults)

/-- `ENGINE_FAULT_ABANDON` (R406): `EF_RES` act 2. -/
def execEngineFaultAbandon (fid : Nat) (s : State) : Res :=
  match s.efault? fid with
  | none => .next s
  | some f => .next (((s.dropFault fid).abandon f.what).reportFaults)

/-- `EF_CFG_WRITE` (R405, R407): en, intr and lgsz; setting en reports every fault that waits, in order. -/
def execEfCfgWrite (value : Word) (s : State) : Res :=
  .next (State.reportFaults { s with mmio := SMap.put s.mmio 0x2208 (BitVec.ofNat 64 (value.toNat / 2 ^ 30 * 2 ^ 30 + value.toNat % 16)) })

/-- `EF_HEAD_WRITE` (R405): records that waited for room are written. -/
def execEfHeadWrite (value : Word) (s : State) : Res :=
  .next (State.reportFaults { s with mmio := SMap.put s.mmio 0x2214 (value.setWidth 64) })

/-! ### Soft errors (R449) -/

/-- What the error hits can take its action: a resident warp for a rollback or a trap, an object for status 2, a port. -/
def State.softTarget (s : State) (e : SoftError) : Bool :=
  match e.action with
  | 1 | 2 => e.warp.any fun x => (s.warp x.1 x.2).isSome
  | 3 => e.object.any fun n => (s.obj? n).isSome
  | 5 => 768 ≤ e.unit && e.unit < 783
  | _ => true

/-- The effect of an action (R449). -/
def State.softAct (s : State) (e : SoftError) : State :=
  match e.action with
  | 1 => match e.warp with
    | none => s
    | some x => match ((s.warp x.1 x.2).elim [] fun w => w.windows.drop e.window) with
      | [] => s
      | y :: _ => s.rollbackTo x.1 x.2 y.serial false
  | 2 => match e.warp with
    | none => s
    | some x => match s.warp x.1 x.2 with
      | none => s
      | some w =>
        let marks := (w.soft.elim 0 (·.2)) ||| BitVec.ofNat 32 (2 ^ e.struct)
        s.setWarp x.1 x.2 { w with soft := some (e.struct, marks) }
  | 3 => match e.object with
    | none => s
    | some n => match s.obj? n with
      | none => s
      | some o => if o.status = 0 then s.objStatus n 2 else s
  | 4 =>
    let lost := (List.range 16).flatMap fun k => bytesLE 8 (Config.freeValue (s.free + k)).toNat
    ({ s with poison := SMap.put s.poison (e.pa.toNat / 128) e.struct, free := s.free + 16 } : State).putBytes
      (.mem (e.pa.toNat / 128 * 128)) lost
  | 5 => s.linkFails (e.unit - 768)
  | _ => s

/-- `SOFT_ERROR_EVENT` (R449, R450). -/
def execSoftErrorEvent (e : SoftError) (s : State) : Res :=
  if e.struct = 0 || 16 < e.struct || 5 < e.action || !s.softTarget e then notDue s
  else .next ((s.softAct e).logSoft e)

end Sys2Proof.Machine
end

