-- ==== Sys2Proof/Machine/Preempt.lean ====
section
/-! DEFINITION. Pre-emption and restore (R335, R408 to R410, R298), and the placement of blocks (R382, R384 to R386), saved
ones among them. -/
namespace Sys2Proof.Machine

/-! ### Requests (R408) -/

/-- `PE_CTL` as it reads. -/
def State.setPeCtl (s : State) (busy err : Bool) (ctx : Nat) : State :=
  let x := (if busy then 2 ^ 31 else 0) + (if err then 2 ^ 30 else 0) + ctx
  { s with mmio := SMap.put s.mmio 0x2310 (BitVec.ofNat 64 x) }

/-- The request that `PE_REQ` names starts: every named warp stops. One that names no launch fails. -/
def State.startRequest (s : State) (ctx : Nat) : State :=
  let req := (s.reg 0x2300 0).toNat
  let whole : Bool := req % 2 = 1
  let named := s.launches.filter fun e => !e.2.complete && if whole then e.2.ctx = ctx else e.2.va.toNat = req / 2 * 2
  if named.isEmpty && !whole then s.setPeCtl false true ctx
  else
    let ctx' := if whole then ctx else (named.head?.elim ctx fun e => e.2.ctx)
    State.stopAll { s.setPeCtl true false ctx with preempt := some { launches := named.map (·.1), whole := whole, ctx := ctx' } }

/-- `PREEMPT_REQUEST` (R408): a write of `PE_REQ` while nothing runs. -/
def execPreemptRequest (value : DWord) (s : State) : Res :=
  if s.preempt.isSome then .next s
  else
    let s := { s with mmio := SMap.put s.mmio 0x2300 value }
    .next (s.startRequest ((s.reg 0x2310 0).toNat % 4096))

/-- `CONTEXT_SAVE` (R408): a write of `PE_CTL` with op 1 starts the request that `PE_REQ` names. -/
def execContextSave (value : Word) (s : State) : Res :=
  if bits value.toNat 28 2 != 1 then notDue s
  else if s.preempt.isSome then .next s
  else .next (s.startRequest (value.toNat % 4096))

/-! ### When a request may complete (R408, R280) -/

/-- An entry of named work is suspended, or waits behind a suspended one, or for a fence. -/
def State.entrySettled (s : State) (n : Nat) (e : Entry) : Bool :=
  e.fid.isSome || e.kind == .fence ||
    (e.kind == .coll && e.acc = 1 && s.efaults.any fun f => match f.2.what with
      | .work i _ => i = e.elem
      | _ => false) ||
    (!e.started && s.entries.any fun f => f.1 < n && f.2.sameWarp e && f.2.fid.isSome)

/-- The blocks that a request saves. -/
def State.namedBlocks (s : State) (p : Preempt) : List (Nat × Block) :=
  s.blocks.filter fun e => p.launches.contains e.2.launch && !e.2.ended && !e.2.away

/-- The warp waits for a value of a word that has acted: an atomic word at a peer's memory, or a load of host MMIO (R335), or for
other devices to learn of its `RDECL`. -/
def Warp.acting (w : Warp) : Bool :=
  w.declares != 0 || w.loads.any fun ld => match ld.kind with
    | .remote _ _ _ | .hostMmio _ => true
    | _ => false

/-- Every named warp has stopped with the values of the words that have acted, and every entry of the named blocks has completed or is suspended; a `CPYM` entry of a
cohort must have completed. -/
def State.saveReady (s : State) (p : Preempt) : Bool :=
  let bids := (s.namedBlocks p).map (·.1)
  (s.warps.all fun e => !bids.contains e.2.block || (e.2.halt.isSome && !e.2.acting)) &&
    (s.entries.all fun e => !bids.contains e.2.block ||
      (s.entrySettled e.1 e.2 && !(e.2.kind == .cpym && s.recordField e.2.launch 856 1 = 1))) &&
    (!p.whole || s.reports.all fun r => r.fault.isSome || !((s.obj? r.obj).any fun o => o.ctx = p.ctx))

/-- A lull entry of a context, with its lull. -/
def State.undrained (s : State) (ctx : Nat) : Option (Nat × LullEntry) :=
  s.lulls.findSome? fun l => ((l.2.kept ++ l.2.inbox).find? fun e => e.ctx = ctx).map fun e => (l.1, e)

/-- Spills the entries of a context (R298), until none is left or one finds the spill area full. -/
def State.drainCtx (s : State) (ctx : Nat) : Nat → State × Option (Nat × LullEntry)
  | 0 => (s, s.undrained ctx)
  | fuel + 1 =>
    match s.undrained ctx with
    | none => (s, none)
    | some (k, e) => match s.spillPlace e with
      | none => (s, some (k, e))
      | some t => (t.takeAny k e).drainCtx ctx fuel

/-- The number of entries in all lulls. -/
def State.lullCount (s : State) : Nat := s.lulls.foldl (fun n l => n + l.2.kept.length + l.2.inbox.length) 0

/-! ### What is saved (R409) -/

/-- The warp as its record holds it: every result has arrived, no window is open; a double fault still stops it. -/
def Warp.settled (w : Warp) : Warp :=
  let r := w.regs
  { w with
    regs := { r with sat := r.satAll, fflags := r.flagsAll, sticky := []
                     y := Lanes.ofFn fun l => (r.y[l]).map fun p => { p with due := 0 } }
    marks := [], arrivals := [], crossed := [], windows := [], streak := 0, nextSteady := false, pending := none, fFree := 0
    halt := if w.halt = some .doubleFault then some .doubleFault else none }

/-- The barrier instances that a warp has joined and that are open: number, level, mask. -/
def State.arrivals (s : State) (w : Warp) : List (Nat × Nat × Nat) :=
  let waits := w.barred.filterMap (·.inst)
  let marks := (w.arrived.map (·.2) ++ w.laneArrived.map (·.2)).filterMap fun m => match m with
    | .joined n => some n
    | _ => none
  (waits ++ marks).eraseDups.filterMap fun n => (SMap.get? s.bars n).map fun b => (n, b.level, b.mask)

/-- The address of a launch's record. -/
def State.recordVa (s : State) (lid : Nat) : DWord := (SMap.get? s.launches lid).elim 0 fun l => l.va

/-- The index of a block. -/
def State.blockIndex (s : State) (bid : Nat) : Nat := (SMap.get? s.blocks bid).elim 0 fun b => b.index

/-- The records of a request, in the order of their types. -/
def State.recordsOf (s : State) (p : Preempt) : List Saved :=
  let bs := s.namedBlocks p
  let bids := bs.map (·.1)
  let es := s.entries.filter fun e => bids.contains e.2.block
  [Saved.context p.ctx (BitVec.ofNat 512 (s.ctxEntry p.ctx)) s.self (s.reg 0x20000 0) p.whole] ++
  ((s.warps.filter fun e => bids.contains e.2.block).map fun e =>
    Saved.warp (s.recordVa e.2.launch) (s.blockIndex e.2.block) (e.1 / 64) (e.1 % 64) e.2.settled (s.arrivals e.2)) ++
  (bs.map fun e => Saved.block (s.recordVa e.2.launch) e.2 (s.bytesAt (.scratch e.2.core e.2.base) e.2.size)) ++
  (if p.whole then (s.objs.filter fun e => e.2.ctx = p.ctx).map fun e => Saved.object e.1 e.2 (s.reports.filter (·.obj = e.1)) else []) ++
  (es.map fun e => Saved.entry (s.recordVa e.2.launch) (s.blockIndex e.2.block) e.1 e.2) ++
  ((s.insts.filter fun i => es.any fun e => e.1 = i.2.entry).map fun i => Saved.inst i.1 true i.2) ++ [Saved.last]

/-- The named work leaves the device: slots, scratchpad and engines are free, and a core that no block of the launch which shifted its
step holds any more returns to step 16 (R390). A fault whose record is written reaches no handler any more (R406). -/
def State.removeSaved (s : State) (p : Preempt) : State :=
  let bids := (s.namedBlocks p).map (·.1)
  let gone := (s.entries.filter fun e => bids.contains e.2.block).map (·.1)
  let mine := fun (f : EFault) => match f.what with
    | .entry n => gone.contains n
    | _ => false
  let cores := ((s.namedBlocks p).map (·.2.core)).eraseDups
  let s := { s with
    warps := s.warps.filter fun e => !bids.contains e.2.block
    blocks := s.blocks.map fun e => if bids.contains e.1 then (e.1, { e.2 with away := true }) else e
    objs := if p.whole then s.objs.filter fun e => e.2.ctx != p.ctx else s.objs
    reports := if p.whole then s.reports.filter fun r => !(s.obj? r.obj).any fun o => o.ctx = p.ctx else s.reports
    entries := s.entries.filter fun e => !bids.contains e.2.block
    insts := s.insts.filter fun i => !gone.contains i.2.entry
    efaults := s.efaults.map fun e =>
      if mine e.2 && !e.2.entered then (e.1, { e.2 with handler := false, entered := e.2.recorded }) else e
    aborts := if p.whole then s.aborts.filter fun c => c != p.ctx else s.aborts
    preempt := none }
  cores.foldl State.settleStep s

/-- A request that fails saves nothing; its warps go on where they stopped, but those of a context whose abort stands stay stopped for it
(R453). -/
def State.failRequest (s : State) : State :=
  let s := s.setPeCtl false true ((s.reg 0x2310 0).toNat % 4096)
  { s with
    preempt := none
    warps := s.warps.map fun e =>
      if e.2.halt = some .preempt then (e.1, { e.2 with halt := if s.aborts.contains e.2.ctx then some .abort else none }) else e }

/-- The records are written at `PE_BUF`, if `PE_LEN` holds them (R408). -/
def State.writeRequest (s : State) (p : Preempt) : State :=
  let rs := s.recordsOf p
  let n := recordsLength rs
  if (s.reg 0x2314 0).toNat < n then s.failRequest
  else
    let s := (s.removeSaved p).putRecords ((s.reg 0x2308 0).toNat / 4096 * 4096) rs
    let s := { s with mmio := SMap.put s.mmio 0x2314 (BitVec.ofNat 64 n) }
    s.setPeCtl false false ((s.reg 0x2310 0).toNat % 4096)

/-- `PREEMPT_COMPLETE` (R408): the named blocks' lull entries leave their cores (R289); a whole context's lulls spill, where
a full spill area raises its fault and waits for it (R292); then the record list is written. -/
def execPreemptComplete (s0 : State) : Res :=
  match s0.preempt with
  | none => notDue s0
  | some p =>
    if !s0.saveReady p then notDue s0
    else
      let s := (s0.namedBlocks p).foldl (fun s e => s.forwardBlock e.1) s0
      if !p.whole then .next (s.writeRequest p)
      else match s.drainCtx p.ctx s.lullCount with
        | (t, none) => .next (t.writeRequest p)
        | (t, some (k, e)) =>
          if (t.lull k).stopped.contains p.ctx then notDue s0 else .next (t.spillFull k e)

/-! ### Reading a record list (R409, R410) -/

/-- The headers of a record list from a physical address: address, type, req, length; none where one is malformed. -/
def State.headers (s : State) : Nat → Nat → Nat → Option (List (Nat × Nat × Bool × Nat))
  | 0, _, _ => some []
  | fuel + 1, pa, left =>
    if left < 16 then some []
    else
      let h := s.memNat pa 16
      let n := bits h 32 32
      if bits h 0 16 = 0xFFFF then some []
      else if n < 16 || left < n then none
      else (s.headers fuel (pa + n) (left - n)).map fun rest => (pa, bits h 0 16, bits h 31 1 = 1, n) :: rest

/-- The bytes of a record are those of one that this device wrote, in a layout version of their own (R409): bytes beyond the fields it
knows do not count, and fields that they lack are 0. -/
def sameRecord (known : Saved) (type : Nat) (bs : List Byte) : Bool :=
  let fields := known.bytes.drop 16
  known.type = type && (bs.drop 16 ++ List.replicate fields.length 0).take fields.length == fields

/-- The record at an address: as this device wrote it, or as its bytes say. -/
def State.savedRecord (s : State) (pa type n : Nat) : Option Saved :=
  let bs := Memory.readN s.mem pa n
  match s.saved.find? fun e => e.1 = pa && sameRecord e.2 type bs with
  | some e => some e.2
  | none => (Config.recordOf type bs).filter fun r => r.type = type

/-- The records of a list that the restore acts on; none where it fails: a record it does not understand is required. -/
def State.readRecords (s : State) : List (Nat × Nat × Bool × Nat) → Option (List Saved)
  | [] => some []
  | (pa, type, req, n) :: rest =>
    if type = 0 || 7 < type then if req then none else s.readRecords rest
    else match s.savedRecord pa type n with
      | none => none
      | some r => (s.readRecords rest).map (r :: ·)

/-- The launch whose record stands at an address of a context. -/
def State.launchAt (s : State) (ctx : Nat) (va : DWord) : Option (Nat × Launch) :=
  s.launches.find? fun e => e.2.va == va && e.2.ctx = ctx && !e.2.complete

/-- The launch of a saved block, read from memory where the device does not know it: it has started. -/
def State.findLaunch (s : State) (ctx : Nat) (va : DWord) : Option (State × Nat × Launch) :=
  match s.launchAt ctx va with
  | some (lid, l) => some (s, lid, l)
  | none => match s.superRead hubUnit ctx 2 va.toNat 128 with
    | none => none
    | some bs =>
      let l := { newLaunch va (leNat bs) ctx 63 with startable := true, started := true }
      let l := { l with placed := List.range l.nblocks }
      let lid := SMap.fresh s.launches
      some ({ s with launches := SMap.put s.launches lid l }, lid, l)

/-- The launch records that a list of records names. -/
def launchVas (rs : List Saved) : List DWord :=
  (rs.filterMap fun r => match r with
    | .block va _ _ => some va
    | .warp va _ _ _ _ _ => some va
    | _ => none).eraseDups

/-- A launch may resume on another device or core (R377, R410). -/
def Launch.moves (l : Launch) : Bool := l.f 857 1 = 1 && l.f 856 1 = 0

/-- Every launch that a list names, found; none where one cannot be read, or may not come to this device (R410). -/
def State.findLaunches (s : State) (ctx : Nat) (foreign : Bool) : List DWord → Option State
  | [] => some s
  | va :: rest => match s.findLaunch ctx va with
    | none => none
    | some (s, _, l) => if foreign && l.f 857 1 = 0 then none else s.findLaunches ctx foreign rest

/-- An entry number that is taken here gets a new one, in every record that names it. -/
def renumber (old new : Nat) (r : Saved) : Saved :=
  match r with
  | .entry va b n e => .entry va b (if n = old then new else n) e
  | .inst i run x => .inst i run (if x.entry = old then { x with entry := new } else x)
  | .warp va b c k w arr =>
    .warp va b c k { w with wait := match w.wait with
      | some (.drain ns) => some (.drain (ns.map fun n => if n = old then new else n))
      | x => x } arr
  | r => r

/-- Numbers of entries that this device uses otherwise are changed. -/
def State.renumberAll (s : State) : List Nat → List Saved → State × List Saved
  | [], rs => (s, rs)
  | n :: ns, rs =>
    if (s.entry? n).isSome || s.nextEntry ≤ n then
      State.renumberAll { s with nextEntry := s.nextEntry + 1 } ns (rs.map (renumber n s.nextEntry))
    else s.renumberAll ns rs

/-- The numbers of saved entries. -/
def entryNos (rs : List Saved) : List Nat := rs.filterMap fun r => match r with
  | .entry _ _ n _ => some n
  | _ => none

/-- An object as a restoring device finds it (R298, R300): its home and its status field, under the context's translations here. -/
def State.rehome (s : State) (o : Obj) : Obj :=
  let home := match s.translateNow hubUnit o.ctx o.decl.target { mmio := false, host := false } .write o.super with
    | .ok loc => s.homeOf loc
    | .error _ => o.home
  let statusAt := match o.statusVa with
    | none => none
    | some va => match s.translateNow hubUnit o.ctx va { mmio := false, host := true } .write o.super with
      | .ok loc => some (s.homeOf loc, loc)
      | .error _ => o.statusAt
  { o with home := home, domain := o.domain || home != s.self, statusAt := statusAt }

/-- A plan instance under the number that it gets here, with its shard, which its context's objects brought (R309, R310). -/
def State.takeInst (s : State) (n : Nat) (i : Inst) : State :=
  let m := if (SMap.get? s.insts n).isSome || s.nextInst ≤ n then s.nextInst else n
  let s := { s with nextInst := max s.nextInst (m + 1) }
  match s.objs.find? fun o => o.2.inst = some n && o.2.ctx = i.ctx && i.obj.isSome && o.2.decl.counter = i.counter with
  | none => { s with insts := SMap.put s.insts m i }
  | some (k, o) => { s.setObj k { o with inst := some m } with insts := SMap.put s.insts m { i with obj := some k } }

/-- The fault of a suspended entry is outstanding where the entry is restored (R410): under its number where that is free here, else the
entry tries its access again and reports a fault of its own. -/
def State.takeFault (s : State) (n : Nat) (e : Entry) : State × Entry :=
  match e.fid with
  | none => (s, e)
  | some f => match s.efaults.find? fun x => x.1 = f with
    | some x => (s, if x.2.what == .entry n then e else { e with fid := none })
    | none =>
      ({ s with efaults := s.efaults ++ [(f,
          { va := 0, elem := e.elem, ctx := e.ctx, core := e.core, slot := e.slot, queue := e.queue, cause := 0, kind := 0
            recorded := true, handler := false, entered := true, what := .entry n })] }, e)

/-- Objects and plan instances take their places in the tables; blocks, warps and entries wait to be placed. -/
def State.takeRecord (s : State) (r : Saved) : State :=
  match r with
  | .object n o rs =>
    let m := if (s.obj? n).isSome then SMap.fresh s.objs else n
    let held := fun (r : LineDone) => m = n && s.efaults.any fun f => r.fault = some f.1 && f.2.what == .report n
    { s.setObj m (s.rehome o) with reports := s.reports ++ rs.map fun r =>
        { r with obj := m, fault := if held r then r.fault else none } }
  | .inst n _ i => s.takeInst n i
  | .context .. | .last => s
  | .entry va b n e =>
    let (s, e) := s.takeFault n e
    { s with waiting := s.waiting ++ [.entry va b n e] }
  | r => { s with waiting := s.waiting ++ [r] }

/-! ### Placing a saved block again (R410, R10) -/

/-- A saved block of a launch that waits, lowest index first. -/
def State.waitingBlock (s : State) (l : Launch) : Option (Block × List Byte) :=
  let bs := s.waiting.filterMap fun r => match r with
    | .block va b pad => if va == l.va then some (b, pad) else none
    | _ => none
  bs.find? fun x => bs.all fun y => x.1.index ≤ y.1.index

/-- The saved warps of a block, ascending: core, slot, the warp, its arrivals. -/
def State.savedWarps (s : State) (va : DWord) (bindex : Nat) : List (Nat × Nat × Warp × List (Nat × Nat × Nat)) :=
  let ws := s.waiting.filterMap fun r => match r with
    | .warp v b c k w arr => if v == va && b = bindex then some (c, k, w, arr) else none
    | _ => none
  (List.range 64).filterMap fun i => ws.find? fun x => x.2.2.1.index = i

/-- Core `c` has room for a saved block: scratchpad, a slot for each saved warp; its stack group is ready. -/
def State.takesBlock (s : State) (b : Block) (ws : List (Nat × Nat × Warp × List (Nat × Nat × Nat))) (c : Nat) : Bool :=
  c < 192 && (s.reg 0x30000 0).getLsbD (12 + c / 16) && (s.freeRange c b.size).isSome &&
    (List.range 16).all fun p => (ws.filter fun x => x.2.2.1.index % 16 = p).length ≤ (s.freeSlots c p).length

/-- A warp's saved arrivals stand again (R209): an instance that is no longer known here is joined anew. -/
def State.rejoin (s : State) (c lid : Nat) (w : Warp) : List (Nat × Nat × Nat) → State × Warp
  | [] => (s, w)
  | (n, level, mask) :: rest =>
    let ms := if level = 1 then (lanesUp.filter fun l => SMap.get? w.laneArrived l.val == some (.joined n) || (w.waitingAt n)[l]).map (·.val)
      else if level = 2 then [w.index] else [memberKey w]
    if (SMap.get? s.bars n).any fun b => b.level = level && b.mask = mask && ms.all b.arrived.contains then s.rejoin c lid w rest
    else
      let (s, n') := s.joinBar level (barGroup level c w) lid mask ms
      let f := fun (e : Nat × BarMark) => if e.2 = .joined n then (e.1, .joined n') else e
      let g := fun (b : BarWait) => if b.inst = some n then { b with inst := some n' } else b
      s.rejoin c lid { w with arrived := w.arrived.map f, laneArrived := w.laneArrived.map f, barred := w.barred.map g } rest

/-- Saved warps take the lowest free slots of their partitions; pairs of old and new warp numbers. -/
def State.resumeWarps (s : State) (lid bid c : Nat) :
    List (Nat × Nat × Warp × List (Nat × Nat × Nat)) → State × List (Nat × Nat)
  | [] => (s, [])
  | (c0, k0, w, arr) :: rest =>
    match s.freeSlots c (w.index % 16) with
    | [] => s.resumeWarps lid bid c rest
    | k :: _ =>
      let core := s.core c
      let w := s.waiting.foldl (fun w r => match r with
        | .status _ _ c1 k1 load lane x => if c1 = c0 && k1 = k0 then w.putStatus load lane x else w
        | _ => w) { w with launch := lid, block := bid, age := core.nextAge }
      let (s, w) := s.rejoin c lid w arr
      let s := (s.setWarp c k w).setCore c { core with nextAge := core.nextAge + 1 }
      let (s, ks) := s.resumeWarps lid bid c rest
      (s, (warpKey c0 k0, warpKey c k) :: ks)

/-- The new number of an owner or taker of slots. -/
def moved (ks : List (Nat × Nat)) (x : Nat) : Nat := ((ks.find? fun k => k.1 = x).map (·.2)).getD x

/-- The owners and takers of a ring's slots under their new numbers. -/
def Ring.moved (ks : List (Nat × Nat)) (r : Ring) : Ring :=
  { r with slots := r.slots.map fun x =>
      { x with owner := Machine.moved ks x.owner, takers := x.takers.map (Machine.moved ks), released := x.released.map (Machine.moved ks) } }

/-- A saved block is placed on core `c`: its scratchpad, its warps and its entries are there again. -/
def State.placeSaved (s : State) (lid : Nat) (l : Launch) (b : Block) (pad : List Byte) (c : Nat) : State :=
  match s.freeRange c b.size with
  | none => s
  | some base =>
    let known := s.blocks.find? fun e => e.2.launch = lid && e.2.index = b.index && e.2.away
    let bid := known.elim (SMap.fresh s.blocks) (·.1)
    let s := s.putBytes (.scratch c base) pad
    let (s, ks) := s.resumeWarps lid bid c (s.savedWarps l.va b.index)
    let b := { b with launch := lid, core := c, base := base, away := false, rings := b.rings.map fun e => (e.1, e.2.moved ks) }
    let es := s.waiting.filterMap fun r => match r with
      | .entry va i n e => if va == l.va && i = b.index && e.acc != 3 then some (n, e) else none
      | _ => none
    let put := fun (s : State) (x : Nat × Entry) =>
      let key := moved ks (warpKey x.2.core x.2.slot)
      let e := if x.2.bound then { x.2 with core := key / 64, slot := key % 64 } else { x.2 with core := c }
      s.setEntry x.1 { e with block := bid, launch := lid }
    let s := es.foldl put { s with blocks := SMap.put s.blocks bid b }
    let mine := fun (r : Saved) => match r with
      | .block va x _ => va == l.va && x.index = b.index
      | .warp va i _ _ _ _ | .status va i _ _ _ _ _ => va == l.va && i = b.index
      | .entry va i _ _ => va == l.va && i = b.index
      | _ => false
    State.reportFaults { s with waiting := s.waiting.filter fun r => !mine r }

/-- A saved block of a launch that may move goes beside those that are placed: into their group, within mask, caps and entries (R8,
R384). -/
def State.mayReturn (s : State) (lid : Nat) (l : Launch) (b : Block) (c : Nat) : Bool :=
  let here := (s.blocks.filter fun e => e.2.launch = lid && !e.2.away).map fun e => (s.self, e.2.core)
  (match l.entryOf b.index with
    | none => true
    | some e => e == (s.self, c)) && s.mayJoin l (l.remotePlaced ++ here) s.self c

/-- Core `c` may take the next saved block of a launch: its saved core, or any in its group where the launch may move (R410). -/
def State.restoreOn (s : State) (lid : Nat) (l : Launch) (c : Nat) : Option State :=
  match s.waitingBlock l with
  | none => none
  | some (b, pad) =>
    if (if l.moves then s.mayReturn lid l b c else c = b.core) && s.takesBlock b (s.savedWarps l.va b.index) c && !s.aborted l.ctx then
      some (s.placeSaved lid l b pad c)
    else none

/-- Saved blocks go back to their saved cores where those have room; the others wait. -/
def State.restoreBlocks (s : State) : List (Nat × Launch) → State
  | [] => s
  | (lid, l) :: rest =>
    let once := fun (s : State) => match s.waitingBlock l with
      | none => s
      | some (b, _) => (s.restoreOn lid l b.core).getD s
    ((List.range s.waiting.length).foldl (fun s _ => once s) s).restoreBlocks rest

/-- The restore of a record list; none where it fails and changes nothing. -/
def State.restoreList (s : State) (rs : List Saved) : Option State :=
  match rs.findSome? fun r => match r with
    | .context ctx entry dev sig _ => some (ctx, entry, dev, sig)
    | _ => none with
  | none => none
  | some (ctx, entry, dev, sig) =>
    let running := rs.any fun r => match r with
      | .inst _ run _ => run
      | _ => false
    if sig != s.reg 0x20000 0 && running then none
    else match State.findLaunches { s with ctxs := SMap.put s.ctxs ctx entry } ctx (dev != s.self) (launchVas rs) with
      | none => none
      | some s =>
        let (s, rs) := s.renumberAll (entryNos rs) rs
        let s := rs.foldl State.takeRecord { s with saved := s.saved.filter fun e => !rs.contains e.2 }
        let s := ((s.objs.filter fun o => o.2.ctx = ctx).map (·.1)).foldl State.releaseSpilled s
        some (s.restoreBlocks s.launches)

/-- `CONTEXT_RESTORE` (R410): a write of `PE_CTL` with op 2 reads the record list at `PE_BUF`. -/
def execContextRestore (value : Word) (s : State) : Res :=
  let ctx := value.toNat % 4096
  if bits value.toNat 28 2 != 2 then notDue s
  else if s.preempt.isSome then .next s
  else
    let len := (s.reg 0x2314 0).toNat
    match s.headers (len / 16 + 1) ((s.reg 0x2308 0).toNat / 4096 * 4096) len with
    | none => .next (s.setPeCtl false true ctx)
    | some hs => match (s.readRecords hs).bind s.restoreList with
      | none => .next (s.setPeCtl false true ctx)
      | some t => .next (t.setPeCtl false false ctx)

/-! ### Placement -/

/-- `BLOCK_PLACEMENT` (R382, R384 to R386): the next blocks of a startable launch go to the cores of the list, one block at
a time, a gang in one step. The first block's placement takes the queue's head and writes status 1. A block of the launch
that waits to be restored comes first (R410). -/
def execBlockPlacement (launch : Nat) (cores : List Nat) (s : State) : Res :=
  match SMap.get? s.launches launch with
  | none => notDue s
  | some l =>
    if (s.waitingBlock l).isSome then
      match cores with
      | [c] => match s.restoreOn launch l c with
        | none => notDue s
        | some t => .next t
      | _ => notDue s
    else
    if !s.placing l || !s.wholeGangs launch l cores || s.outranked launch l then notDue s
    else match s.placeAll launch cores l.placed.length with
      | none => notDue s
      | some t =>
        match SMap.get? t.launches launch with
        | none => notDue s
        | some l' =>
          let u := { t with
            launches := SMap.put t.launches launch { l' with started := true }
            turn := SMap.put t.turn (s.classOf l) l.queue }
          let u := if l.started then u else (u.takeHead l.queue).owe launch [.status 1]
          let u := if l'.placed.length = l'.nblocks then u.setQueue l.queue { u.queue l.queue with current := none } else u
          .next (u.announce s l.ctx)

end Sys2Proof.Machine
end

