-- ==== Sys2Proof/Machine/Bringup.lean ====
section
/-! DEFINITION. Bring-up, ports, keys, the security alarm and DOE (R428 to R436), the core's power and scratchpad split
(R387 to R391, R2), and the invalidation of translations (R404). -/
namespace Sys2Proof.Machine

/-! ### Ready reporting (R429, R430) -/

/-- The security alarm is latched (R435). -/
def State.alarmed (s : State) : Bool := (s.reg 0x40080 0).getLsbD 31

/-- The key store is ready. -/
def State.keyStore (s : State) : Bool := (s.reg 0x30000 0).getLsbD 46

/-- The conditions of R430 that the device's own state decides; self-tests and training are the environment's. A port's
key slots are those its directions stand in, slot 0 at bring-up. -/
def State.mayReady (s : State) (bit : Nat) : Bool :=
  if bit < 12 then true
  else if bit < 24 then (s.reg 0x30000 0).getLsbD (bit - 12)
  else if bit < 39 then
    let p := bit - 24
    let x := s.port p
    x.en && s.keyStore && (s.keySlot 0 p x.txSlot).isSome && (s.keySlot 1 p x.rxSlot).isSome
  else if bit < 42 then true
  else if bit < 46 then s.keyStore && ((s.keySlot 2 (bit - 42) 0).isSome || (s.keySlot 2 (bit - 42) 1).isSome)
  else bit = 46 && !s.alarmed

/-- `FUNCTION_READY` (R430): a function that did not fail its test and whose conditions hold sets its bit of `BU_READY`. -/
def execFunctionReady (bit : Nat) (s : State) : Res :=
  if (s.reg 0x30000 0).getLsbD bit || Config.fusedOff.getLsbD bit || !s.mayReady bit then notDue s
  else
    let s := if 24 ≤ bit && bit < 39 then s.setPort (bit - 24) { s.port (bit - 24) with link := 2 } else s
    .next (s.setReady bit true).retryAll

/-! ### Ports (R336, R357) -/

/-- The devices that the ports say are there, and this one; a device already lost stays so until a port names it anew. -/
def State.cabled (s : State) : List Nat :=
  s.self :: (List.range 15).filterMap fun p => if (s.port p).pv then some (s.port p).peer else none

/-- `DXP_CTL_WRITE` (R357): en starts training or takes the link down; pv and peer are the cabling. -/
def execDxpCtlWrite (port : Nat) (value : Word) (s : State) : Res :=
  if 15 ≤ port then .next s
  else
    let x := s.port port
    let en := value.getLsbD 7
    let pv := value.getLsbD 6
    let peer := value.toNat % 16
    let s := s.setPort port { x with en := en, pv := pv, peer := peer }
    let s := if en && !x.en then s.setPort port { s.port port with link := 1 }
      else if !en && x.en then s.linkFails port
      else s
    let here := s.present ||| (if pv then BitVec.ofNat 16 (2 ^ peer) else 0)
    .next { s with present := here &&& BitVec.ofNat 16 (s.cabled.eraseDups.foldl (fun n d => n + 2 ^ d) 0) }

/-! ### Keys (R432, R433) -/

/-- A class has the index (R432). -/
def keyPlace (cls index : Nat) : Bool := match cls with
  | 0 | 1 => index < 15
  | 2 => index < 4
  | _ => index = 0

/-- The wrapped key as the `KY_WRAP` registers hold it. -/
def State.wrapped (s : State) : BitVec 320 :=
  BitVec.ofNat 320 ((List.range 5).foldl (fun n i => n + (s.reg (0x40010 + 8 * i) 0).toNat * 2 ^ (64 * i)) 0)

/-- The last command of the key store failed, or not. -/
def State.keyErr (s : State) (err : Bool) : State := { s with mmio := SMap.put s.mmio 0x40000 (if err then 2 ^ 30 else 0) }

/-- `KEY_LOAD` (R433): the wrapped key goes into an empty slot. -/
def execKeyLoad (cmd : Word) (s : State) : Res :=
  let c := cmd.toNat
  let cls := bits c 26 2
  let index := bits c 22 4
  let slot := bits c 21 1
  if bits c 28 2 != 1 then notDue s
  else if !keyPlace cls index || (s.keySlot cls index slot).isSome || s.alarmed then .next (s.keyErr true)
  else match s.kek.bind fun k => Config.keyUnwrap k s.wrapped with
    | none => .next (s.keyErr true)
    | some key =>
      let k : KeySlot := { key := key, lid := (s.reg 0x40008 0).toNat % 2 ^ 24, fresh := true }
      let s := { s.keyErr false with keys := SMap.put s.keys (keyId cls index slot) k }
      let s := if cls = 1 then s.setPort index { s.port index with ctlSeen := (s.port index).ctlSeen.set slot none } else s
      .next (if cls = 3 then
          { s with pcCtr := SMap.put s.pcCtr slot 0, pcSeen := s.pcSeen.filter fun e => e.1 != slot }
        else s)

/-- `KEY_ERASE` (R433): fails for the active send slot, and for an old one with unacknowledged flits. -/
def execKeyErase (cmd : Word) (s : State) : Res :=
  let c := cmd.toNat
  let cls := bits c 26 2
  let index := bits c 22 4
  let slot := bits c 21 1
  if bits c 28 2 != 2 then notDue s
  else
    let x := s.port index
    let used : Bool := cls = 0 && (slot = x.txSlot || x.replay.any fun r => r.flit.slot = (slot = 1))
    if !keyPlace cls index || used then .next (s.keyErr true)
    else .next { s.keyErr false with keys := SMap.del s.keys (keyId cls index slot) }

/-! ### The alarm and DOE (R432, R435, R436, R421) -/

/-- What waits for a flit that can no longer be resent ends (R436): a transfer with outcome 5; a store or a declaration waits no longer. -/
def State.flitLost (s : State) : AckTo → State
  | .entry n => match s.entry? n with
    | none => s
    | some e => s.setEntry n { e with acc := 2, owed := 0, outcome := 5, fid := none }
  | .store o line => s.performed o line
  | .declare core slot => s.declareDone core slot
  | _ => s

/-- A port goes down and forgets its keys' counters: its link begins again at ctr 0 in slot 0 (R434, R436). -/
def State.portLost (s : State) (p : Nat) : State :=
  let x := s.port p
  let s := x.replay.foldl (fun s r => s.flitLost r.ack) s
  let s := x.lent.foldl (fun s c => s.poolBack c.2 1) s
  let s := s.setPort p { x with
    link := if x.en then 1 else 0, txSlot := 0, txCtr := 0, ctlCtr := 0, retiring := false, rxSlot := 0, rxNext := 0
    early := [], ctlSeen := [none, none], replay := [], ackOwed := false, nakOwed := false, credOwed := [0, 0, 0], credSent := [0, 0, 0], credSeen := [0, 0, 0], told := []
    refusals := [], unacked := [], lent := [], route := none, sentCtl := none }
  (s.setReady (24 + p) false).refuseRelays x.peer

/-- The alarm rises (R435, R436): keys are erased, ports and the host link go down, a snapshot is triggered. -/
def State.raiseAlarm (s : State) (cause : Nat) : State :=
  let r := s.reg 0x40080 0 ||| BitVec.ofNat 64 (2 ^ 31 + 2 ^ cause)
  let s := State.countLife { s with mmio := SMap.put s.mmio 0x40080 r, keys := [], kek := none, ide := (false, false), spdm := (s.spdm.1, false) } 70
  let s := (List.range 15).foldl State.portLost s
  let s := (List.range 4).foldl (fun s u => s.setReady (42 + u) false) s
  ((s.setReady 46 false).linkDown).snapTrigger 3 0 0

/-- `SECURITY_ALARM` (R436). -/
def execSecurityAlarm (cause : Fin 4) (s : State) : Res := .next (s.raiseAlarm cause.val)

/-- The alarm ends once no cause bit is set and a new session stands (R435). -/
def State.settleAlarm (s : State) : State :=
  let r := s.reg 0x40080 0
  if r.toNat % 16 = 0 && s.spdm.2 then { s with mmio := SMap.put s.mmio 0x40080 0 } else s

/-- `DOE_REQUEST` (R432, R435, R421): an SPDM authentication, three failures of which in a row raise the alarm; the
key-wrapping key of a session; an IDE stream set up or ended. -/
def execDoeRequest (m : DoeMsg) (s : State) : Res :=
  match m with
  | .session true => .next (State.settleAlarm { s with spdm := (0, true) })
  | .session false =>
    if 2 ≤ s.spdm.1 then .next (State.raiseAlarm { s with spdm := (0, s.spdm.2) } 3)
    else .next { s with spdm := (s.spdm.1 + 1, s.spdm.2) }
  | .wrapKey kek => if s.spdm.2 then .next { s with kek := some kek } else notDue s
  | .ideStream link up =>
    if up && !(s.spdm.2 && (s.reg 0x30000 0).getLsbD 39) then notDue s
    else .next { s with ide := if link then (s.ide.1, up) else (up, s.ide.2) }

/-! ### Power of a core (R390, R391, R2) -/

/-- `PM_CORE_WRITE` (R391): lo above hi is ignored; the step moves into [lo, hi]. -/
def execPmCoreWrite (core : Nat) (value : Word) (s : State) : Res :=
  let hi := bits value.toNat 26 6
  let lo := bits value.toNat 20 6
  if 192 ≤ core || hi < lo then .next s
  else
    let x := s.core core
    .next (s.setCore core { x with hi := hi, lo := lo, step := min 32 (max lo (min hi x.step)) })

/-- `POWER_MANAGER_LIMIT` (R2, R390): the power manager lowers a core's step. It never raises one again by itself (log entry 30). -/
def execPowerManagerLimit (core steps : Nat) (s : State) : Res :=
  let x := s.core core
  if 192 ≤ core || steps = 0 || x.step < steps then notDue s
  else .next (s.setCore core { x with step := x.step - steps })

/-! ### The scratchpad split (R387, R388) -/

/-- `CARVE_OUT_WRITE` (R388): a value above 10, or a write while a change is pending, is ignored. -/
def execCarveOutWrite (core : Nat) (value : Word) (s : State) : Res :=
  let x := s.core core
  let w := value.toNat % 16
  if 192 ≤ core || 10 < w || x.newWays.isSome then .next s else .next (s.setCore core { x with newWays := some w })

/-- Scratchpad bytes of a core's range are gone: they read zero (R388). -/
def State.clearPad (s : State) (core lo hi : Nat) : State :=
  { s with scratch := s.scratch.filter fun c => !(scratchKey core lo ≤ c.1 && c.1 < scratchKey core hi) }

/-- The windows of a core leave room in every set of its L1 for the lines they pin when it has `left` ways (R388, R322). -/
def State.pinsFit (s : State) (core left : Nat) : Bool :=
  let pins := s.pinned core
  pins.length ≤ left || pins.all fun n => (pins.filter fun m => Config.l1Set m = Config.l1Set n).length ≤ left

/-- The lines in the ways that move are written back and leave the L1 (R388); which of a core's unpinned lines these are is a free
value. -/
def State.leaveWays (s : State) (core : Nat) : State :=
  let pins := s.pinned core
  let lines := s.l1.filterMap fun e =>
    let n := e.1 % 2 ^ 46
    if e.1 / 2 ^ 46 = core && (s.tag core n).valid && !pins.contains n then some n else none
  let moved := lines.filter fun n => (Config.freeValue (s.free + n)).getLsbD 0
  let s := { s with free := s.free + 1 }
  moved.foldl (fun s n => (s.dirEvict core n).tagLines core [n] L1Tag.left) s

/-- A gang that waits at a queue's head for room is judged against the cores' split as it is now (R388). -/
def State.judgeAgain (s : State) : State :=
  ((List.range 64).filterMap fun q => (s.queue q).current.map fun lid => (q, lid)).foldl (fun s x =>
    match SMap.get? s.launches x.2 with
    | none => s
    | some l =>
      if l.started || !l.isGang then s
      else match s.refusal l (x.1 < 48) with
        | some code =>
          if [17, 18, 22].contains code then ((s.setQueue x.1 { s.queue x.1 with current := none }).takeHead x.1).refuse x.2 code else s
        | none => s) s

/-- `CARVE_OUT_DONE` (R388): the change waits for the blocks over ways that leave the scratchpad, or for the windows that pin lines
in ways that join it. -/
def execCarveOutDone (core : Nat) (s : State) : Res :=
  let x := s.core core
  match x.newWays with
  | none => notDue s
  | some w =>
    let lo := 65536 * min w x.ways
    let hi := 65536 * max w x.ways
    if w < x.ways && (s.blocksOn core).any fun e => e.2.base < hi && lo < e.2.base + e.2.size then notDue s
    else if x.ways < w && !s.pinsFit core (12 - w) then notDue s
    else
      let s := if x.ways < w then s.leaveWays core else s
      .next ((s.clearPad core lo hi).setCore core { x with ways := w, newWays := none }).judgeAgain

/-! ### Invalidation of translations (R404) -/

/-- The range of a `TR_INV` value: start and length. Size 3 with va 0 and every bit of [9:0] set is the whole context. -/
def invRange (value : Nat) : Nat × Nat :=
  let va := value / 4096 * 4096
  match bits value 10 2 with
  | 0 => (va, 2 ^ 12)
  | 1 => (va, 2 ^ 16)
  | 2 => (va, 2 ^ 21)
  | _ => if va = 0 && value % 1024 = 1023 then (0, 2 ^ 57) else (va, 2 ^ 30)

/-- A window holds a line of the range in its read or write set. -/
def Window.inRange (x : Window) (lo len : Nat) : Bool :=
  x.pages.any (fun p => overlaps (4096 * p) 4096 lo len) ||
    x.stores.any fun e => overlaps e.va (max 1 e.data.length) lo len

/-- The windows of a context that hold a line of the range roll back (R404, R325). -/
def State.invalidateWindows (s : State) (ctx lo len : Nat) : State :=
  (s.warps.map (·.1)).foldl (fun s key => match SMap.get? s.warps key with
    | none => s
    | some w =>
      if w.ctx != ctx then s
      else match w.windows.find? fun x => x.inRange lo len with
        | none => s
        | some x => s.rollbackTo (key / 64) (key % 64) x.serial true) s

/-- `TLB_INVALIDATE` (R404): a write of `TR_INV` while none runs: TLB entries of the range go, windows roll back. -/
def execTlbInvalidate (value : DWord) (s : State) : Res :=
  if s.inval.isSome then .next s
  else
    let ctx := (s.reg 0x2018 0).toNat % 4096
    let r := invRange value.toNat
    let s := { s with
      inval := some (ctx, r.1, r.2, s.nextEntry)
      tlb := s.tlb.filter fun t => !(t.ctx = ctx && overlaps t.va (2 ^ t.lgsz) r.1 r.2) }
    .next (s.invalidateWindows ctx r.1 r.2)

/-- An entry of the context, issued before number `before`, still makes accesses through a translation of an address of the range that
it made at issue: the destination of a transfer (R242, R243). -/
def State.oldAccess (s : State) (ctx lo len before : Nat) : Bool :=
  s.entries.any fun e => e.1 < before && e.2.ctx = ctx && (e.2.kind == .xfer || e.2.kind == .xmc) && e.2.fid.isNone && e.2.acc != 2 &&
    overlaps (e.2.args.getD (if e.2.kind == .xmc then 4 else 1) 0) (e.2.args.getD 0 0) lo len

/-- `TLB_INVALIDATE_DONE` (R404): busy clears. -/
def execTlbInvalidateDone (s : State) : Res :=
  match s.inval with
  | none => notDue s
  | some (ctx, lo, len, before) => if s.oldAccess ctx lo len before then notDue s else .next { s with inval := none }

end Sys2Proof.Machine
end

