-- ==== Sys2Proof/Machine/Fleet.lean ====
section
/-! DEFINITION. Snapshots (R437 to R439), the pre-copy stream (R442 to R444), lifetime records, power and reset (R448,
R431). -/
namespace Sys2Proof.Machine

/-! ### Snapshots -/

/-- The src field of a source (R438). -/
def snapCode : SnapSource → Nat
  | .snap => 0 | .host => 1 | .softError => 2 | .alarm => 3 | .doubleFault => 4 | .linkDown => 5

/-- `SNAPSHOT_TRIGGER` (R437): a trigger reaches the root; only `SNAP` and the host carry a tag, only `SNAP` a core. -/
def execSnapshotTrigger (src : SnapSource) (tag : BitVec 12) (core : Nat) (s : State) : Res :=
  let c := snapCode src
  .next (s.snapTrigger c (if c ≤ 1 then tag.toNat else 0) (if c = 0 then core else 0))

/-- `SNAPSHOT_HOST_TRIGGER` (R439): a write of `SN_TRIG`. -/
def execSnapshotHostTrigger (value : Word) (s : State) : Res := .next (s.snapTrigger 1 (value.toNat % 4096) 0)

/-- The block ids of R438. -/
def snapBlocks : List Nat :=
  List.range 192 ++ (List.range 48).map (256 + ·) ++ (List.range 12).map (512 + ·) ++ (List.range 15).map (768 + ·) ++
    (List.range 6).map (1024 + ·)

/-- Entries in use of a lull. -/
def State.lullUse (s : State) (k : Nat) : Nat := (s.lull k).kept.length

/-- The payload words of a block's record (R438), without trailing zeros. The count of TLB misses is not kept here: a free value. -/
def State.snapPayload (s : State) (id : Nat) : List Nat :=
  if id < 192 then
    let ws := (s.warps.filter fun e => e.1 / 64 = id).map (·.2)
    let n := (SMap.getD s.issued id 0).toNat
    [ws.length, (ws.filter fun w => match w.wait with | some (.becalmed _) => true | _ => false).length,
      (ws.filter fun w => LaneSet.any w.waiting).length, (s.core id).step,
      n % 2 ^ 32, n / 2 ^ 32, ws.foldl (fun n w => n + w.rollbacks.toNat) 0]
  else if id < 512 then
    let i := id - 256
    [(s.dir.filter fun e => homeSlice (e.1 * 128) = i).length, s.lullUse id,
      (s.warps.filter fun e => match e.2.wait with | some (.line (.line n)) => homeSlice (n * 128) = i | _ => false).length,
      (Config.freeValue (s.free + 1)).toNat % 2 ^ 32]
  else if id < 768 then
    [s.lullUse id, (s.entries.filter fun e => e.2.kind == .gemvn && e.2.started && e.2.acc != 2 && s.gemvnStack e.2 = id - 512).length]
  else if id < 1024 then
    let p := id - 768
    let x := s.port p
    [x.txCtr % 2 ^ 32, s.portState p, x.retx.toNat, x.authf.toNat, x.lent.length]
  else if id = 1024 then [((s.held.filterMap fun e => if 2 ^ 46 ≤ e.1 then some e.1 else none)).length, s.backInv.length]
  else if id = 1025 then [s.insts.length]
  else (List.range 3).map fun j => (SMap.getD s.ueCount (3 * (id - 1026) + j) 0).toNat % 2 ^ 32

/-- The 64-byte record of a block (R438); its clock count is a free value. -/
def State.snapRecord (s : State) (p : Snap) (id : Nat) : List Byte :=
  let words := s.snapPayload id
  bytesLE 32 (id % 2 ^ 16 * 2 ^ 112 + p.core % 256 * 2 ^ 136 + p.src % 16 * 2 ^ 144 + p.tag % 4096 * 2 ^ 148 +
    p.seq.toNat * 2 ^ 160 + (Config.freeValue s.free).toNat * 2 ^ 192) ++
  (List.range 8).flatMap fun k => bytesLE 4 (words.getD k 0)

/-- `SNAPSHOT_LATCH` (R438): a block latches and writes its record, once the record's lines are here; base 0 writes nothing. -/
def execSnapshotLatch (block : Nat) (s : State) : Res :=
  match s.snap with
  | none => notDue s
  | some p =>
    if !snapBlocks.contains block || p.latched.contains block then notDue s
    else
      let base := (s.reg 0x50008 0).toNat / 2 ^ 17 * 2 ^ 17
      let done := fun (s : State) => { s with free := s.free + 2, snap := some { p with latched := p.latched ++ [block] } }
      if base = 0 then .next (done s)
      else match s.hubWrite (base + 64 * block) (s.snapRecord p block) with
        | (s, true) => .next (done s)
        | (s, false) => .next s

/-- Every block has latched. -/
def Snap.full (p : Snap) : Bool := snapBlocks.all p.latched.contains

/-- `SNAPSHOT_DISTRIBUTION_END` (R437): 400 ns after acceptance, all blocks having latched; later triggers are new ones. -/
def execSnapshotDistributionEnd (s : State) : Res :=
  match s.snap with
  | none => notDue s
  | some p =>
    if !p.spread || !p.full then notDue s
    else .next { s with snap := if (s.reg 0x5001C 0).toNat = p.seq.toNat then none else some { p with spread := false } }

/-- `SNAPSHOT_DONE` (R439): every record of the sequence has been written. -/
def execSnapshotDone (s : State) : Res :=
  match s.snap with
  | none => notDue s
  | some p =>
    if !p.full || (s.reg 0x5001C 0).toNat = p.seq.toNat then notDue s
    else .next { s.snapDone p.seq with snap := if p.spread then some p else none }

/-! ### Pre-copy (R442 to R444) -/

/-- Base of the bitmap of a tracking range, base and bytes of its span (R440). -/
def State.track (s : State) (n : Nat) : Nat × Nat × Nat :=
  let span := (s.reg (0x2608 + 16 * n) 0).toNat
  ((s.reg (0x2600 + 16 * n) 0).toNat / 4096 * 4096, span / 2 ^ 30 * 2 ^ 30, span % 2 ^ 16 * 2 ^ 30)

/-- The bits that are set in word `k` of a range's bitmap, ascending (R440). -/
def State.dirtyBits (s : State) (n k : Nat) : List Nat :=
  let x := s.memNat ((s.track n).1 + 8 * k) 8
  (List.range 64).filter fun b => x.testBit b

/-- The first word of a range's bitmap, from word `k` on, in which a bit is set. -/
def State.dirtyWord (s : State) (n k : Nat) : Option Nat :=
  let (map, _, len) := s.track n
  (s.mem.find? fun c => map + 8 * k ≤ c.1 && c.1 < map + len / 2 ^ 15).map fun c => (c.1 - map) / 8

/-- One bitmap word is exchanged with 0, an event of its own (R442). -/
def State.clearWord (s : State) (n k : Nat) : State :=
  let loc : Loc := .mem ((s.track n).1 + 8 * k)
  let gs := loc.grans 8
  gs.foldl (fun s g => s.trigger none g) ((s.putBytes loc (bytesLE 8 0)).takeLines none false gs)

/-- The word at which the exchange of a pass goes on (R442): its ranges, and the words of each, in ascending order. -/
def State.nextWord (s : State) (p : PassRun) : Option (Nat × Nat) :=
  (List.range 4).findSome? fun n =>
    if n < p.pos.1 || bits p.ctl (24 + n) 1 = 0 || !(s.reg (0x2600 + 16 * n) 0).getLsbD 0 then none
    else (s.dirtyWord n (if n = p.pos.1 then p.pos.2 else 0)).map fun k => (n, k)

/-- The 32-byte header of a record (R443), its authenticated data. -/
def precopyHeader (r : PrecopyRecord) : List Byte :=
  bytesLE 32 (r.offset.toNat + r.range.val * 2 ^ 64 + r.ctr.toNat * 2 ^ 128 + r.pass.toNat * 2 ^ 192 + r.version % 2 ^ 16 * 2 ^ 224)

/-- The 96-bit IV: `PC_IVF`, then ctr (R443). -/
def State.precopyIv (s : State) (ctr : DWord) : BitVec 96 :=
  BitVec.ofNat 96 ((s.reg 0x2710 0).toNat % 2 ^ 32 * 2 ^ 64 + ctr.toNat)

/-- Where half `h` of a range's pages stands. -/
def State.halfPlace (s : State) (n h : Nat) : Nat := s.self * 2 ^ 48 + (s.track n).2.1 + 2048 * h

/-- Half `h` of a range as a sealed record of 2 KiB. -/
def State.sealHalf (s : State) (key : BitVec 256) (pass : Word) (ctr : DWord) (n : Fin 4) (h : Nat) : PrecopyRecord :=
  let r : PrecopyRecord :=
    { version := 1, pass := pass, ctr := ctr, range := n, offset := BitVec.ofNat 64 (2048 * h), payload := [], tag := [] }
  let x := gcmSeal key (s.precopyIv ctr) (precopyHeader r) (s.bytesAt (.mem (s.halfPlace n.val h)) 2048)
  { r with payload := x.1, tag := x.2 }

/-- `PC_CTL` as it reads: the fields of a write, busy and err. -/
def State.setPcCtl (s : State) (value : Nat) (busy err : Bool) : State :=
  let x := bits value 20 8 * 2 ^ 20 + (if busy then 2 ^ 31 else 0) + (if err then 2 ^ 30 else 0)
  { s with mmio := SMap.put s.mmio 0x2700 (BitVec.ofNat 64 x) }

/-- The key of the pass and its port (R432, R442): none where the key is missing or the port is down. -/
def State.passKey (s : State) (ctl : Nat) : Option KeySlot :=
  if (s.reg 0x30000 0).getLsbD (42 + bits ctl 22 2) then s.keySlot 3 0 (bits ctl 21 1) else none

/-- `PRECOPY_PASS` (R442): a write of `PC_CTL` with op 1. With no key or a port that is not ready the pass ends early. -/
def execPrecopyPass (value : Word) (s : State) : Res :=
  let v := value.toNat
  if bits v 28 2 != 1 then notDue s
  else if s.pass.isSome then .next s
  else
    let pass : Word := BitVec.ofNat 32 ((s.reg 0x2720 0).toNat + 1)
    let go := (s.passKey v).isSome
    let t := s.setPcCtl v go (!go)
    .next { t with
      mmio := SMap.put (SMap.put t.mmio 0x2720 (pass.setWidth 64)) 0x2724 0
      pass := if go then some { ctl := v, pos := (0, 0), halves := [], records := [] } else none }

/-- The page of a record: its range, and the page of the range. -/
def PrecopyRecord.page (r : PrecopyRecord) : Nat × Nat := (r.range.val, r.offset.toNat / 4096)

/-- The pass ends (R442): early, the bits of the pages that were not sent, or whose records nobody acknowledged, are set again. -/
def State.endPass (s : State) (p : PassRun) (early : Bool) : State :=
  let s := { s.setPcCtl (s.reg 0x2700 0).toNat false early with pass := none }
  if early then
    let unsent : List (Nat × Nat) := p.halves.map fun x => (x.1, x.2 / 2)
    let pages := (p.records.map PrecopyRecord.page ++ unsent).eraseDups
    pages.foldl (fun s x => s.setBit ((s.track x.1).1 + 8 * (x.2 / 64), x.2 % 64)) s
  else s

/-- One half of a page is read, sealed under the next counter and sent (R442, R443); `PC_SENT` counts the page with its upper half. -/
def State.sendHalf (s : State) (p : PassRun) (k : KeySlot) (n h : Nat) (rest : List (Nat × Nat)) : State :=
  let slot := bits p.ctl 21 1
  let port := bits p.ctl 22 2
  let ctr := SMap.getD s.pcCtr slot 0
  let r := s.sealHalf k.key (BitVec.ofNat 32 (s.reg 0x2720 0).toNat) ctr (Fin.ofNat 4 n) h
  let s := s.countLife 104
  { s with
    pass := some { p with halves := rest, records := p.records ++ [r] }
    pcCtr := SMap.put s.pcCtr slot (ctr + 1)
    mmio := SMap.put s.mmio 0x2724 (BitVec.ofNat 64 ((s.reg 0x2724 0).toNat + h % 2))
    ueCount := SMap.put s.ueCount (3 * port) (SMap.getD s.ueCount (3 * port) 0 + 1) }

/-- A pass goes on (R442): it sends a half of a page, or exchanges the next bitmap word; without its key or port it ends early. Lines that
are not here are asked for first. -/
def passStep (s : State) : Res :=
  match s.pass with
  | none => notDue s
  | some p =>
    match s.passKey p.ctl, p.halves with
    | none, _ => .next (s.endPass p true)
    | some k, (n, h) :: rest => match s.missingPiece false (s.halfPlace n h) 2048 with
      | some l => .next (s.request 192 0 l false).1
      | none => .next (s.sendHalf p k n h rest)
    | some _, [] => match s.nextWord p with
      | none => notDue s
      | some (n, w) =>
        if let some l := s.missingPiece true ((s.track n).1 + 8 * w) 8 then .next (s.request 192 0 l true).1 else
        let halves := (s.dirtyBits n w).flatMap fun b => [(n, 2 * (64 * w + b)), (n, 2 * (64 * w + b) + 1)]
        .next { s.clearWord n w with pass := some { p with pos := (n, w + 1), halves := halves } }

/-- The receiver acknowledges a record of the pass (R444). -/
def State.ackRecord (s : State) (k : Nat) : State :=
  match s.pass with
  | none => s
  | some p => { s with pass := some { p with records := p.records.eraseIdx k } }

/-- `PRECOPY_PASS_END` (R442): every record has been sent and is acknowledged now; or the pass ends early. -/
def execPrecopyPassEnd (acked : Bool) (s : State) : Res :=
  match s.pass with
  | none => notDue s
  | some p =>
    if acked && (!p.halves.isEmpty || (s.nextWord p).isSome) then notDue s else .next (s.endPass p (!acked))

/-! ### Time of a core (R448) -/

/-- A core has run for a second at its step, in a band of junction temperature (R448). -/
def State.second (s : State) (core band : Nat) : State :=
  s.countLife (8 * min ((s.core core).step / 4) 7 + min band 7)

/-- A received record is accepted (R444): its payload. -/
def State.openRecord (s : State) (r : PrecopyRecord) : Option (List Byte) :=
  let slot := bits (s.reg 0x2700 0).toNat 21 1
  let (_, _, len) := s.track r.range.val
  let seen := s.pcSeen.filterMap fun e => if e.1 = slot then some e.2.toNat else none
  let old := seen.any fun c => c = r.ctr.toNat || r.ctr.toNat + 65536 < c
  if r.version != 1 || len < r.offset.toNat + 2048 || r.offset.toNat % 2048 != 0 || old then none
  else (s.keySlot 3 0 slot).bind fun k =>
    (gcmOpen k.key (s.precopyIv r.ctr) (precopyHeader r) r.payload r.tag).filter fun bs => bs.length = 2048

/-- `PRECOPY_RECORD_RECEIVE` (R444): an accepted record is written and acknowledged; a refused one counts. Where lines of its place are
not here they are asked for, and the record is neither: it comes again. -/
def execPrecopyRecordReceive (r : PrecopyRecord) (s : State) : Res :=
  if !(s.reg 0x2700 0).getLsbD 20 then notDue s
  else match s.openRecord r with
    | none => .next (s.countLife 105)
    | some bs =>
      let (_, base, _) := s.track r.range.val
      let slot := bits (s.reg 0x2700 0).toNat 21 1
      match s.hubWrite (s.self * 2 ^ 48 + base + r.offset.toNat) bs with
      | (s, true) => .next { s with pcSeen := (slot, r.ctr) :: s.pcSeen }
      | (s, false) => .next s

/-! ### Lifetime records (R448) -/

/-- The counters are committed to flash. -/
def State.commitLife (s : State) : State := { s with flash := s.life, commits := s.commits + 1 }

/-- `LIFETIME_COMMIT` (R448): every 60 s. -/
def execLifetimeCommit (s : State) : Res := .next s.commitLife

/-- The 880-byte image as of the last commit. -/
def State.lifeImage (s : State) : List Byte :=
  bytesLE 4 0x544C594B ++ bytesLE 2 1 ++ bytesLE 2 880 ++ bytesLE 8 Config.deviceSerial.toNat ++
    bytesLE 8 s.commits.toNat ++ List.replicate 8 0 ++
    (List.range 106).flatMap fun i => bytesLE 8 (SMap.getD s.flash i 0).toNat

/-- `LIFETIME_DUMP` (R448): `LT_CMD` op 1 writes the image at `LT_ADDR`; busy stands while lines of its place are not here. -/
def execLifetimeDump (value : Word) (s : State) : Res :=
  if bits value.toNat 28 2 != 1 then notDue s
  else
    let (t, done) := s.hubWrite ((s.reg 0x2908 0).toNat / 16 * 16) s.lifeImage
    .next { t with mmio := SMap.put t.mmio 0x2900 (if done then 0 else 2 ^ 31) }

/-! ### Reset and power (R431, R448) -/

/-- Registers, ready bits and everything in flight are as after reset; what no rule says reset changes stays: memory, the
device's index, the lifetime counters and their flash, the count of free values. -/
def State.restart (s : State) : State :=
  { State.reset with
    agenda := s.agenda, free := s.free, self := s.self, present := BitVec.ofNat 16 (2 ^ s.self), mem := s.mem
    scratch := s.scratch, life := s.life, flash := s.flash, commits := s.commits }

/-- `RESET` (R431). -/
def execReset (s : State) : Res := .next s.restart

/-- What a loss of supply leaves: host memory and flash; the counters come back as of the last commit. -/
def State.powerOff (s : State) : State :=
  { s.restart with mem := s.mem.filter fun c => 2 ^ 53 ≤ c.1, scratch := [], life := s.flash }

/-- `ORDERLY_POWER_DOWN` (R448): the counters are committed first. -/
def execOrderlyPowerDown (s : State) : Res := .next s.commitLife.powerOff

/-- `POWER_LOSS` (R448). -/
def execPowerLoss (s : State) : Res := .next s.powerOff

end Sys2Proof.Machine
end

