-- ==== Sys2Proof/Machine/Lanes.lean ====
section
/-! DEFINITION. Packed and saturating integers, cross-lane movement, warp reductions and scans, and the main-file moves
that inspect nothing (R171 to R180). -/
namespace Sys2Proof.Machine

/-! ### Packed and saturating integers (R171, R172) -/

/-- An integer and whether a clamp changed it. -/
structure Sat where
  val : Word
  sat : Bool

/-- sat32 of an exact integer (R171). -/
def sat32 (x : Int) : Sat := ⟨BitVec.ofInt 32 (satTo 32 x), satTo 32 x != x⟩

/-- An X-pipe word that may saturate: `f` gets d, a, b; bit l of `sr.sat` is set at the end of its latency. -/
def satWord (i : Instr) (h : Hdr) (d a b : Near) (ty : ElemTy) (f : Word → Word → Word → Sat) (s : State) : Res :=
  regWord i h s (f := fun before act w =>
    let out := fun (l : Fin 32) => f (before.read32 ty d l) (before.read32 ty a l) (before.read32 ty b l)
    (w.put32 d act (fun l => (out l).val) 2).addSticky 2 (satMask act fun l => (out l).sat) 0)

/-- Signed element `j` of `w` bits. -/
def elemS (w : Nat) (x : Word) (j : Nat) : Int := sextNat (bits x.toNat (w * j) w) w

/-- A packed 16-bit word of two results. -/
def pack16 (f : Nat → Int) : Word :=
  BitVec.ofNat 32 ((BitVec.ofInt 16 (f 0)).toNat + (BitVec.ofInt 16 (f 1)).toNat * 2 ^ 16)

/-- A packed 16-bit word that does not saturate. -/
def packedInt (i : Instr) (h : Hdr) (d a b : Near) (f : Int → Int → Int) (s : State) : Res :=
  regWord i h s (f := fun before act w =>
    w.put32 d act (fun l => pack16 fun j =>
      f (elemS 16 (before.read32 .i16x2 a l) j) (elemS 16 (before.read32 .i16x2 b l) j)) 2)

/-- The exact sum of a packed dot product of `n` elements of `w` bits, added to d. -/
def dotSum (w n : Nat) (d a b : Word) : Int :=
  (List.range n).foldl (fun z j => z + elemS w a j * elemS w b j) d.toInt

/-- A dot product: d is read as INT32; `clamp` chooses the saturating form. -/
def dotWord (i : Instr) (h : Hdr) (d a b : Near) (ty : ElemTy) (w n : Nat) (clamp : Bool) (s : State) : Res :=
  satWord i h d a b ty (fun z x y =>
    let r := dotSum w n z x y
    if clamp then sat32 r else ⟨BitVec.ofInt 32 r, false⟩) s

/-- `SATADD.i32` (R171). -/
def execSataddI32 (h : Hdr) (d a b : Near) (s : State) : Res :=
  satWord (.sataddI32 h d a b) h d a b .int (fun _ x y => sat32 (x.toInt + y.toInt)) s
/-- `SATSUB.i32` (R171). -/
def execSatsubI32 (h : Hdr) (d a b : Near) (s : State) : Res :=
  satWord (.satsubI32 h d a b) h d a b .int (fun _ x y => sat32 (x.toInt - y.toInt)) s
/-- `IADD.i16x2` (R171). -/
def execIaddI16x2 (h : Hdr) (d a b : Near) (s : State) : Res :=
  packedInt (.iaddI16x2 h d a b) h d a b (fun x y => x + y) s
/-- `ISUB.i16x2` (R171). -/
def execIsubI16x2 (h : Hdr) (d a b : Near) (s : State) : Res :=
  packedInt (.isubI16x2 h d a b) h d a b (fun x y => x - y) s
/-- `IMIN.i16x2` (R171). -/
def execIminI16x2 (h : Hdr) (d a b : Near) (s : State) : Res :=
  packedInt (.iminI16x2 h d a b) h d a b (fun x y => min x y) s
/-- `IMAX.i16x2` (R171). -/
def execImaxI16x2 (h : Hdr) (d a b : Near) (s : State) : Res :=
  packedInt (.imaxI16x2 h d a b) h d a b (fun x y => max x y) s
/-- `PDOT2.i16x2` (R171). -/
def execPdot2I16x2 (h : Hdr) (d a b : Near) (s : State) : Res :=
  dotWord (.pdot2I16x2 h d a b) h d a b .i16x2 16 2 false s
/-- `PDOT2S.i16x2` (R171): one clamp of the exact sum. -/
def execPdot2sI16x2 (h : Hdr) (d a b : Near) (s : State) : Res :=
  dotWord (.pdot2sI16x2 h d a b) h d a b .i16x2 16 2 true s
/-- `PDOT4.i8x4` (R171). -/
def execPdot4I8x4 (h : Hdr) (d a b : Near) (s : State) : Res :=
  dotWord (.pdot4I8x4 h d a b) h d a b .i8x4 8 4 false s
/-- `PDOT4S.i8x4` (R171). -/
def execPdot4sI8x4 (h : Hdr) (d a b : Near) (s : State) : Res :=
  dotWord (.pdot4sI8x4 h d a b) h d a b .i8x4 8 4 true s
/-- The rounded shift r of R172. -/
def roundShift (a b : Word) : Int :=
  let n := b.toNat
  if n = 0 then a.toInt else if n < 32 then (a.toInt + 2 ^ (n - 1)) / 2 ^ n else 0
/-- `SHRR.i32` (R172). -/
def execShrrI32 (h : Hdr) (d a b : Near) (s : State) : Res :=
  satWord (.shrrI32 h d a b) h d a b .int (fun _ x y => ⟨BitVec.ofInt 32 (roundShift x y), false⟩) s
/-- `SHRRS.i16` (R172). -/
def execShrrsI16 (h : Hdr) (d a b : Near) (s : State) : Res :=
  satWord (.shrrsI16 h d a b) h d a b .int (fun _ x y =>
    let r := roundShift x y
    ⟨BitVec.ofInt 32 (satTo 16 r), satTo 16 r != r⟩) s
/-- `PACK.b16` (R171). -/
def execPackB16 (h : Hdr) (d a b : Near) (s : State) : Res :=
  alu2 (.packB16 h d a b) h d a b (fun x y => BitVec.ofNat 32 (bits x.toNat 0 16 + bits y.toNat 0 16 * 2 ^ 16)) s
/-- `UNPKL.i16` (R171): a has no type in the entry, and takes the integer column of R111 (DEDUCED, log entry 101). -/
def execUnpklI16 (h : Hdr) (d a : Near) (s : State) : Res :=
  regWord (.unpklI16 h d a) h s (f := fun before act w =>
    w.put32 d act (fun l => BitVec.ofInt 32 (elemS 16 (before.read32 .int a l) 0)) 2)
/-- `UNPKH.i16` (R171), with the column of log entry 101. -/
def execUnpkhI16 (h : Hdr) (d a : Near) (s : State) : Res :=
  regWord (.unpkhI16 h d a) h s (f := fun before act w =>
    w.put32 d act (fun l => BitVec.ofInt 32 (elemS 16 (before.read32 .int a l) 1)) 2)
/-- `SATADD.i16x2` (R171). -/
def execSataddI16x2 (h : Hdr) (d a b : Near) (s : State) : Res :=
  satWord (.sataddI16x2 h d a b) h d a b .i16x2 (fun _ x y =>
    let r := fun j => elemS 16 x j + elemS 16 y j
    ⟨pack16 fun j => satTo 16 (r j), (satTo 16 (r 0) != r 0) || (satTo 16 (r 1) != r 1)⟩) s

/-! ### Cross-lane movement (R173 to R176) -/

/-- Lane `base + s` of lane `l`'s tile of `t` lanes (R173). -/
def tileLane (t : Nat) (l : Fin 32) (s : Nat) : Fin 32 := Fin.ofNat 32 (l.val / t * t + s % t)

/-- An `XLANE` form (R174): `pos` gets t, i and b(l). -/
def xlane (i : Instr) (h : Hdr) (d a b : Near) (pos : Nat → Nat → Word → Nat) (s : State) : Res :=
  regWord i h s (f := fun before act w =>
    let t := before.regs.tile
    w.put32 d act (fun l =>
      before.read32 .int a (tileLane t l (pos t (l.val % t) (before.read32 .int b l)))) 2)

/-- `XLANE.get` (R174). -/
def execXlaneGet (h : Hdr) (d a b : Near) (s : State) : Res :=
  xlane (.xlaneGet h d a b) h d a b (fun t _ x => x.toNat % t) s
/-- `XLANE.shift` (R174). -/
def execXlaneShift (h : Hdr) (d a b : Near) (s : State) : Res :=
  xlane (.xlaneShift h d a b) h d a b (fun t i x =>
    let p : Int := i - x.toInt
    if 0 ≤ p ∧ p < t then p.toNat else i) s
/-- `XLANE.rot` (R174). -/
def execXlaneRot (h : Hdr) (d a b : Near) (s : State) : Res :=
  xlane (.xlaneRot h d a b) h d a b (fun t i x => (((i : Int) - x.toNat) % t).toNat) s
/-- `XLANE.bfly` (R174). -/
def execXlaneBfly (h : Hdr) (d a b : Near) (s : State) : Res :=
  xlane (.xlaneBfly h d a b) h d a b (fun t i x => i ^^^ (x.toNat % t)) s

/-- The highest sender of `act` whose value arrives at lane `l` (R175). -/
def pushSender (t : Nat) (act : LaneSet) (b : Fin 32 → Word) (l : Fin 32) : Option (Fin 32) :=
  (LaneSet.list act).reverse.find? fun j => tileLane t j (b j).toNat == l

/-- `PUSH` (R175). -/
def execPush (h : Hdr) (d a b : Near) (s : State) : Res :=
  regWord (.push h d a b) h s (f := fun before act w =>
    let from_ := pushSender before.regs.tile act (fun j => before.read32 .int b j)
    w.put32 d (Lanes.ofFn fun l => act[l] && (from_ l).isSome)
      (fun l => (from_ l).elim 0 fun j => before.read32 .int a j) 2)

/-- Element `e` of a tile's vector of 16-bit elements (R176): `x` gives each lane's register. -/
def tileElem (t : Nat) (l : Fin 32) (x : Fin 32 → Word) (e : Nat) : Nat :=
  bits (x (tileLane t l (e / 2))).toNat (16 * (e % 2)) 16

/-- A `SLIDE` (R176): `out` gives element e of the result from E, F and t. Operand a has no type in the entry and takes the integer
column of R111 (DEDUCED, log entry 101), b the `i16x2` column. -/
def slide (i : Instr) (h : Hdr) (d a b : Near) (out : (Nat → Nat) → (Nat → Nat) → Nat → Nat → Nat) (s : State) : Res :=
  regWord i h s (f := fun before act w =>
    let t := before.regs.tile
    w.put32 d act (fun l =>
      let el := tileElem t l fun j => before.read32 .int a j
      let fl := tileElem t l fun j => before.read32 .i16x2 b j
      let p := l.val % t
      BitVec.ofNat 32 (out el fl t (2 * p) + out el fl t (2 * p + 1) * 2 ^ 16)) 2)

/-- `SLIDE.up` (R176). -/
def execSlideUp (h : Hdr) (d a b : Near) (s : State) : Res :=
  slide (.slideUp h d a b) h d a b (fun el fl t e => if e = 0 then fl (2 * t - 1) else el (e - 1)) s
/-- `SLIDE.down` (R176). -/
def execSlideDown (h : Hdr) (d a b : Near) (s : State) : Res :=
  slide (.slideDown h d a b) h d a b (fun el fl t e => if e + 1 = 2 * t then fl 0 else el (e + 1)) s

/-! ### Warp reductions and scans (R177, R178) -/

/-- An integer reduction: `f` gets the values of T(l), with their lanes, and l. -/
def reduce (i : Instr) (h : Hdr) (d a : Near) (f : List (Fin 32 × Word) → Fin 32 → Word) (s : State) : Res :=
  regWord i h s (f := fun before act w =>
    w.put32 d act (fun l =>
      f ((tileSet before.regs.tile act l).map fun j => (j, before.read32 .int a j)) l) 2)

/-- The first of a list of words that `c` puts before every later one. -/
def bestOf (c : Word → Word → Bool) : List Word → Word
  | [] => 0
  | x :: xs => xs.foldl (fun m y => if c y m then y else m) x

/-- `WRED.iadd` (R177). -/
def execWredIadd (h : Hdr) (d a : Near) (s : State) : Res :=
  reduce (.wredIadd h d a) h d a (fun vs _ => vs.foldl (fun z e => z + e.2) 0) s
/-- `WRED.imin` (R177). -/
def execWredImin (h : Hdr) (d a : Near) (s : State) : Res :=
  reduce (.wredImin h d a) h d a (fun vs _ => bestOf BitVec.slt (vs.map (·.2))) s
/-- `WRED.imax` (R177). -/
def execWredImax (h : Hdr) (d a : Near) (s : State) : Res :=
  reduce (.wredImax h d a) h d a (fun vs _ => bestOf (fun x y => y.slt x) (vs.map (·.2))) s
/-- `SCAN.iadd` (R177): inclusive. -/
def execScanIadd (h : Hdr) (d a : Near) (s : State) : Res :=
  reduce (.scanIadd h d a) h d a (fun vs l =>
    (vs.filter fun e => e.1.val ≤ l.val).foldl (fun z e => z + e.2) 0) s

/-- A tree node with the flags of its rounding. -/
def nodeF : Option FOut → Option FOut → Option FOut
  | none, r => r
  | l, none => l
  | some l, some r =>
    let x := treeAddF l.val r.val
    some ⟨x.val, (BitVec.ofNat 5 l.flags ||| BitVec.ofNat 5 r.flags ||| BitVec.ofNat 5 x.flags).toNat⟩

/-- The tree of R63 over leaves with the flags of every rounding. -/
def treeValueF : Nat → List (Option FOut) → Option FOut
  | 0, ls => ls.head?.getD none
  | m + 1, ls => treeValueF m (pairs ls)
where
  /-- One level. -/
  pairs : List (Option FOut) → List (Option FOut)
    | l :: r :: rest => nodeF l r :: pairs rest
    | ls => ls

/-- The reduction tree of `WRED.fadd` in lane `l`'s tile (R178). -/
def wredTree (t : Nat) (act : LaneSet) (x : Fin 32 → Word) (l : Fin 32) : FOut :=
  let leaves := (List.range t).map fun i =>
    let j := tileLane t l i
    if act[j] then some (⟨ingress (x j).toNat, 0⟩ : FOut) else none
  match treeValueF 5 leaves with
  | none => ⟨0, 0⟩
  | some r => ⟨rootValue r.val, r.flags⟩

/-- `WRED.fadd` (R178). -/
def execWredFadd (h : Hdr) (d a : Near) (s : State) : Res :=
  regWord (.wredFadd h d a) h s (f := fun before act w =>
    let out := wredTree before.regs.tile act (fun j => before.read32 .f32 a j)
    (w.put32 d act (fun l => BitVec.ofNat 32 (out l).val) 2).addSticky 2 0 (orFlags act fun l => (out l).flags))

/-! ### Main-file moves that inspect nothing (R179) -/

/-- `GET` (R179): latency 3 (R158). -/
def execGet (h : Hdr) (v : Fin 128) (a : Near) (s : State) : Res :=
  regWord (.get h v a) h s (f := fun before act w => w.put32 a act (fun l => before.readV v.val l) 3)
/-- `PUT` (R179): latency 4. -/
def execPut (h : Hdr) (v : Fin 128) (a : Near) (s : State) : Res :=
  regWord (.put h v a) h s [v.val] (f := fun before act w =>
    let f := fun (l : Fin 32) => before.read32 .int a l
    (w.setV v.val act f 4).shiftY act (fun l => (f l).setWidth 64) 4)
/-- `GET2` (R179). -/
def execGet2 (h : Hdr) (v : Fin 128) (a : Near) (s : State) : Res :=
  regWord (.get2 h v a) h s (f := fun before act w =>
    w.put64 a act (fun l => before.readV (v.val + 1) l ++ before.readV v.val l) 3)
/-- `PUT2` (R179). -/
def execPut2 (h : Hdr) (v : Fin 128) (a : Near) (s : State) : Res :=
  regWord (.put2 h v a) h s [v.val, v.val + 1] (f := fun before act w =>
    ((w.setV v.val act (fun l => before.readAt a 0 l) 4).setV (v.val + 1) act (fun l => before.readAt a 1 l) 4).shiftY
      act (fun l => before.read64 a l) 4)
/-- `VADD.i32` (R179). -/
def execVaddI32 (h : Hdr) (v : Fin 128) (a : Near) (s : State) : Res :=
  regWord (.vaddI32 h v a) h s [v.val] (f := fun before act w =>
    let f := fun (l : Fin 32) => before.readV v.val l + before.read32 .int a l
    (w.setV v.val act f 4).shiftY act (fun l => (f l).setWidth 64) 4)
/-- `VSWAP` (R179): the shift takes the new a. -/
def execVswap (h : Hdr) (v : Fin 128) (a : Near) (s : State) : Res :=
  regWord (.vswap h v a) h s [v.val] (f := fun before act w =>
    (w.setV v.val act (fun l => before.read32 .int a l) 4).put32 a act (fun l => before.readV v.val l) 4)

end Sys2Proof.Machine
end

