-- ==== Sys2Proof/Machine/Writes.lean ====
section
/-! DEFINITION. Writes of the device's registers (R428), by the host or by a word's store to a device-MMIO page: which fields
they set, and the steps that a command starts. -/
namespace Sys2Proof.Machine

/-- Sets what the register at `off` holds. -/
def State.setReg (s : State) (off : Nat) (x : Nat) : State := { s with mmio := SMap.put s.mmio off (BitVec.ofNat 64 x) }

/-- A step for a command register, a write that sets fields, or nothing (R428: bytes of no register, read-only fields). -/
def keep (s : State) : Res := .next s

/-- Offsets of the 64-bit registers. -/
def isQuad (o : Nat) : Bool :=
  (o < 0x600 && o % 32 = 0) || (0x3000 ≤ o && o < 0x3600 && o % 8 = 0) ||
    (0x20100 ≤ o && o < 0x20500 && o % 16 = 0) || (0x40010 ≤ o && o < 0x40038 && o % 8 = 0) ||
    (0x2600 ≤ o && o < 0x2640 && o % 8 = 0) ||
    [0x2000, 0x2010, 0x2040, 0x2200, 0x2300, 0x2308, 0x2408, 0x2508, 0x2708, 0x2718, 0x2800, 0x2908, 0x20000, 0x30000, 0x30008,
      0x50008].contains o

/-- Host-link memory is in use: its window stays as it is (R426). -/
def State.memInUse (s : State) : Bool := (s.reg 0x2500 0).getLsbD 30

/-- A range is tracked: its span and its map stay as they are (R440). -/
def State.tracked (s : State) (o : Nat) : Bool := (s.reg (o / 16 * 16) 0).getLsbD 0

/-- A write of a 64-bit register: `v` is its value with the written half or halves replaced, `ones` the written bits that are
1, `hi` that the upper half is written (R428). -/
def State.writeQuad (s : State) (o : Nat) (v : DWord) (ones : Nat) (hi : Bool) : Res :=
  let x := v.toNat
  if o < 0x600 then keep (if (s.reg (o + 8) 8).getLsbD 31 then s else s.setReg o (x / 4096 * 4096))
  else if 0x3000 ≤ o && o < 0x3600 then keep (s.setReg o ((s.reg o 0) &&& ~~~(BitVec.ofNat 64 ones)).toNat)
  else if 0x2600 ≤ o && o < 0x2640 then
    if o % 16 = 0 then
      keep (if s.tracked o then s.setReg o ((s.reg o 0).toNat / 4096 * 4096 + x % 2) else s.setReg o (x / 4096 * 4096 + x % 2))
    else keep (if s.tracked o then s else s.setReg o (x / 2 ^ 30 * 2 ^ 30 + x % 2 ^ 16))
  else if 0x20100 ≤ o && o < 0x20500 then
    let slot := Fin.ofNat 64 ((o - 0x20100) / 16)
    let s := s.setReg (o + 8) (x % 2)
    if !hi then keep (s.setReg o (x / 4096 * 4096 + (s.reg o 0).toNat % 4))
    else if x % 2 = 1 then execPlanLoad slot v s else execPlanUnload slot v s
  else if 0x40010 ≤ o && o < 0x40038 then keep (s.setReg o x)
  else match o with
    | 0x2010 =>
      if s.inval.isSome then keep s
      else if hi then execTlbInvalidate v (s.setReg o x) else keep (s.setReg o x)
    | 0x2300 => if hi then execPreemptRequest v s else keep (s.setReg o x)
    | 0x2408 =>
      if s.recalls.any (·.driver) then keep s
      else if hi then execDriverRecall v (s.setReg o x) else keep (s.setReg o x)
    | 0x2508 => keep (if s.memInUse then s else s.setReg o (x / 2 ^ 30 * 2 ^ 30))
    | 0x2000 | 0x2040 | 0x2200 | 0x2308 | 0x2800 => keep (s.setReg o (x / 4096 * 4096))
    | 0x2708 | 0x20000 => keep (s.setReg o x)
    | 0x2908 => keep (s.setReg o (x / 16 * 16))
    | 0x50008 => keep (s.setReg o (x / 2 ^ 17 * 2 ^ 17))
    | _ => keep s

/-- `LQ_CFG` of queue `n` (R380, R381): lgsz stays while the queue is on, and is 8 for device queues. -/
def State.writeQueueCfg (s : State) (n x : Nat) : State :=
  let o := 32 * n + 8
  let old := (s.reg o 8).toNat
  let lg := x % 16
  let lg := if 48 ≤ n || old / 2 ^ 31 % 2 = 1 || lg < 4 then old % 16 else lg
  s.setReg o (x / 2 ^ 31 % 2 * 2 ^ 31 + x / 2 ^ 8 % 4 * 2 ^ 8 + lg)

/-- A write of a queue's 32-bit registers. -/
def State.writeQueue (s : State) (n o : Nat) (v : Word) : Res :=
  match o with
  | 0x08 => keep (s.writeQueueCfg n v.toNat)
  | 0x10 => execQueueTailWrite n v s
  | 0x18 => keep (s.setReg (32 * n + 0x18) (v.toNat % 4096))
  | _ => keep s

/-- A write of `EF_RES` (R405, R406). -/
def writeEfRes (v : Word) (s : State) : Res :=
  match bits v.toNat 16 2 with
  | 1 => execEngineFaultResume (v.toNat % 2 ^ 16) s
  | 2 => execEngineFaultAbandon (v.toNat % 2 ^ 16) s
  | _ => keep s

/-- A write of `PE_CTL` (R408). -/
def writePeCtl (v : Word) (s : State) : Res :=
  match bits v.toNat 28 2 with
  | 1 => execContextSave v s
  | 2 => execContextRestore v s
  | _ =>
    let r := s.reg 0x2310 0
    keep (s.setPeCtl (r.getLsbD 31) (r.getLsbD 30) (v.toNat % 4096))

/-- A write of `PC_CTL` (R442). -/
def writePcCtl (v : Word) (s : State) : Res :=
  if bits v.toNat 28 2 = 1 then execPrecopyPass v s
  else
    let r := s.reg 0x2700 0
    keep (s.setPcCtl v.toNat (r.getLsbD 31) (r.getLsbD 30))

/-- A write of `KY_CMD` (R432). -/
def writeKeyCmd (v : Word) (s : State) : Res :=
  match bits v.toNat 28 2 with
  | 1 => execKeyLoad v s
  | 2 => execKeyErase v s
  | _ => keep s

/-- A write of a 32-bit register. -/
def State.writeWord (s : State) (o : Nat) (v : Word) : Res :=
  let x := v.toNat
  if o < 0x800 then s.writeQueue (o / 32) (o % 32) v
  else if 0x1000 ≤ o && o < 0x1300 then execCarveOutWrite ((o - 0x1000) / 4) v s
  else if 0x1400 ≤ o && o < 0x1700 then execPmCoreWrite ((o - 0x1400) / 4) v s
  else if 0x10000 ≤ o && o < 0x10F00 then if o % 256 = 0 then execDxpCtlWrite ((o - 0x10000) / 256) v s else keep s
  else if 0x12000 ≤ o && o < 0x12300 then keep (s.setReg o (x % 4096))
  else match o with
    | 0x1800 | 0x2400 => keep (s.setReg o (x / 2 ^ 31 * 2 ^ 31))
    | 0x2018 => keep (s.setReg o (x % 4096))
    | 0x2048 | 0x2314 | 0x2710 | 0x2814 => keep (s.setReg o x)
    | 0x204C => execSpillAreaMove v s
    | 0x2208 => execEfCfgWrite v s
    | 0x2214 => execEfHeadWrite v s
    | 0x2218 => writeEfRes v s
    | 0x2310 => writePeCtl v s
    | 0x2500 => execHxCtlWrite v s
    | 0x2510 => keep (if s.memInUse then s else s.setReg o x)
    | 0x2700 => writePcCtl v s
    | 0x2808 => keep (s.setReg o (x / 2 ^ 30 * 2 ^ 30 + x % 16))
    | 0x2900 => if bits x 28 2 = 1 then execLifetimeDump v s else keep s
    | 0x40000 => writeKeyCmd v s
    | 0x40008 => keep (s.setReg o (x % 2 ^ 24))
    | 0x40040 => keep (s.setReg o ((s.reg o 0).toNat &&& (2 ^ 64 - 1 - x)))
    | 0x40080 => keep (s.setReg o ((s.reg o 0).toNat &&& (2 ^ 64 - 1 - x % 16)) |>.settleAlarm)
    | 0x50000 => keep (s.setReg o (x % 64))
    | 0x50010 => execSnapshotHostTrigger v s
    | _ => keep s

/-- The lower half of a 64-bit register as last written (R428). Only `CE_PSLOT` has one whose bits are not all kept in it: the load or
unload that was written, kept beside the register. -/
def State.lowHalf (s : State) (o : Nat) : Nat :=
  let x := (s.reg o 0).toNat % 2 ^ 32
  if 0x20100 ≤ o && o < 0x20500 then x / 4 * 4 + (s.reg (o + 8) 0).toNat % 2 else x

/-- A write of 4 bytes at an offset: a half of a 64-bit register, or a 32-bit register. -/
def State.write32 (s : State) (o : Nat) (v : Word) : Res :=
  if isQuad (o / 8 * 8) then
    let old := (s.reg (o / 8 * 8) 0).toNat
    if o % 8 = 0 then s.writeQuad o (BitVec.ofNat 64 (old / 2 ^ 32 * 2 ^ 32 + v.toNat)) v.toNat false
    else s.writeQuad (o / 8 * 8) (BitVec.ofNat 64 (s.lowHalf (o / 8 * 8) + v.toNat * 2 ^ 32)) (v.toNat * 2 ^ 32) true
  else s.writeWord o v

/-- `REGISTER_WRITE` (R428): an aligned access of 4 or 8 bytes to the device's registers. -/
def execRegisterWrite (offset size : Nat) (value : DWord) (s : State) : Res :=
  let lo : Word := value.setWidth 32
  if size = 4 && offset % 4 = 0 then s.write32 offset lo
  else if size = 8 && offset % 8 = 0 then
    if isQuad offset then s.writeQuad offset value value.toNat true
    else match s.write32 offset lo with
      | .next t => t.write32 (offset + 4) (BitVec.ofNat 32 (value.toNat / 2 ^ 32))
      | r => r
  else .next s

end Sys2Proof.Machine
end

