-- ==== Sys2Proof/Machine/Dispatch.lean ====
section
/-! DEFINITION. The meaning of every step of the part: one arm per constructor, one direct call each. -/
namespace Sys2Proof.Machine

/-- What a step of the part does to the device. -/
def exec (i : Instr) (s : State) : Host.Outcome State Fault Refusal :=
  match i with
  | .faddF32 h d a b => Sys2Proof.Machine.execFaddF32 h d a b s
  | .fsubF32 h d a b => Sys2Proof.Machine.execFsubF32 h d a b s
  | .fmulF32 h d a b => Sys2Proof.Machine.execFmulF32 h d a b s
  | .ffmaF32 h d a b => Sys2Proof.Machine.execFfmaF32 h d a b s
  | .fminF32 h d a b => Sys2Proof.Machine.execFminF32 h d a b s
  | .fmaxF32 h d a b => Sys2Proof.Machine.execFmaxF32 h d a b s
  | .fabsF32 h d a => Sys2Proof.Machine.execFabsF32 h d a s
  | .fnegF32 h d a => Sys2Proof.Machine.execFnegF32 h d a s
  | .frndF32 h d a b => Sys2Proof.Machine.execFrndF32 h d a b s
  | .fscaleF32 h d a b => Sys2Proof.Machine.execFscaleF32 h d a b s
  | .frcpF32 h d a => Sys2Proof.Machine.execFrcpF32 h d a s
  | .frsqF32 h d a => Sys2Proof.Machine.execFrsqF32 h d a s
  | .fsqrtF32 h d a => Sys2Proof.Machine.execFsqrtF32 h d a s
  | .fex2F32 h d a => Sys2Proof.Machine.execFex2F32 h d a s
  | .flg2F32 h d a => Sys2Proof.Machine.execFlg2F32 h d a s
  | .fclassF32 h d a => Sys2Proof.Machine.execFclassF32 h d a s
  | .faddF16x2 h d a b => Sys2Proof.Machine.execFaddF16x2 h d a b s
  | .fsubF16x2 h d a b => Sys2Proof.Machine.execFsubF16x2 h d a b s
  | .fmulF16x2 h d a b => Sys2Proof.Machine.execFmulF16x2 h d a b s
  | .ffmaF16x2 h d a b => Sys2Proof.Machine.execFfmaF16x2 h d a b s
  | .fminF16x2 h d a b => Sys2Proof.Machine.execFminF16x2 h d a b s
  | .fmaxF16x2 h d a b => Sys2Proof.Machine.execFmaxF16x2 h d a b s
  | .fdot2F16x2 h d a b => Sys2Proof.Machine.execFdot2F16x2 h d a b s
  | .faddBf16x2 h d a b => Sys2Proof.Machine.execFaddBf16x2 h d a b s
  | .fsubBf16x2 h d a b => Sys2Proof.Machine.execFsubBf16x2 h d a b s
  | .fmulBf16x2 h d a b => Sys2Proof.Machine.execFmulBf16x2 h d a b s
  | .ffmaBf16x2 h d a b => Sys2Proof.Machine.execFfmaBf16x2 h d a b s
  | .fminBf16x2 h d a b => Sys2Proof.Machine.execFminBf16x2 h d a b s
  | .fmaxBf16x2 h d a b => Sys2Proof.Machine.execFmaxBf16x2 h d a b s
  | .fdot2Bf16x2 h d a b => Sys2Proof.Machine.execFdot2Bf16x2 h d a b s
  | .faddF64 h d a b => Sys2Proof.Machine.execFaddF64 h d a b s
  | .fsubF64 h d a b => Sys2Proof.Machine.execFsubF64 h d a b s
  | .fmulF64 h d a b => Sys2Proof.Machine.execFmulF64 h d a b s
  | .ffmaF64 h d a b => Sys2Proof.Machine.execFfmaF64 h d a b s
  | .fminF64 h d a b => Sys2Proof.Machine.execFminF64 h d a b s
  | .fmaxF64 h d a b => Sys2Proof.Machine.execFmaxF64 h d a b s
  | .fcmpLtF64 h acc pd a b => Sys2Proof.Machine.execFcmpLtF64 h acc pd a b s
  | .fcmpEqF64 h acc pd a b => Sys2Proof.Machine.execFcmpEqF64 h acc pd a b s
  | .fcvt h d a code => Sys2Proof.Machine.execFcvt h d a code s
  | .fcvtd h d a code => Sys2Proof.Machine.execFcvtd h d a code s
  | .cpy h d a b => Sys2Proof.Machine.execCpy h d a b s
  | .gath h d a b => Sys2Proof.Machine.execGath h d a b s
  | .scat h d a b => Sys2Proof.Machine.execScat h d a b s
  | .cpym h d a b => Sys2Proof.Machine.execCpym h d a b s
  | .xfer h d => Sys2Proof.Machine.execXfer h d s
  | .xmc h d => Sys2Proof.Machine.execXmc h d s
  | .fcmpEqF32 h acc pd a b => Sys2Proof.Machine.execFcmpEqF32 h acc pd a b s
  | .fcmpNeF32 h acc pd a b => Sys2Proof.Machine.execFcmpNeF32 h acc pd a b s
  | .fcmpLtF32 h acc pd a b => Sys2Proof.Machine.execFcmpLtF32 h acc pd a b s
  | .fcmpLeF32 h acc pd a b => Sys2Proof.Machine.execFcmpLeF32 h acc pd a b s
  | .fcmpGtF32 h acc pd a b => Sys2Proof.Machine.execFcmpGtF32 h acc pd a b s
  | .fcmpGeF32 h acc pd a b => Sys2Proof.Machine.execFcmpGeF32 h acc pd a b s
  | .icmpEqI32 h acc pd a b => Sys2Proof.Machine.execIcmpEqI32 h acc pd a b s
  | .icmpNeI32 h acc pd a b => Sys2Proof.Machine.execIcmpNeI32 h acc pd a b s
  | .icmpLtI32 h acc pd a b => Sys2Proof.Machine.execIcmpLtI32 h acc pd a b s
  | .icmpLeI32 h acc pd a b => Sys2Proof.Machine.execIcmpLeI32 h acc pd a b s
  | .icmpGtI32 h acc pd a b => Sys2Proof.Machine.execIcmpGtI32 h acc pd a b s
  | .icmpGeI32 h acc pd a b => Sys2Proof.Machine.execIcmpGeI32 h acc pd a b s
  | .icmpLtN32 h acc pd a b => Sys2Proof.Machine.execIcmpLtN32 h acc pd a b s
  | .icmpLeN32 h acc pd a b => Sys2Proof.Machine.execIcmpLeN32 h acc pd a b s
  | .icmpGtN32 h acc pd a b => Sys2Proof.Machine.execIcmpGtN32 h acc pd a b s
  | .icmpGeN32 h acc pd a b => Sys2Proof.Machine.execIcmpGeN32 h acc pd a b s
  | .iadd h d a b => Sys2Proof.Machine.execIadd h d a b s
  | .isub h d a b => Sys2Proof.Machine.execIsub h d a b s
  | .imul h d a b => Sys2Proof.Machine.execImul h d a b s
  | .imulhI32 h d a b => Sys2Proof.Machine.execImulhI32 h d a b s
  | .imulhN32 h d a b => Sys2Proof.Machine.execImulhN32 h d a b s
  | .imad h d a b => Sys2Proof.Machine.execImad h d a b s
  | .iminI32 h d a b => Sys2Proof.Machine.execIminI32 h d a b s
  | .iminN32 h d a b => Sys2Proof.Machine.execIminN32 h d a b s
  | .imaxI32 h d a b => Sys2Proof.Machine.execImaxI32 h d a b s
  | .imaxN32 h d a b => Sys2Proof.Machine.execImaxN32 h d a b s
  | .iabs h d a => Sys2Proof.Machine.execIabs h d a s
  | .and h d a b => Sys2Proof.Machine.execAnd h d a b s
  | .or h d a b => Sys2Proof.Machine.execOr h d a b s
  | .xor h d a b => Sys2Proof.Machine.execXor h d a b s
  | .andn h d a b => Sys2Proof.Machine.execAndn h d a b s
  | .shl h d a b => Sys2Proof.Machine.execShl h d a b s
  | .shr h d a b => Sys2Proof.Machine.execShr h d a b s
  | .sar h d a b => Sys2Proof.Machine.execSar h d a b s
  | .rotl h d a b => Sys2Proof.Machine.execRotl h d a b s
  | .bfe h d a b => Sys2Proof.Machine.execBfe h d a b s
  | .bfi h d a b => Sys2Proof.Machine.execBfi h d a b s
  | .clz h d a => Sys2Proof.Machine.execClz h d a s
  | .popc h d a => Sys2Proof.Machine.execPopc h d a s
  | .brev h d a => Sys2Proof.Machine.execBrev h d a s
  | .sel h d a b => Sys2Proof.Machine.execSel h d a b s
  | .mov h d a => Sys2Proof.Machine.execMov h d a s
  | .bmix h d a b => Sys2Proof.Machine.execBmix h d a b s
  | .leaS2 h d a b => Sys2Proof.Machine.execLeaS2 h d a b s
  | .leaS3 h d a b => Sys2Proof.Machine.execLeaS3 h d a b s
  | .iadd64 h d a b => Sys2Proof.Machine.execIadd64 h d a b s
  | .sataddI32 h d a b => Sys2Proof.Machine.execSataddI32 h d a b s
  | .satsubI32 h d a b => Sys2Proof.Machine.execSatsubI32 h d a b s
  | .iaddI16x2 h d a b => Sys2Proof.Machine.execIaddI16x2 h d a b s
  | .isubI16x2 h d a b => Sys2Proof.Machine.execIsubI16x2 h d a b s
  | .iminI16x2 h d a b => Sys2Proof.Machine.execIminI16x2 h d a b s
  | .imaxI16x2 h d a b => Sys2Proof.Machine.execImaxI16x2 h d a b s
  | .pdot2I16x2 h d a b => Sys2Proof.Machine.execPdot2I16x2 h d a b s
  | .pdot2sI16x2 h d a b => Sys2Proof.Machine.execPdot2sI16x2 h d a b s
  | .pdot4I8x4 h d a b => Sys2Proof.Machine.execPdot4I8x4 h d a b s
  | .pdot4sI8x4 h d a b => Sys2Proof.Machine.execPdot4sI8x4 h d a b s
  | .shrrI32 h d a b => Sys2Proof.Machine.execShrrI32 h d a b s
  | .shrrsI16 h d a b => Sys2Proof.Machine.execShrrsI16 h d a b s
  | .packB16 h d a b => Sys2Proof.Machine.execPackB16 h d a b s
  | .unpklI16 h d a => Sys2Proof.Machine.execUnpklI16 h d a s
  | .unpkhI16 h d a => Sys2Proof.Machine.execUnpkhI16 h d a s
  | .sataddI16x2 h d a b => Sys2Proof.Machine.execSataddI16x2 h d a b s
  | .xlaneGet h d a b => Sys2Proof.Machine.execXlaneGet h d a b s
  | .xlaneShift h d a b => Sys2Proof.Machine.execXlaneShift h d a b s
  | .xlaneRot h d a b => Sys2Proof.Machine.execXlaneRot h d a b s
  | .xlaneBfly h d a b => Sys2Proof.Machine.execXlaneBfly h d a b s
  | .push h d a b => Sys2Proof.Machine.execPush h d a b s
  | .slideUp h d a b => Sys2Proof.Machine.execSlideUp h d a b s
  | .slideDown h d a b => Sys2Proof.Machine.execSlideDown h d a b s
  | .wredIadd h d a => Sys2Proof.Machine.execWredIadd h d a s
  | .wredImin h d a => Sys2Proof.Machine.execWredImin h d a s
  | .wredImax h d a => Sys2Proof.Machine.execWredImax h d a s
  | .wredFadd h d a => Sys2Proof.Machine.execWredFadd h d a s
  | .scanIadd h d a => Sys2Proof.Machine.execScanIadd h d a s
  | .plopAnd h pd pa pb => Sys2Proof.Machine.execPlopAnd h pd pa pb s
  | .plopOr h pd pa pb => Sys2Proof.Machine.execPlopOr h pd pa pb s
  | .plopXor h pd pa pb => Sys2Proof.Machine.execPlopXor h pd pa pb s
  | .plopAndn h pd pa pb => Sys2Proof.Machine.execPlopAndn h pd pa pb s
  | .get h v a => Sys2Proof.Machine.execGet h v a s
  | .put h v a => Sys2Proof.Machine.execPut h v a s
  | .get2 h v a => Sys2Proof.Machine.execGet2 h v a s
  | .put2 h v a => Sys2Proof.Machine.execPut2 h v a s
  | .vfmaF32 h v a b => Sys2Proof.Machine.execVfmaF32 h v a b s
  | .vaddF32 h v a => Sys2Proof.Machine.execVaddF32 h v a s
  | .vaddI32 h v a => Sys2Proof.Machine.execVaddI32 h v a s
  | .vswap h v a => Sys2Proof.Machine.execVswap h v a s
  | .ldB32 h d base off => Sys2Proof.Machine.execLdB32 h d base off s
  | .ldB64 h d base off => Sys2Proof.Machine.execLdB64 h d base off s
  | .ldB128 h d base off => Sys2Proof.Machine.execLdB128 h d base off s
  | .ldB16 h d base off => Sys2Proof.Machine.execLdB16 h d base off s
  | .ldB8 h d base off => Sys2Proof.Machine.execLdB8 h d base off s
  | .stB32 h d base off => Sys2Proof.Machine.execStB32 h d base off s
  | .stB64 h d base off => Sys2Proof.Machine.execStB64 h d base off s
  | .stB128 h d base off => Sys2Proof.Machine.execStB128 h d base off s
  | .stB16 h d base off => Sys2Proof.Machine.execStB16 h d base off s
  | .stB8 h d base off => Sys2Proof.Machine.execStB8 h d base off s
  | .ldsB32 h d base off => Sys2Proof.Machine.execLdsB32 h d base off s
  | .ldsB64 h d base off => Sys2Proof.Machine.execLdsB64 h d base off s
  | .stsB32 h d base off => Sys2Proof.Machine.execStsB32 h d base off s
  | .stsB64 h d base off => Sys2Proof.Machine.execStsB64 h d base off s
  | .ldnB32 h d base off => Sys2Proof.Machine.execLdnB32 h d base off s
  | .contribF32 h d base flag lab => Sys2Proof.Machine.execContribF32 h d base flag lab s
  | .movi h d imm => Sys2Proof.Machine.execMovi h d imm s
  | .addi h d imm => Sys2Proof.Machine.execAddi h d imm s
  | .andi h d imm => Sys2Proof.Machine.execAndi h d imm s
  | .ori h d imm => Sys2Proof.Machine.execOri h d imm s
  | .shli h d n => Sys2Proof.Machine.execShli h d n s
  | .shri h d n => Sys2Proof.Machine.execShri h d n s
  | .lit h d value => Sys2Proof.Machine.execLit h d value s
  | .lit2 h d value => Sys2Proof.Machine.execLit2 h d value s
  | .bra h off => Sys2Proof.Machine.execBra h off s
  | .call h off => Sys2Proof.Machine.execCall h off s
  | .loop h sc len => Sys2Proof.Machine.execLoop h sc len s
  | .bhead h peer off => Sys2Proof.Machine.execBhead h peer off s
  | .nop h => Sys2Proof.Machine.execNop h s
  | .exit h => Sys2Proof.Machine.execExit h s
  | .ret h => Sys2Proof.Machine.execRet h s
  | .brx h a => Sys2Proof.Machine.execBrx h a s
  | .breakLevel h => Sys2Proof.Machine.execBreakLevel h s
  | .yield h => Sys2Proof.Machine.execYield h s
  | .bar h level s0 mode => Sys2Proof.Machine.execBar h level s0 mode s
  | .trigger h => Sys2Proof.Machine.execTrigger h s
  | .launch h a => Sys2Proof.Machine.execLaunch h a s
  | .trap h code => Sys2Proof.Machine.execTrap h code s
  | .svc h code => Sys2Proof.Machine.execSvc h code s
  | .rft h => Sys2Proof.Machine.execRft h s
  | .commit h => Sys2Proof.Machine.execCommit h s
  | .settile h size => Sys2Proof.Machine.execSettile h size s
  | .elect h pd => Sys2Proof.Machine.execElect h pd s
  | .getsr h d num => Sys2Proof.Machine.execGetsr h d num s
  | .setsr h a num => Sys2Proof.Machine.execSetsr h a num s
  | .sget h sd a => Sys2Proof.Machine.execSget h sd a s
  | .smov h sd ss => Sys2Proof.Machine.execSmov h sd ss s
  | .sadd h sd ss => Sys2Proof.Machine.execSadd h sd ss s
  | .pjoin h pd pa mode => Sys2Proof.Machine.execPjoin h pd pa mode s
  | .pmask h d pa => Sys2Proof.Machine.execPmask h d pa s
  | .peers h d a mode => Sys2Proof.Machine.execPeers h d a mode s
  | .movsa h d peer => Sys2Proof.Machine.execMovsa h d peer s
  | .rdecl h a => Sys2Proof.Machine.execRdecl h a s
  | .kset h k a => Sys2Proof.Machine.execKset h k a s
  | .kwait h k d => Sys2Proof.Machine.execKwait h k d s
  | .krel h k => Sys2Proof.Machine.execKrel h k s
  | .kprod h k => Sys2Proof.Machine.execKprod h k s
  | .kroom h k d => Sys2Proof.Machine.execKroom h k d s
  | .qfence h mask => Sys2Proof.Machine.execQfence h mask s
  | .drain h mask => Sys2Proof.Machine.execDrain h mask s
  | .mbegin h acc => Sys2Proof.Machine.execMbegin h acc s
  | .mend h acc => Sys2Proof.Machine.execMend h acc s
  | .mma h acc t qa qb => Sys2Proof.Machine.execMma h acc t qa qb s
  | .mmas h acc t qa qb => Sys2Proof.Machine.execMmas h acc t qa qb s
  | .mzero h acc => Sys2Proof.Machine.execMzero h acc s
  | .mst h acc sty dith a => Sys2Proof.Machine.execMst h acc sty dith a s
  | .mld h acc a => Sys2Proof.Machine.execMld h acc a s
  | .mcontrib h acc qpair lab => Sys2Proof.Machine.execMcontrib h acc qpair lab s
  | .itset h it a => Sys2Proof.Machine.execItset h it a s
  | .sweep h op itd ita itb => Sys2Proof.Machine.execSweep h op itd ita itb s
  | .waitcnt h d a => Sys2Proof.Machine.execWaitcnt h d a s
  | .pref h a count hint => Sys2Proof.Machine.execPref h a count hint s
  | .salloc h d a => Sys2Proof.Machine.execSalloc h d a s
  | .sfree h a => Sys2Proof.Machine.execSfree h a s
  | .atomIadd h d a m => Sys2Proof.Machine.execAtomIadd h d a m s
  | .atomImin h d a m => Sys2Proof.Machine.execAtomImin h d a m s
  | .atomImax h d a m => Sys2Proof.Machine.execAtomImax h d a m s
  | .atomLogic h d a m => Sys2Proof.Machine.execAtomLogic h d a m s
  | .atomXchg h d a m => Sys2Proof.Machine.execAtomXchg h d a m s
  | .atomFmin h d a m => Sys2Proof.Machine.execAtomFmin h d a m s
  | .atomFmax h d a m => Sys2Proof.Machine.execAtomFmax h d a m s
  | .cas h d a m => Sys2Proof.Machine.execCas h d a m s
  | .gemvn h d a => Sys2Proof.Machine.execGemvn h d a s
  | .coll h d a => Sys2Proof.Machine.execColl h d a s
  | .snap h code => Sys2Proof.Machine.execSnap h code s
  | .loadDataReturn core slot load completion => Sys2Proof.Machine.execLoadDataReturn core slot load completion s
  | .waitcntRelease core slot load => Sys2Proof.Machine.execWaitcntRelease core slot load s
  | .kroomGrant core slot => Sys2Proof.Machine.execKroomGrant core slot s
  | .kwaitGrant core slot => Sys2Proof.Machine.execKwaitGrant core slot s
  | .barrierComplete bar remote => Sys2Proof.Machine.execBarrierComplete bar remote s
  | .windowCommit core slot => Sys2Proof.Machine.execWindowCommit core slot s
  | .bundleRegroup core slot => Sys2Proof.Machine.execBundleRegroup core slot s
  | .counterPromotion core slot => Sys2Proof.Machine.execCounterPromotion core slot s
  | .warpUrgent core slot => Sys2Proof.Machine.execWarpUrgent core slot s
  | .copyEntryStart entry => Sys2Proof.Machine.execCopyEntryStart entry s
  | .cpymDelivery entry core => Sys2Proof.Machine.execCpymDelivery entry core s
  | .engineElementFault entry => Sys2Proof.Machine.execEngineElementFault entry s
  | .engineCompletion entry => Sys2Proof.Machine.execEngineCompletion entry s
  | .matrixPassStart core partition => Sys2Proof.Machine.execMatrixPassStart core partition s
  | .kStepFinish entry quarter => Sys2Proof.Machine.execKStepFinish entry quarter s
  | .gemvnStart stack => Sys2Proof.Machine.execGemvnStart stack s
  | .collInstanceStart entry => Sys2Proof.Machine.execCollInstanceStart entry s
  | .workEntryFire inst index => Sys2Proof.Machine.execWorkEntryFire inst index s
  | .collComplete inst => Sys2Proof.Machine.execCollComplete inst s
  | .lullArrival lull => Sys2Proof.Machine.execLullArrival lull s
  | .lineDone => Sys2Proof.Machine.execLineDone s
  | .launchStart queue => Sys2Proof.Machine.execLaunchStart queue s
  | .blockPlacement launch cores => Sys2Proof.Machine.execBlockPlacement launch cores s
  | .launchComplete launch => Sys2Proof.Machine.execLaunchComplete launch s
  | .registerWrite offset size value => Sys2Proof.Machine.execRegisterWrite offset size value s
  | .engineFaultEntry core slot fid => Sys2Proof.Machine.execEngineFaultEntry core slot fid s
  | .softErrorTrap core slot => Sys2Proof.Machine.execSoftErrorTrap core slot s
  | .rollback core slot trigger => Sys2Proof.Machine.execRollback core slot trigger s
  | .softErrorEvent e => Sys2Proof.Machine.execSoftErrorEvent e s
  | .lullForwardTimeout lull key => Sys2Proof.Machine.execLullForwardTimeout lull key s
  | .flitTransmit port => Sys2Proof.Machine.execFlitTransmit port s
  | .controlFlitSend port => Sys2Proof.Machine.execControlFlitSend port s
  | .controlFlit port f => Sys2Proof.Machine.execControlFlit port f s
  | .requestFlit port f => Sys2Proof.Machine.execRequestFlit port f s
  | .responseFlit port f => Sys2Proof.Machine.execResponseFlit port f s
  | .bulkWriteFlit port f => Sys2Proof.Machine.execBulkWriteFlit port f s
  | .multicastFlit port route data => Sys2Proof.Machine.execMulticastFlit port route data s
  | .lullEntryFlit port f => Sys2Proof.Machine.execLullEntryFlit port f s
  | .planWriteFlit port f => Sys2Proof.Machine.execPlanWriteFlit port f s
  | .keySwitchMarker port f => Sys2Proof.Machine.execKeySwitchMarker port f s
  | .reservedKindFlit port f => Sys2Proof.Machine.execReservedKindFlit port f s
  | .replayTimeout port => Sys2Proof.Machine.execReplayTimeout port s
  | .keySwitch port => Sys2Proof.Machine.execKeySwitch port s
  | .deviceLost dev => Sys2Proof.Machine.execDeviceLost dev s
  | .allowanceRegrant dev => Sys2Proof.Machine.execAllowanceRegrant dev s
  | .grantReturn dev core => Sys2Proof.Machine.execGrantReturn dev core s
  | .becalmedWake dev => Sys2Proof.Machine.execBecalmedWake dev s
  | .uePacketReceive p => Sys2Proof.Machine.execUePacketReceive p s
  | .uePeerUnreachable fabricAddress => Sys2Proof.Machine.execUePeerUnreachable fabricAddress s
  | .queueTailWrite queue tail => Sys2Proof.Machine.execQueueTailWrite queue tail s
  | .carveOutWrite core value => Sys2Proof.Machine.execCarveOutWrite core value s
  | .carveOutDone core => Sys2Proof.Machine.execCarveOutDone core s
  | .pmCoreWrite core value => Sys2Proof.Machine.execPmCoreWrite core value s
  | .tlbInvalidate value => Sys2Proof.Machine.execTlbInvalidate value s
  | .tlbInvalidateDone => Sys2Proof.Machine.execTlbInvalidateDone s
  | .spillAreaMove value => Sys2Proof.Machine.execSpillAreaMove value s
  | .preemptRequest value => Sys2Proof.Machine.execPreemptRequest value s
  | .contextSave value => Sys2Proof.Machine.execContextSave value s
  | .contextRestore value => Sys2Proof.Machine.execContextRestore value s
  | .preemptComplete => Sys2Proof.Machine.execPreemptComplete s
  | .engineFaultResume fid => Sys2Proof.Machine.execEngineFaultResume fid s
  | .engineFaultAbandon fid => Sys2Proof.Machine.execEngineFaultAbandon fid s
  | .efCfgWrite value => Sys2Proof.Machine.execEfCfgWrite value s
  | .efHeadWrite value => Sys2Proof.Machine.execEfHeadWrite value s
  | .directoryRequest core line req => Sys2Proof.Machine.execDirectoryRequest core line req s
  | .syncUpdate core slot line => Sys2Proof.Machine.execSyncUpdate core slot line s
  | .syncUpdateAck line sharer => Sys2Proof.Machine.execSyncUpdateAck line sharer s
  | .pageRequest dev page req => Sys2Proof.Machine.execPageRequest dev page req s
  | .pageRecall page => Sys2Proof.Machine.execPageRecall page s
  | .recallAck dev page => Sys2Proof.Machine.execRecallAck dev page s
  | .driverRecall value => Sys2Proof.Machine.execDriverRecall value s
  | .hostMemRequest op pa => Sys2Proof.Machine.execHostMemRequest op pa s
  | .hostSnoop kind sector => Sys2Proof.Machine.execHostSnoop kind sector s
  | .backInvalidateResponse sector data => Sys2Proof.Machine.execBackInvalidateResponse sector data s
  | .hostLinkDown => Sys2Proof.Machine.execHostLinkDown s
  | .hxCtlWrite value => Sys2Proof.Machine.execHxCtlWrite value s
  | .functionReady bit => Sys2Proof.Machine.execFunctionReady bit s
  | .dxpCtlWrite port value => Sys2Proof.Machine.execDxpCtlWrite port value s
  | .keyLoad cmd => Sys2Proof.Machine.execKeyLoad cmd s
  | .keyErase cmd => Sys2Proof.Machine.execKeyErase cmd s
  | .securityAlarm cause => Sys2Proof.Machine.execSecurityAlarm cause s
  | .snapshotHostTrigger value => Sys2Proof.Machine.execSnapshotHostTrigger value s
  | .snapshotTrigger src tag core => Sys2Proof.Machine.execSnapshotTrigger src tag core s
  | .snapshotLatch block => Sys2Proof.Machine.execSnapshotLatch block s
  | .snapshotDistributionEnd => Sys2Proof.Machine.execSnapshotDistributionEnd s
  | .snapshotDone => Sys2Proof.Machine.execSnapshotDone s
  | .planLoad slot value => Sys2Proof.Machine.execPlanLoad slot value s
  | .planUnload slot value => Sys2Proof.Machine.execPlanUnload slot value s
  | .precopyPass value => Sys2Proof.Machine.execPrecopyPass value s
  | .precopyPassEnd acked => Sys2Proof.Machine.execPrecopyPassEnd acked s
  | .precopyRecordReceive r => Sys2Proof.Machine.execPrecopyRecordReceive r s
  | .lifetimeDump value => Sys2Proof.Machine.execLifetimeDump value s
  | .lifetimeCommit => Sys2Proof.Machine.execLifetimeCommit s
  | .orderlyPowerDown => Sys2Proof.Machine.execOrderlyPowerDown s
  | .reset => Sys2Proof.Machine.execReset s
  | .fetchFault kind va => Sys2Proof.Machine.execFetchFault kind va s
  | .illegalEncoding kind => Sys2Proof.Machine.execIllegalEncoding kind s
  | .powerManagerLimit core steps => Sys2Proof.Machine.execPowerManagerLimit core steps s
  | .powerLoss => Sys2Proof.Machine.execPowerLoss s
  | .doeRequest m => Sys2Proof.Machine.execDoeRequest m s
  | .cxlCacheResponse sector grant data => Sys2Proof.Machine.execCxlCacheResponse sector grant data s
  | .unauthenticatedFlit port => Sys2Proof.Machine.execUnauthenticatedFlit port s

end Sys2Proof.Machine
end

