-- ==== Sys2Proof/Machine/Schedule.lean ====
section
/-! DEFINITION. What happens next where the agenda names nothing: the part's own steps that are due, then the issue of a
warp in the order of R11 and R389. Timing is open, so any agenda is a run of the part; this order is one of them. -/
namespace Sys2Proof.Machine

/-! ### Warp selection (R11, R389) -/

/-- Eligible warps of a partition rank at a clock: urgent ones, then the oldest; one that yielded comes last in the clock after its
`YIELD` (R11, R389). -/
def Warp.rank (w : Warp) (now : Nat) : Nat :=
  (if w.yieldClock && now ≤ w.clk then 2 ^ 65 else if w.urgent || 16 ≤ w.waits then 0 else 2 ^ 64) + w.age

/-- Puts a warp in its place among warps in the order of `key`; of equal ones the one put last comes first. -/
def insertWarp (key : Warp → Nat) (e : Nat × Warp) : List (Nat × Warp) → List (Nat × Warp)
  | [] => [e]
  | x :: rest => if key e.2 ≤ key x.2 then e :: x :: rest else x :: insertWarp key e rest

/-- The eligible warps, each with the clock at which it can issue: number, clock, warp. -/
def State.able (s : State) : List (Nat × Nat × Warp) :=
  s.warps.filterMap fun e => (s.issueAt (e.1 / 64) (e.1 % 64) e.2).map fun t => (e.1, t, e.2)

/-- The partition of `a` chooses it before `b` (R11, R389): it can issue in an earlier clock, or in the same one and ranks
ahead. Warps of other partitions do not matter. -/
def comesBefore (a b : Nat × Nat × Warp) : Bool :=
  a.1 / 4 = b.1 / 4 && (a.2.1 < b.2.1 || a.2.1 = b.2.1 && a.2.2.rank a.2.1 < b.2.2.rank a.2.1)

/-- The eligible warps in the order in which they may issue: the warps that their partitions choose (R11, R389), the one whose
clock is furthest behind first, then the others. -/
def State.ranked (s : State) : List (Nat × Warp) :=
  let able := s.able
  let chosen := able.filter fun a => !able.any fun b => comesBefore b a
  let rest := able.filter fun a => able.any fun b => comesBefore b a
  let warps := fun (xs : List (Nat × Nat × Warp)) => xs.map fun a => (a.1, a.2.2)
  (warps chosen).foldr (insertWarp fun w => w.clk) [] ++ (warps rest).foldr (insertWarp fun w => w.rank w.clk) []

/-- The partition may choose the warp `delay` clocks after it could have issued (R11): no eligible warp of the partition that can
issue by then ranks ahead of it. -/
def State.mayIssue (s : State) (core slot delay : Nat) : Bool :=
  match s.able.find? fun a => a.1 = warpKey core slot with
  | none => false
  | some a =>
    let now := a.2.1 + delay
    !s.able.any fun b => comesBefore b (a.1, now, a.2.2) && b.2.2.rank now < a.2.2.rank now

/-- The clock of a choice passes in the partition: its other eligible warps count it (R389), and a yield clock ends. -/
def State.countWaits (s : State) (core slot : Nat) (delay : Nat := 0) : State :=
  let now := ((s.warp core slot).bind (s.issueAt core slot)).getD 0 + delay
  let pass := fun (k : Nat) (w : Warp) =>
    if now < w.clk then w
    else
      let counts := !w.yieldClock && (s.issueAt core k w).any (· ≤ now)
      { w with clk := now + 1, yieldClock := false, waits := if counts then w.waits + 1 else w.waits }
  { s with warps := s.warps.map fun (e : Nat × Warp) =>
      if e.1 / 64 = core && e.1 % 64 / 4 = slot / 4 && e.1 % 64 ≠ slot then (e.1, pass (e.1 % 64) e.2)
      else if e.1 = warpKey core slot then (e.1, { e.2 with yieldClock := false }) else e }

/-! ### Steps that may be due -/

/-- A step of the part with its arguments. -/
abbrev Act := State → Res

/-- Steps of a warp that are no words: bookkeeping, entries to the handler, results, windows. -/
def State.warpDue (s : State) (key : Nat) (w : Warp) : List Act :=
  let c := key / 64
  let k := key % 64
  (if w.regrouped then [] else [execBundleRegroup c k]) ++
  (if LaneSet.any w.promotable then [execCounterPromotion c k] else []) ++
  (if 16 ≤ w.waits && !w.urgent then [execWarpUrgent c k] else []) ++
  (match s.faultOwed c k with | some fid => [execEngineFaultEntry c k fid] | none => []) ++
  (if w.soft.isSome then [execSoftErrorTrap c k] else []) ++
  (if w.loads.isEmpty then [] else [fun (s : State) => Host.Outcome.next (s.closeHeld c k)]) ++
  (w.loads.flatMap fun ld => match ld.kind with
    | .remote _ 0 (_ :: _) => [fun (s : State) => Host.Outcome.next (s.atomGo c k ld.id)]
    | .data => [execLoadDataReturn c k ld.id .none]
    | .waitcnt .. => [execWaitcntRelease c k ld.id]
    | .slot _ room => [if room then execKroomGrant c k else execKwaitGrant c k]
    | _ => []) ++
  (match w.windows with
    | [] => []
    | x :: _ => x.syncLines.map (fun n => execSyncUpdate c k n) ++ [execWindowCommit c k])

/-- Steps of an engine entry. -/
def entryDue (n : Nat) (e : Entry) : List Act :=
  (match e.kind with
    | .cpy | .gath | .scat => [execCopyEntryStart n]
    | .cpym => execCopyEntryStart n :: e.todo.map fun c => execCpymDelivery n c
    | .coll => [execCollInstanceStart n]
    | .gemvn => (List.range 12).map fun k => execGemvnStart k
    | _ => if e.queue = 1 then execMatrixPassStart e.core (e.slot / 4) :: (List.range 4).map fun j => execKStepFinish n j else []) ++
  [execEngineElementFault n, execEngineCompletion n]

/-- The name of a lull. -/
def lullOf (k : Nat) : LullId :=
  if k < 256 then .core k else if k < 512 then .slice (k - 256) else if k < 768 then .ectal (k - 512) else .port (k - 768)

/-- Placements of a launch that could come next (R382): a saved block, a gang, or one block. -/
def State.placements (s : State) (lid : Nat) (l : Launch) : List Act :=
  match s.waitingBlock l with
  | some _ => ((List.range 192).find? fun c => (s.restoreOn lid l c).isSome).toList.map fun c => execBlockPlacement lid [c]
  | none =>
    if s.placing l then (s.roomFor lid l).toList.map fun cs => execBlockPlacement lid cs else []

/-- Steps of launches and queues. -/
def State.launchDue (s : State) : List Act :=
  (s.queues.map fun q => execLaunchStart q.1) ++
    s.launches.flatMap fun l => s.placements l.1 l.2 ++ [execLaunchComplete l.1]

/-- Steps of lulls, reports and plan instances. -/
def State.sumDue (s : State) : List Act :=
  (s.lulls.filterMap fun l => if l.2.inbox.isEmpty then none else some (execLullArrival (lullOf l.1))) ++
  (if s.reports.isEmpty then [] else [execLineDone]) ++
  s.insts.flatMap fun i => (List.range i.2.plan.work.length).map (fun k => execWorkEntryFire i.1 k) ++ [execCollComplete i.1]

/-- A regrant that raises a grant (R349). -/
def raisingRegrant (dev : Nat) (s : State) : Res :=
  match execAllowanceRegrant dev s with
  | .next t => if (List.range 193).any fun c => SMap.getD (s.core c).sa dev 0 < SMap.getD (t.core c).sa dev 0 then .next t else notDue s
  | r => r

/-- Steps of the fabric. -/
def State.fabricDue (s : State) : List Act :=
  s.ports.flatMap (fun p => [execKeySwitch p.1, execFlitTransmit p.1, execControlFlitSend p.1]) ++
  s.pools.map (fun p => execBecalmedWake p.1) ++ s.others.map fun d => raisingRegrant d

/-- Steps that end commands of the driver, and those of a snapshot. -/
def State.commandDue (s : State) : List Act :=
  (if s.inval.isSome then [execTlbInvalidateDone] else []) ++ (if s.preempt.isSome then [execPreemptComplete] else []) ++
  (s.cores.filterMap fun c => if c.2.newWays.isSome then some (execCarveOutDone c.1) else none) ++
  (if s.pass.isSome then [passStep] else []) ++
  (if (s.reg 0x2900 0).getLsbD 31 then [execLifetimeDump 0x10000000] else []) ++
  match s.snap with
  | none => []
  | some p => (snapBlocks.filter fun b => !p.latched.contains b).map (fun b => execSnapshotLatch b) ++
      [execSnapshotDone, execSnapshotDistributionEnd]

/-- Every step that may be due before the next issue, in the order in which they are tried. -/
def State.due (s : State) : List Act :=
  (s.warps.flatMap fun e => s.warpDue e.1 e.2) ++
  (s.updates.flatMap fun u => (u.2.owed.filter (· < 256)).map fun c => (execSyncUpdateAck u.1 c)) ++
  (s.bars.map fun b => (execBarrierComplete b.1 0)) ++
  (s.entries.flatMap fun e =>
    (if e.2.kind == .xfer || e.2.kind == .xmc then [fabricStep e.1] else []) ++ entryDue e.1 e.2) ++
  (if s.dir.any fun e => 16 ≤ e.2.way then [fun (s : State) => Host.Outcome.next (s.evictWay.getD s)] else []) ++
  s.sumDue ++ s.launchDue ++ s.fabricDue ++ s.commandDue

/-- Steps of time alone: an entry that waits in a lull goes on (R289); a grant of a core that sends nothing goes back, as regrants
pass (R349). -/
def State.idle (s : State) : List Act :=
  (s.lulls.flatMap fun l => (List.range l.2.kept.length).map fun k => (execLullForwardTimeout (lullOf l.1) k)) ++
  s.cores.flatMap (fun c => c.2.interest.map fun d => execGrantReturn d.1 c.1) ++ s.others.map fun d => execAllowanceRegrant d

/-! ### One step -/

/-- A move of the agenda or of the part's own order. -/
def runMove (run : Instr → State → Res) (m : Move) (s : State) : Res :=
  match m with
  | .event i => run i s
  | .issue core slot delay =>
    if s.mayIssue core slot delay then issueCycle run core slot delay (s.countWaits core slot delay) else notDue s
  | .lane key stores sync => .next (s.storeNow key stores sync)
  | .host io => .next { s with hostIo := s.hostIo ++ [io] }
  | .ueAck i k => .next (s.ueAcked i k)
  | .fabric n => fabricStep n s
  | .early n => earlyRead n s
  | .evict => .next (s.evictWay.getD s)
  | .hostEvict sector => .next (s.evictSector sector)
  | .pass => passStep s
  | .passAck k => .next (s.ackRecord k)
  | .second core band => .next (s.second core band)
  | .retry => .next s.retryAll

/-- The first of a list of steps that changes the state, if any does. -/
def firstMove (s : State) : List Act → Option State
  | [] => none
  | act :: rest => match act s with
    | .next t => if t = s then firstMove s rest else some t
    | _ => firstMove s rest

/-- The issue of the first warp of a list that does more than wait: a word held by the load scoreboard, or one that waits
for a counter, leaves its turn to the next warp (R11). -/
def firstIssue (run : Instr → State → Res) (s : State) : List (Nat × Warp) → Option State
  | [] => none
  | e :: rest =>
    let s' := s.countWaits (e.1 / 64) (e.1 % 64)
    match issueCycle run (e.1 / 64) (e.1 % 64) 0 s' with
    | .next t => if t = s' then firstIssue run s rest else some t
    | _ => firstIssue run s rest

/-- From time to time an entry that waits goes on although warps issue: when the warp that would issue has had 256 issue cycles
more (R289). -/
def State.idleTurn (s : State) : Bool := (s.ranked.head?).elim true fun e => e.2.issues % 256 = 255

/-- One step: the head of the agenda; else the first step that is due; else the issue of the warp that ranks first; else a
step of time; else nothing changes. -/
def stepWith (run : Instr → State → Res) (s : State) : Res :=
  match s.agenda with
  | m :: rest => runMove run m { s with agenda := rest }
  | [] => match firstMove s s.due with
    | some t => .next t
    | none => match firstIssue run s s.ranked with
      | some t => .next (if s.idleTurn then (firstMove s s.idle).getD t else t)
      | none => .next ((firstMove s s.idle).getD s)

end Sys2Proof.Machine
end

