-- ==== Sys2Proof/Machine/Step.lean ====
section
/-! DEFINITION. One step of the device, and the state from which a given word issues next. -/
namespace Sys2Proof.Machine

/-- One step (R11, R13): the head of the agenda, else what the part does next by itself. -/
def step (s : State) : Host.Outcome State Fault Refusal := stepWith exec s

/-- The state with an instruction's words as the packet that the next step issues; bits above `nbits` are zero. -/
def State.withFetchWord (s : State) (nbits w : Nat) : State := s.withCode (leBytes 12 (w % 2 ^ nbits))

end Sys2Proof.Machine
end

