-- ==== Sys2Proof/Safety.lean ====
section
/-! DEFINITION. What a safe run is and when a word may execute, in the terms that claims use. -/
namespace Sys2Proof.Safety
open Sys2Proof.Machine

/-- The device goes on from `s`. -/
def Goes (s : Machine.State) : Prop := ∃ t, Machine.step s = .next t

/-- `t` is reached from `s` in some number of steps. -/
inductive Reaches : Machine.State → Machine.State → Prop where
  | here (s : Machine.State) : Reaches s s
  | more (s t u : Machine.State) : Machine.step s = .next t → Reaches t u → Reaches s u

/-- Device memory and scratchpads are in their canonical form: addresses strictly rising, no zero byte listed. -/
def MemoryOk (s : Machine.State) : Prop := Memory.wf s.mem = true ∧ Memory.wf s.scratch = true

/-- Word `i` is under way in `s` and passes every check that comes before its own effect (R124): the issue is `cur` and its
warp `w`; no operand is illegal (R112 to R119, R179), the checking scoreboard marks no source that is read early (R362), and
the load scoreboard holds no register that the word names (R182). -/
structure Ready (i : Instr) (s : State) (cur : Cur) (w : Warp) : Prop where
  issue : s.cur = some cur
  warp : s.warp cur.core cur.slot = some w
  legal : i.wellFormed = true
  file : beyondFile i w.regCount = false
  early : cur.before.stallShort i (readLanes i cur.lanes) = none
  loads : cur.before.heldByLoad i = false

/-- Word `i` is ready, and a window takes it (R316, R317): `w1` is the warp with the word counted in its open window, as one of
`acc` memory accesses that writes the main-file registers `vs`. -/
structure Opens (i : Instr) (acc : Nat) (vs : List Nat) (s : State) (cur : Cur) (w w1 : Warp) : Prop
    extends Ready i s cur w where
  window : w.inWindow cur.second acc vs = some w1

/-- An irrevocable word `i` with header `h` is ready, some lane executes it, no window of the warp is uncommitted, and no atomic that
the warp sent to a peer is still to be performed: the commit point of R93, R95 and R329 is reached. -/
structure Commits (i : Instr) (h : Hdr) (s : State) (cur : Cur) (w : Warp) : Prop extends Ready i s cur w where
  some_lane : LaneSet.any (cur.before.active h cur.lanes) = true
  committed : w.windows = []
  performed : w.atomsOut = false

/-- The state after a word: its warp has become `w` and its issuing threads pass to the next word (R106). -/
def passOn (s : State) (cur : Cur) (w : Warp) : State := s.setWarp cur.core cur.slot (w.advance cur.pc cur.lanes 0)

end Sys2Proof.Safety
end

