-- ==== Sys2Proof/Certificates/Slice0/Obligations.lean ====
section
/-! DEFINITION. The statements for the provers. Tables list the words of one shape with the result that the manual gives each;
a statement says it for every row, every state and every operand. -/
namespace Sys2Proof.Claims
open Sys2Proof.Machine Sys2Proof.Safety

/-! ### Tables of integer words -/

/-- A word of three near operands. -/
abbrev Word3 := Hdr → Near → Near → Near → Instr

/-- A word of two near operands. -/
abbrev Word2 := Hdr → Near → Near → Instr

/-- Two-source integer words and what they compute of a and b (R149). -/
def int2 : List (Word3 × (Word → Word → Word)) :=
  [(.iadd, fun a b => BitVec.ofInt 32 (a.toInt + b.toInt)),
   (.isub, fun a b => BitVec.ofInt 32 (a.toInt - b.toInt)),
   (.imul, fun a b => BitVec.ofInt 32 (a.toInt * b.toInt)),
   (.imulhI32, fun a b => BitVec.ofInt 32 (a.toInt * b.toInt / 2 ^ 32)),
   (.imulhN32, fun a b => BitVec.ofNat 32 (a.toNat * b.toNat / 2 ^ 32)),
   (.iminI32, fun a b => if a.toInt < b.toInt then a else b),
   (.iminN32, fun a b => if a.toNat < b.toNat then a else b),
   (.imaxI32, fun a b => if a.toInt < b.toInt then b else a),
   (.imaxN32, fun a b => if a.toNat < b.toNat then b else a),
   (.and, fun a b => a &&& b), (.or, fun a b => a ||| b), (.xor, fun a b => a ^^^ b), (.andn, fun a b => a &&& ~~~b),
   (.shl, fun a b => if b.toNat < 32 then a <<< b.toNat else 0),
   (.shr, fun a b => if b.toNat < 32 then a >>> b.toNat else 0),
   (.sar, fun a b => if b.toNat < 32 then a.sshiftRight b.toNat else if a.msb then 0xFFFFFFFF else 0),
   (.rotl, fun a b => a.rotateLeft (b.toNat % 32)),
   (.leaS2, fun a b => a + b * 4), (.leaS3, fun a b => a + b * 8)]

/-- One-source integer words: `IABS` (R149), `CLZ` and `POPC` (R150), `MOV` (R147). -/
def int1 : List (Word2 × (Word → Word)) :=
  [(.iabs, fun a => BitVec.ofNat 32 a.toInt.natAbs), (.mov, fun a => a),
   (.clz, fun a => BitVec.ofNat 32 ((List.range 32).takeWhile fun j => !a.getLsbD (31 - j)).length),
   (.popc, fun a => BitVec.ofNat 32 ((List.range 32).filter fun j => a.getLsbD j).length)]

/-- Position and width of the field that a descriptor names (R151). -/
def fieldPos (b : Word) : Nat := (b.extractLsb' 0 5).toNat
/-- See `fieldPos`. -/
def fieldLen (b : Word) : Nat := min (min (b.extractLsb' 8 6).toNat 32) (32 - fieldPos b)

/-- Bit `j` of the result of the words that pick bits, from d, a and b (R150 to R152, `PACK.b16` of R171). A `BMIX` byte is
a source byte, a fill with a source byte's sign, or a constant. -/
def bitWords : List (Word3 × (Word → Word → Word → Nat → Bool)) :=
  [(.bfe, fun _ a b j =>
      if j < fieldLen b then a.getLsbD (fieldPos b + j)
      else fieldLen b != 0 && b.getLsbD 15 && a.getLsbD (fieldPos b + fieldLen b - 1)),
   (.bfi, fun d a b j =>
      if fieldPos b ≤ j && j < fieldPos b + fieldLen b then a.getLsbD (j - fieldPos b) else d.getLsbD j),
   (fun h d a _ => .brev h d a, fun _ a _ j => a.getLsbD (31 - j)),
   (.bmix, fun d a b j =>
      let f := (d.extractLsb' (5 * (j / 8)) 5).toNat
      let src := b ++ a
      if f < 8 then src.getLsbD (8 * f + j % 8) else if f < 16 then src.getLsbD (8 * (f - 8) + 7) else f % 2 == 1),
   (.packB16, fun _ a b j => if j < 16 then a.getLsbD j else b.getLsbD (j - 16))]

/-- Words of an 11-bit immediate: what they make of d (R147). -/
def immWords : List ((Hdr → Near → BitVec 11 → Instr) × (Word → BitVec 11 → Word)) :=
  [(.movi, fun _ x => x.signExtend 32), (.addi, fun d x => d + x.signExtend 32),
   (.andi, fun d x => d &&& x.signExtend 32), (.ori, fun d x => d ||| x.signExtend 32)]

/-- Integer compares (R145). -/
def intCompares : List ((Hdr → Bool → Fin 16 → Near → Near → Instr) × (Word → Word → Bool)) :=
  [(.icmpEqI32, fun a b => a == b), (.icmpNeI32, fun a b => a != b), (.icmpLtI32, fun a b => decide (a.toInt < b.toInt)),
   (.icmpLeI32, fun a b => decide (a.toInt ≤ b.toInt)), (.icmpGtI32, fun a b => decide (b.toInt < a.toInt)),
   (.icmpGeI32, fun a b => decide (b.toInt ≤ a.toInt)), (.icmpLtN32, fun a b => decide (a.toNat < b.toNat)),
   (.icmpLeN32, fun a b => decide (a.toNat ≤ b.toNat)), (.icmpGtN32, fun a b => decide (b.toNat < a.toNat)),
   (.icmpGeN32, fun a b => decide (b.toNat ≤ a.toNat))]

/-- Predicate words (R146). -/
def predWords : List ((Hdr → Fin 16 → Fin 16 → Fin 16 → Instr) × (Bool → Bool → Bool)) :=
  [(.plopAnd, fun a b => a && b), (.plopOr, fun a b => a || b), (.plopXor, fun a b => a != b),
   (.plopAndn, fun a b => a && !b)]

/-! ### Tables of packed and saturating integer words (R171, R172) -/

/-- An exact integer clamped to `n` bits. -/
def clamp (n : Nat) (x : Int) : Int := if x < -2 ^ (n - 1) then -2 ^ (n - 1) else if 2 ^ (n - 1) - 1 < x then 2 ^ (n - 1) - 1 else x

/-- Signed element `j` of `n` bits. -/
def elem (n : Nat) (x : Word) (j : Nat) : Int := (x.extractLsb' (n * j) n).toInt

/-- A word with one exact result of d, a and b: the type of its operands, the result, and the bits of its clamp if it has one. -/
structure ExactWord where
  word : Word3
  ty : ElemTy
  exact : Word → Word → Word → Int
  clampTo : Option Nat

/-- The rounded shift r of R172. -/
def shiftRounded (a b : Word) : Int :=
  if b.toNat = 0 then a.toInt else if b.toNat < 32 then (a.toInt + 2 ^ (b.toNat - 1)) / 2 ^ b.toNat else 0

/-- The exact words of R171 and R172. -/
def exactWords : List ExactWord :=
  [⟨.sataddI32, .int, fun _ a b => a.toInt + b.toInt, some 32⟩,
   ⟨.satsubI32, .int, fun _ a b => a.toInt - b.toInt, some 32⟩,
   ⟨.pdot2I16x2, .i16x2, fun d a b => d.toInt + elem 16 a 0 * elem 16 b 0 + elem 16 a 1 * elem 16 b 1, none⟩,
   ⟨.pdot2sI16x2, .i16x2, fun d a b => d.toInt + elem 16 a 0 * elem 16 b 0 + elem 16 a 1 * elem 16 b 1, some 32⟩,
   ⟨.pdot4I8x4, .i8x4, fun d a b => d.toInt + elem 8 a 0 * elem 8 b 0 + elem 8 a 1 * elem 8 b 1 +
      elem 8 a 2 * elem 8 b 2 + elem 8 a 3 * elem 8 b 3, none⟩,
   ⟨.pdot4sI8x4, .i8x4, fun d a b => d.toInt + elem 8 a 0 * elem 8 b 0 + elem 8 a 1 * elem 8 b 1 +
      elem 8 a 2 * elem 8 b 2 + elem 8 a 3 * elem 8 b 3, some 32⟩,
   ⟨.shrrI32, .int, fun _ a b => shiftRounded a b, none⟩,
   ⟨.shrrsI16, .int, fun _ a b => shiftRounded a b, some 16⟩]

/-- The clamped result of an exact word. -/
def ExactWord.value (r : ExactWord) (d a b : Word) : Int := (r.clampTo).elim (r.exact d a b) fun n => clamp n (r.exact d a b)

/-- Packed 16-bit words (R171): the exact result of one element. -/
def packedWords : List (Word3 × (Int → Int → Int)) :=
  [(.iaddI16x2, fun x y => x + y), (.isubI16x2, fun x y => x - y), (.iminI16x2, fun x y => if x < y then x else y),
   (.imaxI16x2, fun x y => if x < y then y else x)]

/-- Two 16-bit elements as one word. -/
def two16 (lo hi : Int) : Word := BitVec.ofInt 16 hi ++ BitVec.ofInt 16 lo

/-! ### Tables of float words (R156 to R167) -/

/-- A float word: its sources in the order of the check of R26, its result and flags in a lane from the warp as it stood when the
clock began, its latency and how many lanes it takes per clock (R158). -/
structure FloatWord where
  word : Word3
  srcs : Near → Near → Near → Warp → List FSrc
  out : Near → Near → Near → Warp → Fin 32 → FOut
  latency : Nat := 4
  width : Nat := 32

/-- A two-source FP32 word. -/
def FloatWord.two32 (word : Word3) (f : FVal → FVal → FOut) : FloatWord :=
  { word := word, srcs := fun _ a b w => [src32 w a, src32 w b], out := fun _ a b w l => f (f32At w a l) (f32At w b l) }

/-- A one-source FP32 word. -/
def FloatWord.one32 (word : Word2) (f : Word → FOut) : FloatWord :=
  { word := fun h d a _ => word h d a, srcs := fun _ a _ w => [src32 w a], out := fun _ a _ w l => f (w.read32 .f32 a l) }

/-- A special function (R51): latency 8, a quarter of the lanes per clock. -/
def FloatWord.special (word : Word2) (g : Special) : FloatWord :=
  { FloatWord.one32 word fun x => g.apply (fp32.val x.toNat) with latency := 8, width := 8 }

/-- A packed word of two sources (R165): `f` gets the two elements' patterns. -/
def FloatWord.packed (fm : Fmt) (ty : ElemTy) (word : Word3) (f : Nat → Nat → FOut) : FloatWord :=
  { word := word, srcs := fun _ a b w => [srcPacked w fm ty a, srcPacked w fm ty b]
    out := fun _ a b w l => packHalves fun j => f (half (w.read32 ty a l) j) (half (w.read32 ty b l) j) }

/-- The canonical NaN for a NaN, else `f` of the pattern, no flag (R47, R161). -/
def signWord (f : Word → Word) (x : Word) : FOut := ⟨if (fp32.val x.toNat).isNan then 0x7FC00000 else (f x).toNat, 0⟩

/-- The packed words of one format (R165, R166): `add`, `sub`, `mul`, `ffma`, `min`, `max`, `dot`. -/
def packedFloats (fm : Fmt) (ty : ElemTy) (add sub mul ffma min max dot : Word3) : List FloatWord :=
  [.packed fm ty add fun x y => fm.add (fm.val x) (fm.val y),
   .packed fm ty sub fun x y => fm.add (fm.val x) (fm.val y).neg,
   .packed fm ty mul fun x y => fm.mul (fm.val x) (fm.val y),
   { word := ffma, srcs := fun d a b w => [srcPacked w fm ty a, srcPacked w fm ty b, srcPacked w fm ty d]
     out := fun d a b w l => packHalves fun j => fm.fma (fm.val (half (w.read32 ty a l) j))
       (fm.val (half (w.read32 ty b l) j)) (fm.val (half (w.read32 ty d l) j)) },
   .packed fm ty min fun x y => ⟨fm.minMax false x y, 0⟩,
   .packed fm ty max fun x y => ⟨fm.minMax true x y, 0⟩,
   { word := dot, srcs := fun d a b w => [srcPacked w fm ty a, srcPacked w fm ty b, src32 w d]
     out := fun d a b w l =>
       let p := fun (j : Nat) => fp32.mul (fm.val (half (w.read32 ty a l) j)) (fm.val (half (w.read32 ty b l) j))
       let node := treeAddF (ingress (p 0).val) (ingress (p 1).val)
       let sum := treeAddF (w.read32 .f32 d l).toNat node.val
       ⟨sum.val, (BitVec.ofNat 32 (p 0).flags ||| BitVec.ofNat 32 (p 1).flags ||| BitVec.ofNat 32 node.flags |||
         BitVec.ofNat 32 sum.flags).toNat⟩ }]

/-- The F-pipe words with a 32-bit result. -/
def float32 : List FloatWord :=
  [.two32 .faddF32 fp32.add, .two32 .fsubF32 fun x y => fp32.add x y.neg, .two32 .fmulF32 fp32.mul,
   { word := .ffmaF32, srcs := fun d a b w => [src32 w a, src32 w b, src32 w d]
     out := fun d a b w l => fp32.fma (f32At w a l) (f32At w b l) (f32At w d l) },
   { word := .fminF32, srcs := fun _ a b w => [src32 w a, src32 w b]
     out := fun _ a b w l => ⟨fp32.minMax false (w.read32 .f32 a l).toNat (w.read32 .f32 b l).toNat, 0⟩ },
   { word := .fmaxF32, srcs := fun _ a b w => [src32 w a, src32 w b]
     out := fun _ a b w l => ⟨fp32.minMax true (w.read32 .f32 a l).toNat (w.read32 .f32 b l).toNat, 0⟩ },
   .one32 .fabsF32 (signWord fun x => x &&& 0x7FFFFFFF), .one32 .fnegF32 (signWord fun x => x ^^^ 0x80000000),
   { word := .frndF32, srcs := fun _ a _ w => [src32 w a]
     out := fun _ a b w l => ⟨frnd (match b with | .k n => rndOf n.val | _ => .rne) (w.read32 .f32 a l).toNat, 0⟩ },
   { word := .fscaleF32, srcs := fun _ a b w => [src32 w a, srcInt w b]
     out := fun _ a b w l => fscale (w.read32 .f32 a l).toNat (w.read32 .int b l).toInt },
   .special .frcpF32 .rcp, .special .frsqF32 .rsq, .special .fsqrtF32 .sqrt, .special .fex2F32 .ex2, .special .flg2F32 .lg2] ++
  packedFloats fp16 .f16x2 .faddF16x2 .fsubF16x2 .fmulF16x2 .ffmaF16x2 .fminF16x2 .fmaxF16x2 .fdot2F16x2 ++
  packedFloats bf16 .bf16x2 .faddBf16x2 .fsubBf16x2 .fmulBf16x2 .ffmaBf16x2 .fminBf16x2 .fmaxBf16x2 .fdot2Bf16x2

/-- A two-source FP64 word (R167). -/
def FloatWord.two64 (word : Word3) (f : Nat → Nat → FOut) : FloatWord :=
  { word := word, srcs := fun _ a b w => [src64 w a, src64 w b]
    out := fun _ a b w l => f (w.read64 a l).toNat (w.read64 b l).toNat, width := 16 }

/-- The FP64 words. -/
def float64 : List FloatWord :=
  [.two64 .faddF64 fun x y => fp64.add (fp64.val x) (fp64.val y),
   .two64 .fsubF64 fun x y => fp64.add (fp64.val x) (fp64.val y).neg,
   .two64 .fmulF64 fun x y => fp64.mul (fp64.val x) (fp64.val y),
   { word := .ffmaF64, srcs := fun d a b w => [src64 w a, src64 w b, src64 w d]
     out := fun d a b w l => fp64.fma (f64At w a l) (f64At w b l) (f64At w d l), width := 16 },
   .two64 .fminF64 fun x y => ⟨fp64.minMax false x y, 0⟩, .two64 .fmaxF64 fun x y => ⟨fp64.minMax true x y, 0⟩]

/-- Float compares (R145): the word, its condition, whether its operands are FP64. -/
def floatCompares : List ((Hdr → Bool → Fin 16 → Near → Near → Instr) × FCond × Bool) :=
  [(.fcmpEqF32, .eq, false), (.fcmpNeF32, .ne, false), (.fcmpLtF32, .lt, false), (.fcmpLeF32, .le, false),
   (.fcmpGtF32, .gt, false), (.fcmpGeF32, .ge, false), (.fcmpLtF64, .lt, true), (.fcmpEqF64, .eq, true)]

/-- The warp after a float word of result `out`: the written warp `w`, the saturation bits `sat`, the flags of all
lanes of `act` (R50), and the F pipe busy
for the extra clocks (R158). -/
def flagged (w : Warp) (act : LaneSet) (sat : LaneMask) (flags : Fin 32 → Nat) (lat extra : Nat) : Warp :=
  (w.addSticky (lat + extra) sat (orFlags act flags)).occupy extra

end Sys2Proof.Claims

open Sys2Proof Sys2Proof.Machine Sys2Proof.Safety Sys2Proof.Claims

/-! ### Registers and operands -/

/-- R24: right after launch `v`n holds 0x7FA00000 + n and `q`m holds 0x7FA00080 + m, in every thread; each is a signalling NaN, and
its low bits name the register. -/
def Obligations.LaunchMarkersNameTheirRegister : Prop :=
  ∀ (l : Launch) (lid bid block index age clk : Nat) (lane : Fin 32),
    let signals := fun (x : Word) => (fp32.val x.toNat).isNan = true ∧ x.getLsbD 22 = false
    let w := newWarp l lid bid block index age clk
    (∀ n < 128, (w.vRow n)[lane] = BitVec.ofNat 32 (0x7FA00000 ||| n) ∧ signals (w.vRow n)[lane] ∧
      ((w.vRow n)[lane]).toNat % 2 ^ 21 = n) ∧
    (∀ m < 16, (w.regs.qRow m)[lane] = BitVec.ofNat 32 (0x7FA00080 ||| m) ∧ signals (w.regs.qRow m)[lane] ∧
      ((w.regs.qRow m)[lane]).toNat % 2 ^ 21 = 128 + m)

/-- R18: a 32-bit result goes to d and, zero-extended, into `y0`, while each older position moves down one and the old `y3` is
no position any more; lanes outside the written ones keep d and all of `y`. -/
def Sys2Proof.Claims.ResultShiftsIntoY : Prop :=
  ∀ (w : Warp) (n : Fin 16) (m : LaneSet) (f : Fin 32 → Word) (lat : Nat) (l : Fin 32),
    let w' := w.put32 (.q n) m f lat
    let y := fun (v : Warp) => (v.regs.y[l]).map (·.val)
    (m[l] = true → (w'.regs.qRow n.val)[l] = f l ∧ (y w').take 4 = (f l).setWidth 64 :: (y w).take 3) ∧
    (m[l] = false → (w'.regs.qRow n.val)[l] = (w.regs.qRow n.val)[l] ∧ y w' = y w)

/-- R361, R31: a word that reads a register while its latest result is in flight gets what the register held before; once the
result's latency has passed it gets the result. A `y` position behaves alike: until the result that stands there arrives, a read
returns what the position held before that result was shifted in. -/
def Sys2Proof.Claims.ResultArrivesAfterItsLatency : Prop :=
  (∀ (w : Warp) (n : Fin 16) (m : LaneSet) (f : Fin 32 → Word) (lat : Nat) (l : Fin 32), w.marks = [] → m[l] = true →
    ∀ clk, w.clk ≤ clk → ({ w.setQ n.val m f lat with clk := clk }).readQ n.val l =
      if clk < w.clk + lat then (w.regs.qRow n.val)[l] else f l) ∧
  ∀ (w : Warp) (n : Fin 16) (m : LaneSet) (f : Fin 32 → Word) (lat : Nat) (l : Fin 32), m[l] = true →
    (∀ e ∈ w.regs.y[l], e.due ≤ w.clk ∧ e.load = none) →
    ∀ clk, w.clk ≤ clk →
      ({ w.put32 (.q n) m f lat with clk := clk }).readY 0 l = (if clk < w.clk + lat then w.readY 0 l else (f l).setWidth 64) ∧
      ∀ k : Nat, k < 3 → ({ w.put32 (.q n) m f lat with clk := clk }).readY (k + 1) l = w.readY k l

/-- R18, R361: results go to their register and shift into `y`, and arrive when their latency has passed. The model's own choice
or reading, no rule: log entry 64: what an early read gives. -/
def Obligations.ResultsReachTheirRegisterAndY : Prop :=
  Sys2Proof.Claims.ResultShiftsIntoY ∧ Sys2Proof.Claims.ResultArrivesAfterItsLatency

/-! ### Integer words -/

/-- R149: the integer words write their result to d in the lanes of `active`, shift it into `y` (R18), set no flag and go on to the
next word; nothing else of the device changes. -/
def Sys2Proof.Claims.IntegerWordsWriteTheirResult : Prop :=
  ∀ (h : Hdr) (d a b : Near) (s : State) (cur : Cur) (w w1 : Warp),
    (∀ r ∈ int2, Opens (r.1 h d a b) 0 [] s cur w w1 →
      exec (r.1 h d a b) s = .next (passOn s cur (w1.put32 d (cur.before.active h cur.lanes)
        (fun l => r.2 (cur.before.read32 .int a l) (cur.before.read32 .int b l)) 2))) ∧
    (∀ r ∈ int1, Opens (r.1 h d a) 0 [] s cur w w1 →
      exec (r.1 h d a) s = .next (passOn s cur (w1.put32 d (cur.before.active h cur.lanes)
        (fun l => r.2 (cur.before.read32 .int a l)) 2))) ∧
    (Opens (.imad h d a b) 0 [] s cur w w1 →
      exec (.imad h d a b) s = .next (passOn s cur (w1.put32 d (cur.before.active h cur.lanes)
        (fun l => cur.before.read32 .int a l * cur.before.read32 .int b l + cur.before.read32 .int d l) 2))) ∧
    (Opens (.iadd64 h d a b) 0 [] s cur w w1 →
      exec (.iadd64 h d a b) s = .next (passOn s cur (w1.put64 d (cur.before.active h cur.lanes)
        (fun l => cur.before.read64 a l + cur.before.read64 b l) 2)))

/-- R150 to R152, R171: `BFE`, `BFI`, `BREV`, `BMIX` and `PACK.b16` write to d, bit by bit, what their tables say. -/
def Sys2Proof.Claims.BitWordsPickTheirBits : Prop :=
  ∀ r ∈ bitWords, ∀ (h : Hdr) (d a b : Near) (s : State) (cur : Cur) (w w1 : Warp), Opens (r.1 h d a b) 0 [] s cur w w1 →
    ∃ f : Fin 32 → Word,
      exec (r.1 h d a b) s = .next (passOn s cur (w1.put32 d (cur.before.active h cur.lanes) f 2)) ∧
      ∀ (l : Fin 32) (j : Nat), j < 32 → (f l).getLsbD j =
        r.2 (cur.before.read32 .int d l) (cur.before.read32 .int a l) (cur.before.read32 .int b l) j

/-- R147: immediate words write d; `LIT` and `LIT2` write the literal and skip its words (R108), in every issuing lane. -/
def Sys2Proof.Claims.ImmediateWordsWriteTheirResult : Prop :=
  ∀ (h : Hdr) (d : Near) (s : State) (cur : Cur) (w w1 : Warp),
    let act := cur.before.active h cur.lanes
    (∀ r ∈ immWords, ∀ x, Opens (r.1 h d x) 0 [] s cur w w1 →
      exec (r.1 h d x) s = .next (passOn s cur (w1.put32 d act (fun l => r.2 (cur.before.read32 .int d l) x) 2))) ∧
    (∀ n : Fin 32, Opens (.shli h d n) 0 [] s cur w w1 →
      exec (.shli h d n) s = .next (passOn s cur (w1.put32 d act
        (fun l => BitVec.ofNat 32 ((cur.before.read32 .int d l).toNat * 2 ^ n.val)) 2))) ∧
    (∀ n : Fin 32, Opens (.shri h d n) 0 [] s cur w w1 →
      exec (.shri h d n) s = .next (passOn s cur (w1.put32 d act
        (fun l => BitVec.ofNat 32 ((cur.before.read32 .int d l).toNat / 2 ^ n.val)) 2))) ∧
    (∀ x, Opens (.lit h d x) 0 [] s cur w w1 →
      exec (.lit h d x) s = .next (s.setWarp cur.core cur.slot ((w1.put32 d act (fun _ => x) 2).advance cur.pc cur.lanes 1))) ∧
    (∀ x, Opens (.lit2 h d x) 0 [] s cur w w1 →
      exec (.lit2 h d x) s = .next (s.setWarp cur.core cur.slot ((w1.put64 d act (fun _ => x) 2).advance cur.pc cur.lanes 2)))

/-- R147, R149 to R152, R171: integer, bit-field and immediate words write what their tables say. -/
def Obligations.IntegerWordsWriteTheirTables : Prop :=
  Sys2Proof.Claims.IntegerWordsWriteTheirResult ∧
  Sys2Proof.Claims.BitWordsPickTheirBits ∧
  Sys2Proof.Claims.ImmediateWordsWriteTheirResult

/-- R33: `SEL` writes a in the issuing lanes whose guard passes and b in the other issuing lanes, and shifts `y` in all of them; the
word of a `SEL` with E = 0 is no instruction, and its issue traps `ILLEGAL_INSTRUCTION`. -/
def Obligations.SelChoosesByGuard : Prop :=
  (∀ (h : Hdr) (d a b : Near) (s : State) (cur : Cur) (w w1 : Warp), Opens (.sel h d a b) 0 [] s cur w w1 →
    exec (.sel h d a b) s = .next (passOn s cur (w1.put32 d cur.lanes
      (fun l => if cur.before.guardPasses h l then cur.before.read32 .int a l else cur.before.read32 .int b l) 2))) ∧
  ∀ (h : Hdr) (d a b : Near) (ws more : List Word) (s : State) (cur : Cur) (solo : Bool) (next : Option Cand), h.guard = none →
    ws.drop cur.pc.word = encode (.sel h d a b) ++ more →
    issueWords exec s cur ws solo next = .next ((s.raise cur cur.lanes
      { kind := .illegalInstruction, lane := lowLane cur.lanes }).endIssue cur.core cur.slot cur.lanes 0 0)

/-- R145, R146: integer compares and `PLOP` write pd in the lanes of `active`; d[4] ANDs a compare into pd; no `y` moves. -/
def Obligations.PredicateWordsWriteTheirResult : Prop :=
  ∀ (h : Hdr) (pd : Fin 16) (s : State) (cur : Cur) (w w1 : Warp),
    (∀ r ∈ intCompares, ∀ (acc : Bool) (a b : Near), Opens (r.1 h acc pd a b) 0 [] s cur w w1 →
      exec (r.1 h acc pd a b) s = .next (passOn s cur (w1.setP pd.val (cur.before.active h cur.lanes) (fun l =>
        let x := r.2 (cur.before.read32 .int a l) (cur.before.read32 .int b l)
        if acc then cur.before.readP pd.val l && x else x) 2))) ∧
    (∀ r ∈ predWords, ∀ pa pb : Fin 16, Opens (r.1 h pd pa pb) 0 [] s cur w w1 →
      exec (r.1 h pd pa pb) s = .next (passOn s cur (w1.setP pd.val (cur.before.active h cur.lanes)
        (fun l => r.2 (cur.before.readP pa.val l) (cur.before.readP pb.val l)) 2)))

/-- R171, R172: packed and saturating words write the exact result, clamped once where they clamp, and set bit l of `sr.sat` in
the lanes of `active` whose result a clamp changed; the others never set it. The model's own choice or reading, no rule: log
entry 101: operand a of UNPKL and UNPKH takes the integer column of R111. -/
def Obligations.SaturatingWordsClampOnce : Prop :=
  ∀ (h : Hdr) (d a b : Near) (s : State) (cur : Cur) (w w1 : Warp),
    let act := cur.before.active h cur.lanes
    (∀ r ∈ exactWords, Opens (r.word h d a b) 0 [] s cur w w1 →
      let out := fun (l : Fin 32) (f : Word → Word → Word → Int) =>
        f (cur.before.read32 r.ty d l) (cur.before.read32 r.ty a l) (cur.before.read32 r.ty b l)
      exec (r.word h d a b) s = .next (passOn s cur ((w1.put32 d act (fun l => BitVec.ofInt 32 (out l r.value)) 2).addSticky 2
        (satMask act fun l => decide (out l r.value ≠ out l r.exact)) 0))) ∧
    (∀ r ∈ packedWords, Opens (r.1 h d a b) 0 [] s cur w w1 →
      let e := fun (l : Fin 32) (j : Nat) =>
        r.2 (elem 16 (cur.before.read32 .i16x2 a l) j) (elem 16 (cur.before.read32 .i16x2 b l) j)
      exec (r.1 h d a b) s = .next (passOn s cur (w1.put32 d act (fun l => two16 (e l 0) (e l 1)) 2))) ∧
    (Opens (.sataddI16x2 h d a b) 0 [] s cur w w1 →
      let e := fun (l : Fin 32) (j : Nat) =>
        elem 16 (cur.before.read32 .i16x2 a l) j + elem 16 (cur.before.read32 .i16x2 b l) j
      exec (.sataddI16x2 h d a b) s = .next (passOn s cur ((w1.put32 d act
        (fun l => two16 (clamp 16 (e l 0)) (clamp 16 (e l 1))) 2).addSticky 2
        (satMask act fun l => decide (clamp 16 (e l 0) ≠ e l 0) || decide (clamp 16 (e l 1) ≠ e l 1)) 0))) ∧
    (Opens (.unpklI16 h d a) 0 [] s cur w w1 →
      exec (.unpklI16 h d a) s = .next (passOn s cur (w1.put32 d act
        (fun l => BitVec.ofInt 32 (elem 16 (cur.before.read32 .int a l) 0)) 2))) ∧
    (Opens (.unpkhI16 h d a) 0 [] s cur w w1 →
      exec (.unpkhI16 h d a) s = .next (passOn s cur (w1.put32 d act
        (fun l => BitVec.ofInt 32 (elem 16 (cur.before.read32 .int a l) 1)) 2)))

/-! ### Float words -/

/-- R156 to R167: where no source signals, a float word writes its rounded result to d, shifts it into `y`, and ORs its flags over
the lanes of `active`, all at the end of its latency. -/
def Sys2Proof.Claims.FloatWordsWriteTheirResult : Prop :=
  ∀ (h : Hdr) (d a b : Near) (s : State) (cur : Cur) (w w1 : Warp),
    let act := cur.before.active h cur.lanes
    (∀ r ∈ float32, Opens (r.word h d a b) 0 [] s cur w w1 → snanTrap act (r.srcs d a b cur.before) = none →
      let extra := extraClocks (LaneSet.count cur.lanes) r.width
      exec (r.word h d a b) s = .next (passOn s cur (flagged
        (w1.put32 d act (fun l => BitVec.ofNat 32 (r.out d a b cur.before l).val) (r.latency + extra)) act 0
        (fun l => (r.out d a b cur.before l).flags) r.latency extra))) ∧
    (∀ r ∈ float64, Opens (r.word h d a b) 0 [] s cur w w1 → snanTrap act (r.srcs d a b cur.before) = none →
      let extra := extraClocks (LaneSet.count cur.lanes) r.width
      exec (r.word h d a b) s = .next (passOn s cur (flagged
        (w1.put64 d act (fun l => BitVec.ofNat 64 (r.out d a b cur.before l).val) (r.latency + extra)) act 0
        (fun l => (r.out d a b cur.before l).flags) r.latency extra))) ∧
    (Opens (.fclassF32 h d a) 0 [] s cur w w1 →
      exec (.fclassF32 h d a) s = .next (passOn s cur (w1.put32 d act
        (fun l => BitVec.ofNat 32 (fclass (cur.before.read32 .f32 a l).toNat)) 4)))

/-- R25, R26: a float word with a signalling source in some lane of `active` traps `SNAN_USE` before anything is written, naming
the lowest such lane, its first signalling source in field order and that source's pattern. -/
def Sys2Proof.Claims.SignallingSourceTraps : Prop :=
  ∀ r ∈ float32 ++ float64, ∀ (h : Hdr) (d a b : Near) (s : State) (cur : Cur) (w w1 : Warp) (l : Fin 32) (code : Nat) (x : Word),
    let act := cur.before.active h cur.lanes
    let first := fun (l : Fin 32) => (r.srcs d a b cur.before).findSome? fun src => src l
    Opens (r.word h d a b) 0 [] s cur w w1 → act[l] = true → first l = some (code, x) →
      (∀ k : Fin 32, k < l → act[k] = true → first k = none) →
      exec (r.word h d a b) s = .next ((s.setWarp cur.core cur.slot w1).raise cur act
        { kind := .snanUse, lane := l.val, aux := code, pattern := x })

/-- R25, R26, R156 to R167: float words write their rounded results, or trap on a signalling source before any write. The
model's own choice or reading, no rule: log entry 14: FEX2 and FLG2 are correctly rounded. -/
def Obligations.FloatWordsRoundOnceOrTrap : Prop :=
  Sys2Proof.Claims.FloatWordsWriteTheirResult ∧ Sys2Proof.Claims.SignallingSourceTraps

/-- R145, R25: a float compare whose sources do not signal writes its condition to pd in the lanes of `active`, ANDed into pd where
d[4] says so, and sets nv where an ordering compare meets a NaN. -/
def Sys2Proof.Claims.FloatComparesWriteTheirResult : Prop :=
  ∀ r ∈ floatCompares, ∀ (h : Hdr) (acc : Bool) (pd : Fin 16) (a b : Near) (s : State) (cur : Cur) (w w1 : Warp),
    let act := cur.before.active h cur.lanes
    let srcs := if r.2.2 then [src64 cur.before a, src64 cur.before b] else [src32 cur.before a, src32 cur.before b]
    let at_ := fun (n : Near) (l : Fin 32) => if r.2.2 then f64At cur.before n l else f32At cur.before n l
    let extra := extraClocks (LaneSet.count cur.lanes) (if r.2.2 then 16 else 32)
    let out := fun (l : Fin 32) => r.2.1.holds (at_ a l) (at_ b l)
    Opens (r.1 h acc pd a b) 0 [] s cur w w1 → snanTrap act srcs = none →
      exec (r.1 h acc pd a b) s = .next (passOn s cur (flagged
        (w1.setP pd.val act (fun l => if acc then cur.before.readP pd.val l && (out l).1 else (out l).1) (4 + extra)) act 0 (fun l => (out l).2) 4 extra))

/-- R168 to R170: `FCVT` and `FCVTD` write the converted value, set their flags, and set bit l of `sr.sat` where an integer result
was out of range. -/
def Sys2Proof.Claims.ConversionsWriteTheirResult : Prop :=
  ∀ (h : Hdr) (d a : Near) (code : Fin 32) (s : State) (cur : Cur) (w w1 : Warp),
    let act := cur.before.active h cur.lanes
    let wide := (8 ≤ code.val ∧ code.val < 24) ∨ 28 ≤ code.val
    let extra := extraClocks (LaneSet.count cur.lanes) (if wide then 16 else 32)
    let done := fun (out : Fin 32 → COut) =>
      passOn s cur (flagged
        (if 28 ≤ code.val then w1.put64 d act (fun l => BitVec.ofNat 64 (out l).val) (4 + extra)
          else w1.put32 d act (fun l => BitVec.ofNat 32 (out l).val) (4 + extra))
        act (satMask act fun l => (out l).sat) (fun l => (out l).flags) 4 extra)
    snanTrap act (convertSrcs code.val a cur.before) = none →
    (Opens (.fcvt h d a code) 0 [] s cur w w1 → exec (.fcvt h d a code) s = .next (done fun l =>
      convert code.val (fun f _ v => f.convert (rndOf (code.val % 4)) v) (convertSource code.val a cur.before l))) ∧
    (Opens (.fcvtd h d a code) 0 [] s cur w w1 → exec (.fcvtd h d a code) s = .next (done fun l =>
      convert code.val (fun f j v => f.dither ((l.val * (if code.val = 8 then 1 else 2) + j) % 64)
        cur.before.regs.phase.toNat v) (convertSource code.val a cur.before l)))

/-- R145, R168 to R170: float compares write predicates, conversions write converted values. The model's own choice or reading,
no rule: log entry 15: a conversion rounds once from its source. -/
def Obligations.ComparesAndConversionsWriteTheirResult : Prop :=
  Sys2Proof.Claims.FloatComparesWriteTheirResult ∧ Sys2Proof.Claims.ConversionsWriteTheirResult

/-- The exact value of a finite number as a rational. -/
def Sys2Proof.Claims.exactValue : FVal → Option Rat
  | .fin neg m e => some ((if neg then -1 else 1) * (m : Rat) * (2 : Rat) ^ e)
  | _ => none

/-- R49, R159: an FP32 sum of finite operands that does not overflow is a nearest FP32 value: no finite FP32 pattern lies nearer to
the exact sum. -/
def Sys2Proof.Claims.SumRoundsToNearest : Prop :=
  ∀ (x y : FVal) (p q r v : Rat), exactValue x = some p → exactValue y = some q →
    exactValue (fp32.val (fp32.add x y).val) = some r →
    ∀ z < 2 ^ 32, exactValue (fp32.val z) = some v → (r - (p + q)).abs ≤ (v - (p + q)).abs

/-- R160: `FMIN` and `FMAX` of two numbers return one of them, −0 counting as less than +0; of one number and one NaN they return
the number, of two NaNs the canonical NaN. -/
def Sys2Proof.Claims.MinMaxReturnsAnOperand : Prop :=
  ∀ fm ∈ [fp32, fp16, bf16, fp64], ∀ (mx : Bool) (a b : Nat),
    ((fm.val a).isNan = true → (fm.val b).isNan = true → fm.minMax mx a b = fm.nan) ∧
    ((fm.val a).isNan = true → (fm.val b).isNan = false → fm.minMax mx a b = b) ∧
    ((fm.val a).isNan = false → (fm.val b).isNan = true → fm.minMax mx a b = a) ∧
    ((fm.val a).isNan = false → (fm.val b).isNan = false → fm.minMax mx a b = a ∨ fm.minMax mx a b = b) ∧
    fm.minMax false fm.signBit 0 = fm.signBit ∧ fm.minMax false 0 fm.signBit = fm.signBit ∧
    fm.minMax true fm.signBit 0 = 0 ∧ fm.minMax true 0 fm.signBit = 0

/-- R49, R159, R160: sums round to a nearest value; minima and maxima are operands. -/
def Obligations.SumsRoundToNearestAndMinMaxSelects : Prop :=
  Sys2Proof.Claims.SumRoundsToNearest ∧ Sys2Proof.Claims.MinMaxReturnsAnOperand

/-! ### Words that read other lanes -/

namespace Sys2Proof.Claims

/-- `XLANE` forms (R174): the source position in a tile of t lanes, from t, the lane's own position and b. -/
def laneMoves : List (Word3 × (Nat → Nat → Word → Nat)) :=
  [(.xlaneGet, fun t _ x => x.toNat % t),
   (.xlaneShift, fun t i x => if 0 ≤ (i : Int) - x.toInt ∧ (i : Int) - x.toInt < t then ((i : Int) - x.toInt).toNat else i),
   (.xlaneRot, fun t i x => (((i : Int) - x.toNat) % t).toNat),
   (.xlaneBfly, fun t i x => i ^^^ (x.toNat % t))]

/-- T(l) of R144 and R177: the lanes of `act` in lane `l`'s tile of `t` lanes. -/
def inTile (t : Nat) (act : LaneSet) (l j : Fin 32) : Bool := act[j] && j.val / t == l.val / t

/-- The lanes of T(l), ascending. -/
def tileOf (t : Nat) (act : LaneSet) (l : Fin 32) : List (Fin 32) := (List.finRange 32).filter (inTile t act l)

/-- value(m, i) of R63 over leaves that may be absent, with the flags of its roundings (R66). -/
def treeNode (leaf : Nat → Option FOut) : Nat → Nat → Option FOut
  | 0, i => leaf i
  | m + 1, i =>
    match treeNode leaf m (2 * i), treeNode leaf m (2 * i + 1) with
    | none, r => r
    | l, none => l
    | some l, some r =>
      let x := treeAddF l.val r.val
      some ⟨x.val, (BitVec.ofNat 5 l.flags ||| BitVec.ofNat 5 r.flags ||| BitVec.ofNat 5 x.flags).toNat⟩

/-- `WRED.fadd` in lane `l`'s tile (R178): present leaves enter by ingress (R65), a root of −0 is written as +0 (R67). -/
def floatTree (t : Nat) (act : LaneSet) (x : Fin 32 → Word) (l : Fin 32) : FOut :=
  let leaf := fun (i : Nat) =>
    if i < t ∧ act[tileLane t l i] = true then some (⟨ingress (x (tileLane t l i)).toNat, 0⟩ : FOut) else none
  (treeNode leaf 5 0).elim ⟨0, 0⟩ fun r => ⟨if r.val = 2 ^ 31 then 0 else r.val, r.flags⟩

end Sys2Proof.Claims

/-- R34: `ELECT` sets pd true in the lowest lane of `active` and false in its other lanes; lanes outside `active` keep pd. -/
def Obligations.ElectChoosesLowestLane : Prop :=
  ∀ (h : Hdr) (pd : Fin 16) (s : State) (cur : Cur) (w w1 : Warp), Opens (.elect h pd) 0 [] s cur w w1 →
    ∃ f : Fin 32 → Bool,
      exec (.elect h pd) s = .next (passOn s cur (w1.setP pd.val (cur.before.active h cur.lanes) f 2)) ∧
      ∀ l : Fin 32, (f l = true ↔ (cur.before.active h cur.lanes)[l] = true ∧
        ∀ j : Fin 32, j < l → (cur.before.active h cur.lanes)[j] = false) ∧
      ((w1.setP pd.val (cur.before.active h cur.lanes) f 2).regs.pRow pd.val)[l] =
        if (cur.before.active h cur.lanes)[l] then f l else (w1.regs.pRow pd.val)[l]

/-- R144: `PJOIN` joins a predicate over T(l), `PMASK` gives the lanes of T(l) where it holds, `PEERS` those with the same key and
0 in issuing lanes whose guard fails. -/
def Sys2Proof.Claims.TileWordsJoinTheirTile : Prop :=
  ∀ (h : Hdr) (d a : Near) (pd pa : Fin 16) (mode : Fin 4) (s : State) (cur : Cur) (w w1 : Warp),
    let act := cur.before.active h cur.lanes
    let t := cur.before.regs.tile
    let holds := fun (l : Fin 32) => (tileOf t act l).filter fun j => cur.before.readP pa.val j
    let key := fun (l : Fin 32) => if mode.val = 1 then (cur.before.read64 a l).toNat else (cur.before.read32 .int a l).toNat
    (Opens (.pjoin h pd pa mode) 0 [] s cur w w1 →
      exec (.pjoin h pd pa mode) s = .next (passOn s cur (w1.setP pd.val act (fun l =>
        match mode.val with
        | 0 => (holds l).length == (tileOf t act l).length
        | 1 => (holds l).length != 0
        | 2 => (holds l).length == (tileOf t act l).length || (holds l).length == 0
        | _ => (holds l).length % 2 == 1) 2))) ∧
    (Opens (.pmask h d pa) 0 [] s cur w w1 →
      ∃ f : Fin 32 → Word, exec (.pmask h d pa) s = .next (passOn s cur (w1.put32 d act f 2)) ∧
        ∀ l j : Fin 32, (f l).getLsbD j.val = (inTile t act l j && cur.before.readP pa.val j)) ∧
    (Opens (.peers h d a mode) 0 [] s cur w w1 →
      ∃ f : Fin 32 → Word, exec (.peers h d a mode) s = .next (passOn s cur (w1.put32 d cur.lanes f 2)) ∧
        ∀ l j : Fin 32, (f l).getLsbD j.val = (act[l] && inTile t act l j && key j == key l))

/-- R173 to R176: `XLANE` takes a from the named position of the lane's tile; `SLIDE` moves the tile's vector of 16-bit elements by
one, with one fill element from b. -/
def Sys2Proof.Claims.LaneMovesStayInTheirTile : Prop :=
  ∀ (h : Hdr) (d a b : Near) (s : State) (cur : Cur) (w w1 : Warp),
    let act := cur.before.active h cur.lanes
    let t := cur.before.regs.tile
    let el := fun (l : Fin 32) (e : Nat) => (cur.before.read32 .int a (tileLane t l (e / 2))).extractLsb' (16 * (e % 2)) 16
    let fill := fun (l : Fin 32) (e : Nat) => (cur.before.read32 .i16x2 b (tileLane t l (e / 2))).extractLsb' (16 * (e % 2)) 16
    (∀ r ∈ laneMoves, Opens (r.1 h d a b) 0 [] s cur w w1 →
      exec (r.1 h d a b) s = .next (passOn s cur (w1.put32 d act (fun l =>
        cur.before.read32 .int a (tileLane t l (r.2 t (l.val % t) (cur.before.read32 .int b l)))) 2))) ∧
    (Opens (.slideUp h d a b) 0 [] s cur w w1 →
      exec (.slideUp h d a b) s = .next (passOn s cur (w1.put32 d act (fun l =>
        let p := l.val % t
        el l (2 * p) ++ (if p = 0 then fill l (2 * t - 1) else el l (2 * p - 1))) 2))) ∧
    (Opens (.slideDown h d a b) 0 [] s cur w w1 →
      exec (.slideDown h d a b) s = .next (passOn s cur (w1.put32 d act (fun l =>
        let p := l.val % t
        (if p + 1 = t then fill l 0 else el l (2 * p + 2)) ++ el l (2 * p + 1)) 2)))

/-- R175: a lane of `active` to which lanes of `active` push a value writes the one of the highest such lane; the others keep d and
`y`. -/
def Obligations.PushDeliversTheHighestSender : Prop :=
  ∀ (h : Hdr) (d a b : Near) (s : State) (cur : Cur) (w w1 : Warp), Opens (.push h d a b) 0 [] s cur w w1 →
    let act := cur.before.active h cur.lanes
    let sends := fun (j l : Fin 32) =>
      act[j] = true ∧ tileLane cur.before.regs.tile j (cur.before.read32 .int b j).toNat = l
    ∃ (m : LaneSet) (f : Fin 32 → Word),
      exec (.push h d a b) s = .next (passOn s cur (w1.put32 d m f 2)) ∧
      (∀ l : Fin 32, m[l] = true ↔ act[l] = true ∧ ∃ j, sends j l) ∧
      (∀ j l : Fin 32, sends j l → (∀ k : Fin 32, sends k l → k ≤ j) → f l = cur.before.read32 .int a j) ∧
      ∀ l : Fin 32, m[l] = false → let v := w1.put32 d m f 2
        v.regs.y[l] = w1.regs.y[l] ∧ ∀ n, (v.regs.qRow n)[l] = (w1.regs.qRow n)[l]

/-- R177, R178: `WRED` and `SCAN` combine a over T(l): the sum modulo 2^32, the signed minimum and maximum, the sum over the lanes
up to l, and the deterministic tree of FP32 values with the flags of its additions. -/
def Sys2Proof.Claims.ReductionsCombineTheTile : Prop :=
  ∀ (h : Hdr) (d a : Near) (s : State) (cur : Cur) (w w1 : Warp),
    let act := cur.before.active h cur.lanes
    let t := cur.before.regs.tile
    let x := fun (j : Fin 32) => cur.before.read32 .int a j
    let sum := fun (ls : List (Fin 32)) => BitVec.ofNat 32 ((ls.map fun j => (x j).toNat).sum)
    (Opens (.wredIadd h d a) 0 [] s cur w w1 →
      exec (.wredIadd h d a) s = .next (passOn s cur (w1.put32 d act (fun l => sum (tileOf t act l)) 2))) ∧
    (Opens (.scanIadd h d a) 0 [] s cur w w1 →
      exec (.scanIadd h d a) s = .next (passOn s cur (w1.put32 d act
        (fun l => sum ((tileOf t act l).filter fun j => j.val ≤ l.val)) 2))) ∧
    (Opens (.wredImin h d a) 0 [] s cur w w1 →
      ∃ f : Fin 32 → Word, exec (.wredImin h d a) s = .next (passOn s cur (w1.put32 d act f 2)) ∧
        ∀ l : Fin 32, act[l] = true →
          (∃ j ∈ tileOf t act l, f l = x j) ∧ ∀ j ∈ tileOf t act l, (f l).toInt ≤ (x j).toInt) ∧
    (Opens (.wredImax h d a) 0 [] s cur w w1 →
      ∃ f : Fin 32 → Word, exec (.wredImax h d a) s = .next (passOn s cur (w1.put32 d act f 2)) ∧
        ∀ l : Fin 32, act[l] = true →
          (∃ j ∈ tileOf t act l, f l = x j) ∧ ∀ j ∈ tileOf t act l, (x j).toInt ≤ (f l).toInt) ∧
    (Opens (.wredFadd h d a) 0 [] s cur w w1 →
      let out := floatTree t act fun j => cur.before.read32 .f32 a j
      exec (.wredFadd h d a) s = .next (passOn s cur ((w1.put32 d act (fun l => BitVec.ofNat 32 (out l).val) 2).addSticky 2 0
        (orFlags act fun l => (out l).flags))))

/-- R144, R173 to R178: predicates joined, values moved and values reduced within tiles. The model's own choice or reading, no
rule: log entry 101: operand a of SLIDE takes the integer column of R111. -/
def Obligations.CrossLaneWordsStayInTheirTile : Prop :=
  Sys2Proof.Claims.TileWordsJoinTheirTile ∧
  Sys2Proof.Claims.LaneMovesStayInTheirTile ∧
  Sys2Proof.Claims.ReductionsCombineTheTile

/-! ### The main file -/

/-- R179: `GET`, `PUT`, their pairs, `VADD.i32` and `VSWAP` move and add in the lanes of `active`; `y` takes the value written. -/
def Sys2Proof.Claims.MainFileWordsMoveAndAdd : Prop :=
  ∀ (h : Hdr) (v : Fin 128) (a : Near) (s : State) (cur : Cur) (w w1 : Warp),
    let act := cur.before.active h cur.lanes
    let x := fun (l : Fin 32) => cur.before.read32 .int a l
    let old := fun (l : Fin 32) => cur.before.readV v.val l
    (Opens (.get h v a) 0 [] s cur w w1 → exec (.get h v a) s = .next (passOn s cur (w1.put32 a act old 3))) ∧
    (Opens (.get2 h v a) 0 [] s cur w w1 → exec (.get2 h v a) s = .next (passOn s cur (w1.put64 a act
      (fun l => cur.before.readV (v.val + 1) l ++ old l) 3))) ∧
    (Opens (.put h v a) 0 [v.val] s cur w w1 → exec (.put h v a) s = .next (passOn s cur
      ((w1.setV v.val act x 4).shiftY act (fun l => (x l).setWidth 64) 4))) ∧
    (Opens (.put2 h v a) 0 [v.val, v.val + 1] s cur w w1 → exec (.put2 h v a) s = .next (passOn s cur
      (((w1.setV v.val act (fun l => (cur.before.read64 a l).setWidth 32) 4).setV (v.val + 1) act
        (fun l => (cur.before.read64 a l >>> 32).setWidth 32) 4).shiftY act (fun l => cur.before.read64 a l) 4))) ∧
    (Opens (.vaddI32 h v a) 0 [v.val] s cur w w1 → exec (.vaddI32 h v a) s = .next (passOn s cur
      ((w1.setV v.val act (fun l => old l + x l) 4).shiftY act (fun l => (old l + x l).setWidth 64) 4))) ∧
    (Opens (.vswap h v a) 0 [v.val] s cur w w1 → exec (.vswap h v a) s = .next (passOn s cur
      ((w1.setV v.val act x 4).put32 a act old 4)))

/-- R157, R179: `VFMA.f32` and `VADD.f32`, where neither their sources nor the old v signal, write the rounded sum to v and set
its flags; where one signals they trap `SNAN_USE` (R25). -/
def Sys2Proof.Claims.MainFileFloatWordsRoundOnce : Prop :=
  ∀ (h : Hdr) (v : Fin 128) (a b : Near) (s : State) (cur : Cur) (w w1 : Warp),
    let act := cur.before.active h cur.lanes
    let old := fun (l : Fin 32) => fp32.val (cur.before.readV v.val l).toNat
    let done := fun (out : Fin 32 → FOut) => passOn s cur (((w1.setV v.val act (fun l => BitVec.ofNat 32 (out l).val) 4).shiftY
      act (fun l => (BitVec.ofNat 32 (out l).val).setWidth 64) 4).addSticky 4 0 (orFlags act fun l => (out l).flags))
    let trapped := fun (t : Trap) => (s.setWarp cur.core cur.slot w1).raise cur act t
    (Opens (.vfmaF32 h v a b) 0 [v.val] s cur w w1 →
      exec (.vfmaF32 h v a b) s = .next
        (match snanTrap act [src32 cur.before a, src32 cur.before b, srcV cur.before v.val] with
          | some t => trapped t
          | none => done fun l => fp32.fma (f32At cur.before a l) (f32At cur.before b l) (old l))) ∧
    (Opens (.vaddF32 h v a) 0 [v.val] s cur w w1 →
      exec (.vaddF32 h v a) s = .next
        (match snanTrap act [src32 cur.before a, srcV cur.before v.val] with
          | some t => trapped t
          | none => done fun l => fp32.add (old l) (f32At cur.before a l)))

/-- R157, R179, R25: the words of the main file, integer and float. -/
def Obligations.MainFileWordsReachTheMainFile : Prop :=
  Sys2Proof.Claims.MainFileWordsMoveAndAdd ∧ Sys2Proof.Claims.MainFileFloatWordsRoundOnce

/-- R180, R320: the first write of a window to a `v` register keeps the row that the register held, in the open window's shadow. -/
def Sys2Proof.Claims.FirstWriteShadowsTheOldRow : Prop :=
  ∀ (w : Warp) (n : Nat) (m : LaneSet) (f : Fin 32 → Word) (lat : Nat) (old : List Window) (x : Window),
    w.windows = old ++ [x] → x.isClosed = false →
    ∃ y, (w.setV n m f lat).windows = old ++ [y] ∧ y.ck = x.ck ∧
      SMap.get? y.vOld n = some ((SMap.get? x.vOld n).getD (w.vRow n)) ∧
      ∀ k, k ≠ n → SMap.get? y.vOld k = SMap.get? x.vOld k

/-! ### Uniform and special registers -/

namespace Sys2Proof.Claims

/-- The 32-bit special registers as `GETSR` gives them in lane `l` (R22, R119, R153): number and value. -/
def specials (s : State) (core : Nat) (w : Warp) (l : Fin 32) : List (Nat × Word) :=
  [(0, BitVec.ofNat 32 l.val), (1, BitVec.ofNat 32 w.index),
   (2, BitVec.ofNat 32 (((SMap.get? s.blocks w.block).map (·.index)).getD 0)),
   (3, BitVec.ofNat 32 (s.recordField w.launch 736 32)), (4, BitVec.ofNat 32 core), (5, BitVec.ofNat 32 (core / 4)),
   (6, BitVec.ofNat 32 (core / 16)), (7, BitVec.ofNat 32 s.self), (8, BitVec.ofNat 32 w.regs.tile),
   (9, w.regs.satAt w.clk), (10, w.regs.flagsAt w.clk), (11, w.regs.rc), (12, w.regs.mshift), (13, w.regs.phase),
   (14, if w.sbchk then 1 else 0), (15, BitVec.ofNat 32 (s.hwmark core)), (16, w.windowReg), (17, w.rollbacks),
   (18, BitVec.ofNat 32 (w.clk - w.start)), (20, if w.super then w.trapinfo else 0)]

end Sys2Proof.Claims

/-- R153, R22: `GETSR` writes the register's value at issue to d, in every lane of `active`; `sr.spbase` fills a pair; a loop level
that is not open reads 0 and `sr.trapinfo` outside the handler reads 0. -/
def Sys2Proof.Claims.GetsrReadsSpecialRegisters : Prop :=
  ∀ (h : Hdr) (d : Near) (num : Fin 128) (s : State) (cur : Cur) (w w1 : Warp), Opens (.getsr h d num) 0 [] s cur w w1 →
    let act := cur.before.active h cur.lanes
    (∀ f : Fin 32 → Word, (∀ l, (num.val, f l) ∈ specials s cur.core cur.before l) →
      exec (.getsr h d num) s = .next (passOn s cur (w1.put32 d act f 2))) ∧
    (∀ j : Nat, j < 3 → num.val = 21 + j → exec (.getsr h d num) s = .next (passOn s cur (w1.put32 d act
      (fun _ => ((cur.before.regs.loops.reverse[j]?).map (·.count)).getD 0) 2))) ∧
    (num.val = 19 → exec (.getsr h d num) s = .next (passOn s cur (w1.put64 d act (fun _ => s.spbase) 2)))

/-- R132, R154, R138: `SETSR` writes the value of the lowest lane of `active`: `sr.rc` (0 and values above 255 trap
`ILLEGAL_OPERAND` and write nothing), `sr.mshift`, the low 6 bits of `sr.phase`, with nothing in flight `sr.sat` and the low 5 bits
of `sr.fflags`, and the count of an open loop level; with no lane it has no effect. -/
def Sys2Proof.Claims.SetsrWritesSpecialRegisters : Prop :=
  ∀ (h : Hdr) (a : Near) (num : Fin 128) (s : State) (cur : Cur) (w w1 : Warp) (l : Fin 32),
    Opens (.setsr h a num) 0 [] s cur w w1 →
    let act := cur.before.active h cur.lanes
    let x := cur.before.read32 .int a l
    let done := fun (r : Regs) => exec (.setsr h a num) s = .next (passOn s cur { w1 with regs := r })
    (num.val ≠ 14 → LaneSet.lowest act = none → exec (.setsr h a num) s = .next (passOn s cur w1)) ∧
    (LaneSet.lowest act = some l →
      (num.val = 11 → (x = 0 ∨ 255 < x.toNat) → exec (.setsr h a num) s =
        .next ((s.setWarp cur.core cur.slot w1).raise cur act { kind := .illegalOperand, lane := l.val })) ∧
      (num.val = 11 → x ≠ 0 → x.toNat ≤ 255 → done { w1.regs with rc := x }) ∧
      (num.val = 12 → done { w1.regs with mshift := x }) ∧
      (num.val = 13 → done { w1.regs with phase := x &&& 0x3F }) ∧
      (num.val = 9 → w1.regs.sticky = [] → done { w1.regs with sat := x }) ∧
      (num.val = 10 → w1.regs.sticky = [] → done { w1.regs with fflags := x &&& 0x1F }) ∧
      (∀ j : Nat, j < 3 → num.val = 21 + j → ∃ r, done r ∧ r.loops.length = w1.regs.loops.length ∧
        ∀ k lv, w1.regs.loops.reverse[k]? = some lv → r.loops.reverse[k]? = some (if k = j then { lv with count := x } else lv)))

/-- R154, R155: a `SETSR` of `sr.sbchk` acts at the commit point; bit 0 of its value turns the checking scoreboard on or off. -/
def Sys2Proof.Claims.SetsrSbchkActsAtTheCommitPoint : Prop :=
  ∀ (h : Hdr) (a : Near) (num : Fin 128) (s : State) (cur : Cur) (w : Warp) (l : Fin 32), num.val = 14 →
    Commits (.setsr h a num) h s cur w → LaneSet.lowest (cur.before.active h cur.lanes) = some l →
    exec (.setsr h a num) s = .next (passOn s cur { w with sbchk := (cur.before.read32 .int a l).getLsbD 0 })

/-- R22, R132, R138, R153 to R155: special registers are read by `GETSR` and written by `SETSR`. The model's own choice or
reading, no rule: log entries 69 and 102: the value of sr.spbase, any here; a SETSR of sr.lcn that crosses counts from the new
value. -/
def Obligations.SpecialRegistersReadAndWritten : Prop :=
  Sys2Proof.Claims.GetsrReadsSpecialRegisters ∧
  Sys2Proof.Claims.SetsrWritesSpecialRegisters ∧
  Sys2Proof.Claims.SetsrSbchkActsAtTheCommitPoint

/-- R132, R143, R148: `SGET`, `SMOV`, `SADD` and `SETTILE` act once for the warp when `active` holds a lane, `SGET` with the value of
its lowest lane; with no lane they have no effect. -/
def Sys2Proof.Claims.WarpScopeWordsActOnce : Prop :=
  ∀ (h : Hdr) (s : State) (cur : Cur) (w w1 : Warp),
    let low := LaneSet.lowest (cur.before.active h cur.lanes)
    let once := fun (i : Instr) (f : Fin 32 → Warp) => exec i s = .next (passOn s cur (match low with | none => w1 | some l => f l))
    (∀ (sd : Fin 32) (a : Near), Opens (.sget h sd a) 0 [] s cur w w1 →
      once (.sget h sd a) fun l => w1.setS sd.val (cur.before.read32 .int a l) 2) ∧
    (∀ sd ss : Fin 32, Opens (.smov h sd ss) 0 [] s cur w w1 →
      once (.smov h sd ss) fun _ => w1.setS sd.val (cur.before.readS ss.val) 2) ∧
    (∀ sd ss : Fin 32, Opens (.sadd h sd ss) 0 [] s cur w w1 →
      once (.sadd h sd ss) fun _ => w1.setS sd.val (cur.before.readS sd.val + cur.before.readS ss.val) 2) ∧
    (∀ n : Fin 8, Opens (.settile h n) 0 [] s cur w w1 →
      once (.settile h n) fun _ => { w1 with regs := { w1.regs with tile := 2 ^ n.val } })

/-! ### Control -/

/-- R106, R108, R136: threads pass from word j to word j + 1, over literal words, and from word 2 to word 0 of the next packet; a
crossing of the innermost level's end goes back to its start while more than one round remains, which it counts down; where the
level is on its last round it closes, and with no further level that ends there the threads fall through. -/
def Obligations.ThreadsPassToTheNextWord : Prop :=
  ∀ (w : Warp) (pc : Pc) (m : LaneSet) (lits : Nat) (l : Fin 32), m[l] = true →
    let w' := w.advance pc m lits
    (pc.word + lits < 2 → (w'.regs.threads[l]).pc = { pc with word := pc.word + 1 + lits } ∧ w'.regs.loops = w.regs.loops) ∧
    (2 ≤ pc.word + lits → (∀ lv ∈ w.regs.loops.head?, lv.stop ≠ pc.packet) →
      (w'.regs.threads[l]).pc = { packet := pc.packet + 1, word := 0 } ∧ w'.regs.loops = w.regs.loops) ∧
    (∀ lv rest, 2 ≤ pc.word + lits → w.regs.loops = lv :: rest → lv.stop = pc.packet → 1 < lv.count.toNat →
      (w'.regs.threads[l]).pc = { packet := lv.start, word := 0 } ∧
      w'.regs.loops = { lv with count := lv.count - 1 } :: rest) ∧
    (∀ lv rest, 2 ≤ pc.word + lits → w.regs.loops = lv :: rest → lv.stop = pc.packet → lv.count.toNat ≤ 1 →
      (∀ up ∈ rest.head?, up.stop ≠ pc.packet) →
      (w'.regs.threads[l]).pc = { packet := pc.packet + 1, word := 0 } ∧ w'.regs.loops = rest)

/-- R134, R106, R117: `BRA`, `CALL`, `RET` and `BRX` send each lane of `active` to word 0 of its target and the other issuing lanes to
the next word; `CALL` leaves the return packet in `q15` and `y`. -/
def Sys2Proof.Claims.BranchesTransferActiveLanes : Prop :=
  ∀ (h : Hdr) (s : State) (cur : Cur) (w w1 : Warp),
    let act := cur.before.active h cur.lanes
    let jump := fun (v : Warp) (f : Fin 32 → Word) => Host.Outcome.next (s.setWarp cur.core cur.slot
      ((v.advance cur.pc (LaneSet.diff cur.lanes act) 0).setPcs act fun l => { packet := f l, word := 0 }))
    let target := fun (off : BitVec 14) => (cur.pc.packet.toNat : Int) + off.toInt
    (∀ off, Opens (.bra h off) 0 [] s cur w w1 → LaneSet.any act = true → 0 ≤ target off → target off < 2 ^ 32 →
      exec (.bra h off) s = jump w1 fun _ => cur.pc.packet + off.signExtend 32) ∧
    (∀ off, Opens (.call h off) 0 [] s cur w w1 → LaneSet.any act = true → 0 ≤ target off → target off < 2 ^ 32 →
      exec (.call h off) s = jump (w1.put32 (.q 15) act (fun _ => cur.pc.packet + 1) 0) fun _ =>
        cur.pc.packet + off.signExtend 32) ∧
    (Opens (.ret h) 0 [] s cur w w1 → exec (.ret h) s = jump w1 fun l => cur.before.readQ 15 l) ∧
    (∀ a, Opens (.brx h a) 0 [] s cur w w1 → exec (.brx h a) s = jump w1 fun l => cur.before.read32 .int a l)

/-- R134, R117, R397: a `BRA` or `CALL` that a lane takes to a packet below 0 or above 2^32 − 1 traps `PROTECTION` at its own word,
with reason 7. -/
def Sys2Proof.Claims.BranchOutsideThePacketsTraps : Prop :=
  ∀ (h : Hdr) (off : BitVec 14) (s : State) (cur : Cur) (w w1 : Warp),
    let act := cur.before.active h cur.lanes
    let target := (cur.pc.packet.toNat : Int) + off.toInt
    LaneSet.any act = true → (target < 0 ∨ 2 ^ 32 ≤ target) →
    ∃ va : DWord,
      let trapped := (s.fresh.setWarp cur.core cur.slot w1).raise cur act
        { kind := .protection, lane := lowLane act, va := va, akind := 3, reason := 7 }
      (Opens (.bra h off) 0 [] s cur w w1 → exec (.bra h off) s = .next trapped) ∧
      (Opens (.call h off) 0 [] s cur w w1 → exec (.call h off) s = .next trapped)

/-- R106, R117, R134, R397: branches transfer their lanes, or trap outside the packets. The model's own choice or reading, no
rule: log entry 16: the address field of that trap is a free value. -/
def Obligations.BranchesTransferOrTrap : Prop :=
  Sys2Proof.Claims.BranchesTransferActiveLanes ∧ Sys2Proof.Claims.BranchOutsideThePacketsTraps

/-- R135: `LOOP` with no lane passes on; with count 0 every issuing lane skips the body; else it opens a level over its body, lanes
of `active` enter it and the others skip it; a fourth level, or a body that ends beyond the innermost one's, traps
`LOOP_NEST`. -/
def Sys2Proof.Claims.LoopOpensALevel : Prop :=
  ∀ (h : Hdr) (sc : Fin 8) (len : Fin 128) (s : State) (cur : Cur) (w w1 : Warp), Opens (.loop h sc len) 0 [] s cur w w1 →
    let act := cur.before.active h cur.lanes
    let c := cur.before.readS sc.val
    let p := cur.pc.packet
    let stop := p + BitVec.ofNat 32 len.val
    let after : Pc := { packet := stop + 1, word := 0 }
    let blocked := 3 ≤ w1.regs.loops.length ∨ ∃ lv ∈ w1.regs.loops.head?, lv.stop.toNat < p.toNat + len.val
    (LaneSet.any act = false → exec (.loop h sc len) s = .next (passOn s cur w1)) ∧
    (LaneSet.any act = true → c = 0 →
      exec (.loop h sc len) s = .next (s.setWarp cur.core cur.slot (w1.setPcs cur.lanes fun _ => after))) ∧
    (LaneSet.any act = true → c ≠ 0 → blocked → exec (.loop h sc len) s =
      .next ((s.setWarp cur.core cur.slot w1).raise cur act { kind := .loopNest, lane := lowLane act })) ∧
    (LaneSet.any act = true → c ≠ 0 → ¬blocked → ∃ v, exec (.loop h sc len) s = .next (s.setWarp cur.core cur.slot v) ∧
      v.regs.loops = { start := p + 1, stop := stop, count := c } :: w1.regs.loops ∧
      (∀ l : Fin 32, act[l] = true → (v.regs.threads[l]).pc = { packet := p + 1, word := 0 }) ∧
      ∀ l : Fin 32, cur.lanes[l] = true → act[l] = false → (v.regs.threads[l]).pc = after)

/-- R137: `BREAK` with no level open traps `LOOP_NEST`; else it closes the innermost level and the lanes of `active` go on behind
its end packet. -/
def Sys2Proof.Claims.BreakClosesTheInnermostLevel : Prop :=
  ∀ (h : Hdr) (s : State) (cur : Cur) (w w1 : Warp), Opens (.breakLevel h) 0 [] s cur w w1 →
    let act := cur.before.active h cur.lanes
    (w1.regs.loops = [] → exec (.breakLevel h) s =
      .next ((s.setWarp cur.core cur.slot w1).raise cur act { kind := .loopNest, lane := lowLane act })) ∧
    (∀ lv rest, w1.regs.loops = lv :: rest → LaneSet.any act = false → exec (.breakLevel h) s = .next (passOn s cur w1)) ∧
    (∀ lv rest, w1.regs.loops = lv :: rest → LaneSet.any act = true →
      exec (.breakLevel h) s = .next (s.setWarp cur.core cur.slot
        (({ w1 with regs := { w1.regs with loops := rest } }.advance cur.pc (LaneSet.diff cur.lanes act) 0).setPcs act
          fun _ => { packet := lv.stop + 1, word := 0 })))

/-- R135, R137: `LOOP` opens a level, `BREAK` closes the innermost. The model's own choice or reading, no rule: log entry 55: a
BREAK with no level traps whatever its guard. -/
def Obligations.LoopLevelsOpenAndClose : Prop :=
  Sys2Proof.Claims.LoopOpensALevel ∧ Sys2Proof.Claims.BreakClosesTheInnermostLevel

/-- R139, R42, R244, R20: `BHEAD` branches when the core's allowance toward the peer is below the headwind mark, `MOVSA` writes
the allowance to d; both place the core in the peer's allowance set. The own device reads 4,095, an absent one 0. The model's
own choice or reading, no rule: log entry 41: the mark is the register DX_HWM, and the own device reads 4,095. -/
def Obligations.HeadwindIsAllowanceBelowTheMark : Prop :=
  ∀ (h : Hdr) (peer : Fin 16) (s : State) (cur : Cur) (w w1 : Warp),
    let act := cur.before.active h cur.lanes
    let allowance := s.allowance cur.core peer.val
    let target := fun (off : BitVec 10) => (cur.pc.packet.toNat : Int) + off.toInt
    let noted := s.addInterest cur.core peer.val
    (peer.val = s.self → allowance = 4095) ∧
    (peer.val ≠ s.self → s.present.getLsbD peer.val = false → allowance = 0) ∧
    (∀ off, Opens (.bhead h peer off) 0 [] s cur w w1 → LaneSet.any act = true → s.hwmark cur.core ≤ allowance →
      exec (.bhead h peer off) s = .next (passOn noted cur w1)) ∧
    (∀ off, Opens (.bhead h peer off) 0 [] s cur w w1 → LaneSet.any act = true → allowance < s.hwmark cur.core →
      0 ≤ target off → target off < 2 ^ 32 →
      exec (.bhead h peer off) s = .next (noted.setWarp cur.core cur.slot
        ((w1.advance cur.pc (LaneSet.diff cur.lanes act) 0).setPcs act
          fun _ => { packet := cur.pc.packet + off.signExtend 32, word := 0 }))) ∧
    (∀ d, Opens (.movsa h d peer) 0 [] s cur w w1 → LaneSet.any act = true →
      exec (.movsa h d peer) s = .next (passOn noted cur (w1.put32 d act (fun _ => BitVec.ofNat 32 allowance) 2)))

/-- R140, R142: `NOP` only passes on; `YIELD` changes no register: it marks the threads that yielded and the clock that follows. -/
def Sys2Proof.Claims.NopAndYieldChangeNoRegister : Prop :=
  ∀ (h : Hdr) (s : State) (cur : Cur) (w w1 : Warp),
    let act := cur.before.active h cur.lanes
    (Opens (.nop h) 0 [] s cur w w1 → exec (.nop h) s = .next (passOn s cur w1)) ∧
    (Opens (.yield h) 0 [] s cur w w1 → exec (.yield h) s = .next (passOn s cur
      (if LaneSet.any act then { w1 with yielded := act, yieldClock := true } else w1)))

/-- R132, R140, R142, R143, R148: warp-scope words act once; `NOP` and `YIELD` change no register. -/
def Obligations.WarpScopeWordsAndHints : Prop :=
  Sys2Proof.Claims.WarpScopeWordsActOnce ∧ Sys2Proof.Claims.NopAndYieldChangeNoRegister

/-! ### Loads, stores, atomics -/

namespace Sys2Proof.Claims

/-- A memory word: d or the data, the base, the offset. -/
abbrev MemWord := Hdr → Near → Near → BitVec 6 → Instr

/-- A load or store: its word, its bytes, whether the base is a scratchpad offset, what it may reach (R183, R184). -/
structure MemForm where
  word : MemWord
  bytes : Nat
  pad : Bool := false
  reach : Accepts := { mmio := false, host := true }

/-- 4 and 8 bytes may reach registers and host MMIO (R184). -/
def anywhere : Accepts := { mmio := true, host := true }

/-- The load words (R183, R187). -/
def loads : List MemForm :=
  [{ word := .ldB32, bytes := 4, reach := anywhere }, { word := .ldB64, bytes := 8, reach := anywhere },
   { word := .ldB128, bytes := 16 }, { word := .ldB16, bytes := 2 }, { word := .ldB8, bytes := 1 },
   { word := .ldnB32, bytes := 4 }, { word := .ldsB32, bytes := 4, pad := true }, { word := .ldsB64, bytes := 8, pad := true }]

/-- The store words (R183). -/
def stores : List MemForm :=
  [{ word := .stB32, bytes := 4, reach := anywhere }, { word := .stB64, bytes := 8, reach := anywhere },
   { word := .stB128, bytes := 16 }, { word := .stB16, bytes := 2 }, { word := .stB8, bytes := 1 },
   { word := .stsB32, bytes := 4, pad := true }, { word := .stsB64, bytes := 8, pad := true }]

/-- The address of a lane (R115): base + offset × size, modulo 2^64, or an exact scratchpad offset. -/
def MemForm.va (r : MemForm) (base : Near) (off : BitVec 6) (before : Warp) (l : Fin 32) : DWord :=
  if r.pad then BitVec.ofInt 64 ((before.read32 .int base l).toNat + off.toInt * r.bytes)
  else before.read64 base l + BitVec.ofInt 64 (off.toInt * r.bytes)

/-- The location of a lane's access, or why it fails (R181). -/
def MemForm.loc (r : MemForm) (k : Access) (base : Near) (off : BitVec 6) (s : State) (w before : Warp) (core : Nat) (l : Fin 32) :
    Except Cause Loc :=
  if r.pad then s.offsetLoc w core r.bytes r.bytes ((before.read32 .int base l).toNat + off.toInt * r.bytes)
  else s.globalLoc w core r.reach k r.bytes (r.va base off before l)

/-- The data of a store: the low bytes of d and its successors (R183). -/
def MemForm.data (r : MemForm) (d : Near) (before : Warp) (l : Fin 32) : List Byte :=
  bytesLE r.bytes (if r.bytes = 16 then (before.read128 d l).toNat
    else if r.bytes = 8 then (before.read64 d l).toNat else (before.read32 .int d l).toNat)

/-- The lanes of `act` in ascending order whose access touches no guard granule (R76). -/
def untouched (s : State) (w : Warp) (act : LaneSet) (f : Fin 32 → Loc) (n : Nat) : List (Fin 32) :=
  (LaneSet.list act).filter fun l => (s.touch w (f l) n).isNone

end Sys2Proof.Claims

/-- R183, R182, R78, R76, R322: a load whose lanes' locations are memory that may be read now, for whose lines the L1 has a way,
writes each lane's bytes, zero-extended, to d and its successors and shifts them into `y`; it sees the warp's own buffered
stores; a guard granule gives 0. Memory, predicates, uniform registers, `v` registers and the other `q` registers stay. The
model's own choice or reading, no rule: log entry 12: loaded values are there at the minimum latencies; log entry 5: an unlisted
byte reads 0. -/
def Obligations.LoadsWriteTheirBytes : Prop :=
  ∀ r ∈ loads, ∀ (h : Hdr) (d base : Near) (off : BitVec 6) (s : State) (cur : Cur) (w w1 : Warp) (f : Fin 32 → Loc),
    let act := cur.before.active h cur.lanes
    let n := r.bytes
    let value := fun (l : Fin 32) => if (s.touch w1 (f l) n).isSome then 0 else leNat (s.loadBytes w1 (f l) n)
    let regs := max 1 (n / 4)
    Opens (r.word h d base off) 1 [] s cur w w1 → w1.steadyBusy = false →
    s.noWay cur.core (lineNos ((LaneSet.list act).flatMap fun l => (f l).grans n)) = none →
    (∀ l : Fin 32, act[l] = true →
      r.loc .read base off s w cur.before cur.core l = .ok (f l) ∧ (f l).isIo = false ∧ s.readable (f l) = true) →
    ∃ (t : State) (v : Warp), exec (r.word h d base off) s = .next t ∧ t.warp cur.core cur.slot = some v ∧
      t.mem = s.mem ∧ t.scratch = s.scratch ∧ v.v = w1.v ∧ v.regs.p = w1.regs.p ∧ v.regs.s = w1.regs.s ∧
      (∀ (l : Fin 32) (k : Nat), k < regs → (v.regs.qRow (nearReg d + k))[l] =
        if act[l] then BitVec.ofNat 32 (value l / 2 ^ (32 * k)) else (w1.regs.qRow (nearReg d + k))[l]) ∧
      (∀ k : Nat, (k < nearReg d ∨ nearReg d + regs ≤ k) → v.regs.qRow k = w1.regs.qRow k) ∧
      ∀ l : Fin 32, act[l] = true → ((v.regs.y[l])[0]?).map (·.val) = some (BitVec.ofNat 64 (value l))

/-- R181, R394, R397: an access that fails in some lane traps at the lowest such lane and takes no effect: `MISALIGNED` where the
address is no multiple of the size, `PROTECTION` reason 0 from 2^57 up and reason 1 beyond the scratchpad, and what the
translation finds. Where a line of a page table is not here, the word waits for it (R403). -/
def Obligations.FaultingAccessTrapsAtTheLowestLane : Prop :=
  ∀ (h : Hdr) (d base : Near) (off : BitVec 6) (s : State) (cur : Cur) (w w1 : Warp) (l : Fin 32) (c : Cause),
    let act := cur.before.active h cur.lanes
    let fails := fun (r : MemForm) (k : Access) => act[l] = true ∧ r.loc k base off s w cur.before cur.core l = .error c ∧
      ∀ j : Fin 32, j < l → act[j] = true → ∃ loc, r.loc k base off s w cur.before cur.core j = .ok loc
    let trapped := fun (r : MemForm) (k : Access) =>
      let raised := fun (t : Trap) => Host.Outcome.next ((s.setWarp cur.core cur.slot w1).raise cur act
        { t with lane := l.val, va := r.va base off cur.before l, akind := k.code })
      match c with
      | .misaligned => raised { kind := .misaligned }
      | .pageFault => raised { kind := .pageFault }
      | .protection x => raised { kind := .protection, reason := x }
      | .poison => raised { kind := .softError }
      | .table pa => .next { s with cur := some { cur with ended := .table pa } }
    (∀ r ∈ loads, Opens (r.word h d base off) 1 [] s cur w w1 → w1.steadyBusy = false → fails r .read →
      exec (r.word h d base off) s = trapped r .read) ∧
    (∀ r ∈ stores, Opens (r.word h d base off) 1 [] s cur w w1 → w1.steadyBusy = false → fails r .write →
      exec (r.word h d base off) s = trapped r .write) ∧
    (∀ r ∈ loads ++ stores, ∀ k : Access,
      let va := (r.va base off cur.before l).toNat
      let o := (cur.before.read32 .int base l).toNat + off.toInt * r.bytes
      let loc := r.loc k base off s w cur.before cur.core l
      let aperture := s.spbase.toNat ≤ va ∧ va < s.spbase.toNat + 2 ^ 20
      (r.pad = false → 2 ^ 57 ≤ va → loc = .error (.protection 0)) ∧
      (r.pad = false → va < 2 ^ 57 → aperture → s.spbase.toNat + s.padSize w < va + r.bytes → loc = .error (.protection 1)) ∧
      (r.pad = false → va < 2 ^ 57 → ¬(aperture ∧ s.spbase.toNat + s.padSize w < va + r.bytes) → va % r.bytes ≠ 0 →
        loc = .error .misaligned) ∧
      (r.pad = true → (o < 0 ∨ (s.padSize w : Int) < o + r.bytes) → loc = .error (.protection 1)) ∧
      (r.pad = true → 0 ≤ o → o + r.bytes ≤ (s.padSize w : Int) → o % r.bytes ≠ 0 → loc = .error .misaligned))

/-- R183, R185, R76, R322: a store whose lanes' locations are memory that may be written now, for whose lines the L1 has a way, buffers each lane's bytes in the open window,
lanes ascending, but for those that touch a guard granule; memory and every register stay. -/
def Sys2Proof.Claims.StoresAreBuffered : Prop :=
  ∀ r ∈ stores, ∀ (h : Hdr) (d base : Near) (off : BitVec 6) (s : State) (cur : Cur) (w w1 : Warp) (f : Fin 32 → Loc),
    let act := cur.before.active h cur.lanes
    let new := (untouched s w act f r.bytes).map fun l => (f l, r.data d cur.before l)
    Opens (r.word h d base off) 1 [] s cur w w1 → w1.steadyBusy = false →
    s.noWay cur.core (lineNos ((LaneSet.list act).flatMap fun l => (f l).grans r.bytes)) = none →
    (∀ l : Fin 32, act[l] = true →
      r.loc .write base off s w cur.before cur.core l = .ok (f l) ∧ (f l).isIo = false ∧ s.writable (f l) = true) →
    ∃ (t : State) (v : Warp), exec (r.word h d base off) s = .next t ∧ t.warp cur.core cur.slot = some v ∧
      t.mem = s.mem ∧ t.scratch = s.scratch ∧ v.v = w1.v ∧ v.regs.q = w1.regs.q ∧ v.regs.y = w1.regs.y ∧ v.regs.p = w1.regs.p ∧
      v.regs.s = w1.regs.s ∧
      v.windows.map (fun x => x.stores.map fun e => (e.loc, e.data)) =
        w1.windows.map fun x => x.stores.map (fun e => (e.loc, e.data)) ++ if x.isClosed then [] else new

/-- R323, R324, R78: the oldest window of a warp, closed, with its loads released, its store lines writable in the core's L1 and its
updates acknowledged, commits: its stores reach memory in program order (while no dirty map is on, R441), and the window is gone.
A trap that waits for the commit has its own statement; the window of a pair whose second word is irrevocable commits in the step
in which that word acts (R107). -/
def Sys2Proof.Claims.CommitPerformsTheStoresInOrder : Prop :=
  ∀ (core slot : Nat) (s : State) (w : Warp) (x : Window) (rest : List Window),
    s.warp core slot = some w → w.windows = x :: rest → x.isClosed = true → w.released x.serial = true →
    w.atomsOut = false → s.unwritable core x = none → s.tableMissing x = none → x.synced = true → w.pending = none → w.inPair = false →
    (∀ y ∈ rest, ∀ e ∈ x.heldLines s.self, .line e.1 ∉ y.reads) →
    (∀ n : Nat, n < 4 → (s.reg (0x2600 + 16 * n) 0).toNat % 2 = 0) →
    ∃ t, exec (.windowCommit core slot) s = .next t ∧
      t.mem = (x.stores.foldl (fun u e => u.putBytes e.loc e.data) s).mem ∧
      t.scratch = (x.stores.foldl (fun u e => u.putBytes e.loc e.data) s).scratch ∧
      ∃ v, t.warp core slot = some v ∧ v.windows.map (·.serial) = rest.map (·.serial) ∧ v.regs.q = w.regs.q ∧ v.v = w.v

/-- R183, R185, R323, R324: stores are buffered, and a commit performs them in order. -/
def Obligations.StoresWaitForTheirCommit : Prop :=
  Sys2Proof.Claims.StoresAreBuffered ∧ Sys2Proof.Claims.CommitPerformsTheStoresInOrder

/-- R325 to R327, R320: a trigger that hits a granule in the read set of a window discards that window and the later ones, restores
its checkpoint and the shadowed `v` rows, oldest last, counts the rollback, and changes no memory. -/
def Sys2Proof.Claims.RollbackRestoresTheCheckpoint : Prop :=
  ∀ (core slot : Nat) (g : Gran) (s : State) (w : Warp) (x : Window),
    s.warp core slot = some w → w.windows.find? (fun x => x.reads.contains g) = some x →
    (∀ y ∈ w.windows, y.serial = x.serial → y = x) →
    ∃ t v, exec (.rollback core slot g) s = .next t ∧ t.warp core slot = some v ∧ t.mem = s.mem ∧ t.scratch = s.scratch ∧
      v.regs = x.ck ∧ v.windows = w.windows.filter (fun y => y.serial < x.serial) ∧ v.rollbacks = w.rollbacks + 1 ∧
      v.v = ((w.windows.filter fun y => x.serial ≤ y.serial).reverse.foldl
        (fun rows y => y.vOld.foldl (fun m e => SMap.put m e.1 e.2) rows) w.v) ∧
      v.pending = none ∧ ∀ ld ∈ v.loads, ld.win < x.serial

/-- R180, R320, R325 to R327: shadows keep old rows, and a rollback restores checkpoint and rows. -/
def Obligations.WindowsRollBackToTheirCheckpoint : Prop :=
  Sys2Proof.Claims.FirstWriteShadowsTheOldRow ∧ Sys2Proof.Claims.RollbackRestoresTheCheckpoint

namespace Sys2Proof.Claims

/-- A read-modify-write: its word, its bytes by m, the new value by m, old and x, and where it is performed beside own memory (R193 to
R198). -/
structure AtomForm where
  word : Hdr → Near → Fin 16 → Fin 8 → Instr
  bytes : Nat → Nat
  new : Nat → Nat → Nat → Nat
  peer : Nat → Bool
  host : Nat → Bool

/-- 4 bytes, or 8 for a form m. -/
def wide (m : Nat) (k : Nat) : Nat := if m = k then 8 else 4

/-- The smaller or larger by m (R193): 0 signed and 1 unsigned 32-bit, 2 signed and 3 unsigned 64-bit; old on a tie. -/
def pick (max : Bool) (m old x : Nat) : Nat :=
  let s := fun (y : Nat) => if m = 0 then (BitVec.ofNat 32 y).toInt else if m = 2 then (BitVec.ofNat 64 y).toInt else (y : Int)
  if max then (if s old < s x then x else old) else if s x < s old then x else old

/-- Elementwise `FMIN` or `FMAX` by m (R195). -/
def pickFloat (max : Bool) (m old x : Nat) : Nat :=
  let two := fun (fm : Fmt) => fm.minMax max (old % 2 ^ 16) (x % 2 ^ 16) +
    fm.minMax max (old / 2 ^ 16 % 2 ^ 16) (x / 2 ^ 16 % 2 ^ 16) * 2 ^ 16
  if m = 0 then fp32.minMax max old x else if m = 1 then two fp16 else if m = 2 then two bf16 else fp64.minMax max old x

/-- `ATOM.iadd`. -/
def iaddForm : AtomForm :=
  { word := .atomIadd, bytes := (wide · 1), new := fun m old x => (old + x) % 2 ^ (8 * wide m 1), peer := fun _ => true, host := fun _ => true }
/-- `ATOM.imin`. -/
def iminForm : AtomForm :=
  { word := .atomImin, bytes := fun m => if m < 2 then 4 else 8, new := pick false, peer := fun _ => true, host := fun _ => false }
/-- `ATOM.imax`. -/
def imaxForm : AtomForm :=
  { word := .atomImax, bytes := fun m => if m < 2 then 4 else 8, new := pick true, peer := fun _ => true, host := fun _ => false }
/-- `ATOM.logic`. -/
def logicForm : AtomForm :=
  { word := .atomLogic, bytes := fun m => if m % 2 = 1 then 8 else 4
    new := fun m old x => if m / 2 = 0 then old &&& x else if m / 2 = 1 then old ||| x else old ^^^ x
    peer := fun _ => true, host := fun _ => true }
/-- `ATOM.xchg`. -/
def xchgForm : AtomForm :=
  { word := .atomXchg, bytes := (wide · 1), new := fun _ _ x => x, peer := fun _ => true, host := fun _ => true }
/-- `ATOM.fmin`. -/
def fminForm : AtomForm :=
  { word := .atomFmin, bytes := (wide · 3), new := pickFloat false, peer := fun m => m == 0 || m == 3, host := fun _ => false }
/-- `ATOM.fmax`. -/
def fmaxForm : AtomForm :=
  { word := .atomFmax, bytes := (wide · 3), new := pickFloat true, peer := fun m => m == 0 || m == 3, host := fun _ => false }

/-- The `ATOM` forms. -/
def atomForms : List AtomForm := [iaddForm, iminForm, imaxForm, logicForm, xchgForm, fminForm, fmaxForm]

/-- The form of `CAS` (R196, R198): its new value depends on two operands. -/
def casForm : AtomForm :=
  { word := .cas, bytes := fun m => if m = 0 then 4 else if m = 1 then 8 else 16, new := fun _ old _ => old
    peer := fun m => m < 2, host := fun m => m < 2 }

/-- The bytes of memory after the operations of some lanes, in the order of the list: `op` gives the new value, or none to write
nothing. -/
def afterLanes (n : Nat) (op : Fin 32 → Nat → Option Nat) (f : Fin 32 → Loc) (s : State) (ls : List (Fin 32)) : State :=
  ls.foldl (fun u l => match op l (leNat (u.bytesAt (f l) n)) with
    | none => u
    | some x => u.putBytes (f l) (bytesLE n x)) s

/-- The new value of a `CAS`: the second half of d's registers where the first half equals old (R196). -/
def casNew (n : Nat) (d : Near) (before : Warp) (l : Fin 32) (old : Nat) : Option Nat :=
  let part := fun (k : Nat) => if n = 4 then (before.readAt d k l).toNat
    else if n = 8 then (before.readAt d (k + 1) l ++ before.readAt d k l).toNat
    else (before.readAt d (k + 3) l ++ before.readAt d (k + 2) l ++ (before.readAt d (k + 1) l ++ before.readAt d k l)).toNat
  if old = part 0 then some (part (n / 4)) else none

/-- The lanes of a list by their addresses (R80, R194): ascending, but lanes that name one address stand together. -/
def byAddress (f : Fin 32 → Loc) (ls : List (Fin 32)) : List (Fin 32) :=
  ((ls.map f).eraseDups).flatMap fun loc => ls.filter fun l => f l == loc

/-- Every lane of `act` names by `f` own memory, or host memory where the form may go there, that may be read and written now, with a way
for it in the L1 (R322), and touches no guard granule; lanes on one line of a SYNC page name one address (others would wait for its
update, R415). No dirty map is on (R441). -/
def AtomsReady (n : Nat) (host : Bool) (a : Fin 16) (act : LaneSet) (s : State) (cur : Cur) (w : Warp) (f : Fin 32 → Loc) : Prop :=
  (∀ k : Nat, k < 4 → (s.reg (0x2600 + 16 * k) 0).toNat % 2 = 0) ∧
  ∀ l : Fin 32, act[l] = true →
    s.globalLoc w cur.core { mmio := false, host := true } .rmw n (cur.before.read64 (.q a) l) = .ok (f l) ∧
    (s.atomTarget (f l) = .own ∨ (s.atomTarget (f l) = .host ∧ host = true)) ∧
    s.atomReady cur.core (f l) = true ∧ s.touch w (f l) n = none ∧
    (s.isSync cur.core w.ctx (cur.before.read64 (.q a) l).toNat (f l) = true →
      ∀ j : Fin 32, act[j] = true → (f j).gran = (f l).gran → f j = f l)

/-- The state `t` after an atomic word of `n` bytes: each lane's operation has acted on what the lanes before it left, in ascending
order but with the lanes of one address together, and d holds the old values. -/
def AtomsActed (n : Nat) (op : Fin 32 → Nat → Option Nat) (d : Near) (act : LaneSet) (s : State) (cur : Cur) (w : Warp)
    (f : Fin 32 → Loc) (t : State) : Prop :=
  let order := byAddress f (LaneSet.list act)
  ∃ v : Warp, t.warp cur.core cur.slot = some v ∧
    t.mem = (afterLanes n op f s order).mem ∧ t.scratch = (afterLanes n op f s order).scratch ∧
    v.v = w.v ∧ v.regs.p = w.regs.p ∧ v.regs.s = w.regs.s ∧
    (∀ (l : Fin 32) (k : Nat), k < n / 4 → (v.regs.qRow (nearReg d + k))[l] =
      if act[l] then BitVec.ofNat 32
        (leNat ((afterLanes n op f s (order.takeWhile fun j => j != l)).bytesAt (f l) n) / 2 ^ (32 * k))
      else (w.regs.qRow (nearReg d + k))[l]) ∧
    ∀ k : Nat, (k < nearReg d ∨ nearReg d + n / 4 ≤ k) → v.regs.qRow k = w.regs.qRow k

end Sys2Proof.Claims

/-- R192 to R196, R80, R198: at the commit point each of `ATOM.iadd`, `.imin`, `.imax`, `.logic`, `.xchg`, `.fmin`, `.fmax` and
`CAS` on own or host memory that may be accessed now COMPLETES: it answers a next state, in which each lane's location has been
read and written in ascending lane order and d holds the old values; toward one line of a peer, for which the core has
allowance, the lanes go to its home in one request, and d waits for their old values; where hardware does not perform the form
on a lane's target the word traps `ATOMIC_EMULATE` at the lowest such lane. The model's own choice or reading, no rule: log
entry 52: the lane operations of one word are one step. -/
def Obligations.AtomicsActInLaneOrder : Prop :=
  ∀ (h : Hdr) (d : Near) (a : Fin 16) (m : Fin 8) (s : State) (cur : Cur) (w : Warp),
    let act := cur.before.active h cur.lanes
    let arg := fun (n : Nat) (l : Fin 32) => if n = 8 then (cur.before.read64 d l).toNat else (cur.before.read32 .int d l).toNat
    let may := fun (r : Claims.AtomForm) (f : Fin 32 → Loc) => AtomsReady (r.bytes m.val) (r.host m.val) a act s cur w f
    let acted := fun (r : Claims.AtomForm) (f : Fin 32 → Loc) (t : State) =>
      AtomsActed (r.bytes m.val) (fun l old => some (r.new m.val old (arg (r.bytes m.val) l))) d act s cur w f t
    (∀ f, Commits (.atomIadd h d a m) h s cur w → may iaddForm f → ∃ t, exec (.atomIadd h d a m) s = .next t ∧ acted iaddForm f t) ∧
    (∀ f, Commits (.atomImin h d a m) h s cur w → may iminForm f → ∃ t, exec (.atomImin h d a m) s = .next t ∧ acted iminForm f t) ∧
    (∀ f, Commits (.atomImax h d a m) h s cur w → may imaxForm f → ∃ t, exec (.atomImax h d a m) s = .next t ∧ acted imaxForm f t) ∧
    (∀ f, Commits (.atomLogic h d a m) h s cur w → may logicForm f →
      ∃ t, exec (.atomLogic h d a m) s = .next t ∧ acted logicForm f t) ∧
    (∀ f, Commits (.atomXchg h d a m) h s cur w → may xchgForm f → ∃ t, exec (.atomXchg h d a m) s = .next t ∧ acted xchgForm f t) ∧
    (∀ f, Commits (.atomFmin h d a m) h s cur w → may fminForm f → ∃ t, exec (.atomFmin h d a m) s = .next t ∧ acted fminForm f t) ∧
    (∀ f, Commits (.atomFmax h d a m) h s cur w → may fmaxForm f → ∃ t, exec (.atomFmax h d a m) s = .next t ∧ acted fmaxForm f t) ∧
    (∀ f, Commits (.cas h d a m) h s cur w → may casForm f →
      ∃ t, exec (.cas h d a m) s = .next t ∧
        AtomsActed (casForm.bytes m.val) (casNew (casForm.bytes m.val) d cur.before) d act s cur w f t) ∧
    (∀ r ∈ casForm :: atomForms, ∀ (f : Fin 32 → Loc) (l : Fin 32), Commits (r.word h d a m) h s cur w →
      let refused := fun (j : Fin 32) => (s.atomTarget (f j) = .peer ∧ r.peer m.val = false) ∨
        (s.atomTarget (f j) = .host ∧ r.host m.val = false)
      (∀ j : Fin 32, act[j] = true → s.globalLoc w cur.core { mmio := false, host := true } .rmw (r.bytes m.val)
        (cur.before.read64 (.q a) j) = .ok (f j)) →
      act[l] = true → refused l → (∀ j : Fin 32, j < l → act[j] = true → ¬refused j) →
      exec (r.word h d a m) s = .next ((s.setWarp cur.core cur.slot w).raise cur act
        { kind := .atomicEmulate, lane := l.val, va := cur.before.read64 (.q a) l, akind := 2 })) ∧
    (∀ r ∈ casForm :: atomForms, ∀ (f : Fin 32 → Loc) (line : Nat), Commits (r.word h d a m) h s cur w → r.peer m.val = true →
      (∃ l : Fin 32, act[l] = true) →
      (∀ l : Fin 32, act[l] = true → (∃ pa : Nat, f l = .mem pa ∧ pa / 128 = line) ∧ s.atomTarget (f l) = .peer ∧
        s.globalLoc w cur.core { mmio := false, host := true } .rmw (r.bytes m.val) (cur.before.read64 (.q a) l) = .ok (f l)) →
      let dev := line / 2 ^ 41
      s.busyLine line = false → s.allowance cur.core dev ≠ 0 →
      ∃ (t : State) (v : Warp), exec (r.word h d a m) s = .next t ∧ t.warp cur.core cur.slot = some v ∧
        t.mem = s.mem ∧ t.scratch = s.scratch ∧ line ∈ t.away ∧
        SMap.getD (t.core cur.core).sa dev 0 + 1 = SMap.getD (s.core cur.core).sa dev 0 ∧
        ∃ ld ∈ v.loads, ld.lanes = act ∧ ld.regs = (List.range (r.bytes m.val / 4)).map (nearReg d + ·) ∧
          ld.kind = .remote (r.bytes m.val) (LaneSet.list act).length [])

/-- R188 to R191: `PREF` changes no register and no byte of memory. `SALLOC` gives every lane of `active` the lowest place of
the heap that fits the size rounded up to 64 with its two guard granules, 64 above the block's start there, or all ones; `SFREE`
frees the allocation at its offset and traps `PROTECTION` reason 6 where there is none. The model's own choice or reading, no
rule: log entry 16: the access kind of the SFREE trap is a free value. -/
def Obligations.ScratchpadHeapWords : Prop :=
  ∀ (h : Hdr) (d a : Near) (s : State) (cur : Cur) (w w1 : Warp) (b : Block) (l : Fin 32),
    let act := cur.before.active h cur.lanes
    let x := (cur.before.read32 .int a l).toNat
    let z := (x + 63) / 64 * 64
    let free := fun (p : Nat) => b.hstatic ≤ p ∧ p + z + 128 ≤ b.size ∧
      ∀ q ∈ b.allocs, p + z + 128 ≤ q.1 ∨ q.1 + q.2 + 128 ≤ p
    (∀ (count : Fin 32) (hint : Fin 4), Opens (.pref h a count hint) 0 [] s cur w w1 →
      ∃ t, exec (.pref h a count hint) s = .next t ∧ t.warp cur.core cur.slot = some (w1.advance cur.pc cur.lanes 0) ∧
        t.mem = s.mem ∧ t.scratch = s.scratch) ∧
    (Commits (.salloc h d a) h s cur w → LaneSet.lowest act = some l → SMap.get? s.blocks w.block = some b →
      ∃ (t : State) (v : Warp) (allocs : List (Nat × Nat)) (r : Word), exec (.salloc h d a) s = .next t ∧
        t.warp cur.core cur.slot = some v ∧ SMap.get? t.blocks w.block = some { b with allocs := allocs } ∧
        t.mem = s.mem ∧ t.scratch = s.scratch ∧
        (∀ j : Fin 32, (v.regs.qRow (nearReg d))[j] = if act[j] then r else (w.regs.qRow (nearReg d))[j]) ∧
        ((x = 0 ∨ ∀ p, ¬free p) → r = 0xFFFFFFFF ∧ allocs = b.allocs) ∧
        (x ≠ 0 → (∃ p, 64 ∣ p ∧ free p) → ∃ p, free p ∧ (∀ q, 64 ∣ q → free q → p ≤ q) ∧ r = BitVec.ofNat 32 (p + 64) ∧
          allocs = b.allocs ++ [(p, z)])) ∧
    (Commits (.sfree h a) h s cur w → LaneSet.lowest act = some l → SMap.get? s.blocks w.block = some b →
      ((∃ q ∈ b.allocs, q.1 + 64 = x) → exec (.sfree h a) s = .next (passOn
        { s with blocks := SMap.put s.blocks w.block { b with allocs := b.allocs.filter fun q => q.1 + 64 != x } } cur w)) ∧
      ((∀ q ∈ b.allocs, q.1 + 64 ≠ x) → ∃ k, exec (.sfree h a) s = .next ((s.fresh.setWarp cur.core cur.slot w).raise cur act
        { kind := .protection, lane := l.val, va := BitVec.ofNat 64 x, akind := k, reason := 6 })))

/-! ### Warps that meet and end -/

/-- R206 to R208, R76: `BAR` in its order of checks: an undeclared level traps `BARRIER_LEVEL`; a recorded guard touch traps; `.wait`
without an arrival, or a mask outside its range or without the member, traps `BARRIER_MASK`. Otherwise the members join the open
instance of their mask, or a new one, which no other open instance may overlap; the lanes of a `.sync` wait there, an `.arrive` goes
on with its marks, a `.wait` on a completed instance goes on without them. A member that still owes a `.wait` may not arrive
again. -/
def Sys2Proof.Claims.BarJoinsItsInstance : Prop :=
  ∀ (h : Hdr) (level : Fin 8) (n : Fin 32) (mode : Fin 4) (s : State) (cur : Cur) (w : Warp),
    Commits (.bar h level n mode) h s cur w →
    let i := Instr.bar h level n mode
    let act := cur.before.active h cur.lanes
    let lv := level.val
    let mask := (cur.before.readS n.val).toNat + if lv = 2 then (cur.before.readS (n.val + 1)).toNat * 2 ^ 32 else 0
    let declared := s.recordField w.launch (841 + lv) 1 = 1
    let marks := fun (p : Option BarMark → Prop) => ∀ l ∈ markLanes lv act, p (w.barMark lv l)
    let trapped := fun (w : Warp) (t : Trap) => exec i s = .next ((s.setWarp cur.core cur.slot w).raise cur act t)
    let badMask : Trap := { kind := .barrierMask, aux := lv, lane := lowLane act }
    (¬declared → trapped w { kind := .barrierLevel, aux := lv, lane := lowLane act }) ∧
    (∀ g, declared → w.guard = some g → trapped { w with guard := none }
      { kind := .guardTouch, aux := g.bank, pattern := BitVec.ofNat 32 g.offset, count := g.count, lane := lowLane act }) ∧
    (declared → w.guard = none →
      (mode.val = 2 → marks (· = none) → trapped w badMask) ∧
      (mode.val = 2 → marks (· = some .completed) → exec i s = .next (passOn s cur (w.dropMarks lv act))) ∧
      (∀ l, mode.val ≠ 2 → s.barMaskBad w cur.core lv mask act = some l → trapped w { badMask with lane := l }) ∧
      (∀ l, mode.val ≠ 2 → s.barMaskBad w cur.core lv mask act = none →
        ((markLanes lv act).find? fun l => (w.barMark lv l).isSome) = some l →
        trapped (w.dropPoison lv act) { badMask with lane := l }) ∧
      (mode.val ≠ 2 → s.barMaskBad w cur.core lv mask act = none → marks (· = none) →
        (∀ e ∈ s.openBars lv (barGroup lv cur.core w) w.launch, e.2.mask = mask ∨ e.2.mask &&& mask = 0) →
        (lv = 6 → ∀ m ∈ s.farMasks w.launch, m = mask ∨ m &&& mask = 0) →
        ∃ (t : State) (v : Warp) (k : Nat) (b : BarInst), exec i s = .next t ∧ t.warp cur.core cur.slot = some v ∧
          SMap.get? t.bars k = some b ∧ b.level = lv ∧ b.mask = mask ∧ b.group = barGroup lv cur.core w ∧ b.launch = w.launch ∧
          (∀ m ∈ barMembers lv w act, m ∈ b.arrived) ∧
          (mode.val = 0 → ∃ x ∈ v.barred, x.inst = some k ∧ x.pc = cur.pc ∧ x.lanes = act ∧
            ∀ l : Fin 32, act[l] = true → (v.regs.threads[l]).pc = (w.regs.threads[l]).pc) ∧
          (mode.val = 1 → ∀ l ∈ markLanes lv act, v.barMark lv l = some (.joined k))))

/-- R207, R209: an instance at which every member has arrived or exited completes: it is gone, no warp waits at it any more, and the
lanes that waited there pass their `BAR`, each other lane staying where it is (while no context record holds saved warps, whose marks
change with it). -/
def Sys2Proof.Claims.BarrierCompleteReleasesItsWaiters : Prop :=
  ∀ (bar : Nat) (remote : BitVec 16) (s : State) (x : BarInst), SMap.get? s.bars bar = some x → s.barFull x remote = true →
    s.saved = [] →
    ∃ t, exec (.barrierComplete bar remote) s = .next t ∧ SMap.get? t.bars bar = none ∧ t.mem = s.mem ∧
      ∀ (core slot : Nat) (w : Warp), s.warp core slot = some w → ∃ v, t.warp core slot = some v ∧ v.regs.q = w.regs.q ∧
        (∀ b ∈ v.barred, b.inst ≠ some bar) ∧
        ∀ b, w.barred = [b] → b.inst = some bar → b.super = w.super → b.pc.word < 2 → v.barred = [] ∧ ∀ l : Fin 32,
          (v.regs.threads[l]).pc = if b.lanes[l] && (w.regs.threads[l]).live && (w.regs.threads[l]).pc == b.pc
            then b.next.getD { b.pc with word := b.pc.word + 1 } else (w.regs.threads[l]).pc

/-- R206 to R209: `BAR` joins its instance, and a full instance releases its waiters. The model's own choice or reading, no
rule: log entry 53: a guard touch is recorded for the lowest lane. -/
def Obligations.BarriersGatherAndRelease : Prop :=
  Sys2Proof.Claims.BarJoinsItsInstance ∧ Sys2Proof.Claims.BarrierCompleteReleasesItsWaiters

/-- R141, R210 to R212, R245: at the commit point `TRIGGER` counts the threads of `active`, `EXIT` ends them and with the last live one
frees the warp's slot, `LAUNCH` of one record submits it once to its device queue, and `SNAP` triggers a snapshot with its
tag and core where `SN_CTL` enables it and none is being distributed. `COMMIT` closes a window that holds an access, an
entry or a `v` write. -/
def Obligations.WarpsEndAndSubmit : Prop :=
  ∀ (h : Hdr) (a : Near) (code : BitVec 12) (s : State) (cur : Cur) (w w1 : Warp),
    let act := cur.before.active h cur.lanes
    let still := fun (l : Fin 32) => (w.regs.threads[l]).live && !act[l]
    (Commits (.trigger h) h s cur w → ∃ t, exec (.trigger h) s = .next t ∧
      t.warp cur.core cur.slot = some ({ w with triggered := LaneSet.union w.triggered act }.advance cur.pc cur.lanes 0)) ∧
    (Commits (.exit h) h s cur w → w.guard = none → (∃ l, still l = true) →
      ∃ t v, exec (.exit h) s = .next t ∧ t.warp cur.core cur.slot = some v ∧
        (∀ l : Fin 32, (v.regs.threads[l]).live = still l) ∧ v.triggered = LaneSet.union w.triggered act) ∧
    (Commits (.exit h) h s cur w → w.guard = none → (∀ l, still l = false) → s.efaults = [] →
      (∀ x, SMap.get? s.launches w.launch = some x → x.tcounted = true ∨ x.record.toNat / 2 ^ 320 % 2 ^ 64 = 0) →
      ∃ t, exec (.exit h) s = .next t ∧ t.warp cur.core cur.slot = none) ∧
    (∀ g, Commits (.exit h) h s cur w → w.guard = some g → exec (.exit h) s = .next
      ((s.setWarp cur.core cur.slot { w with guard := none }).raise cur act
        { kind := .guardTouch, aux := g.bank, pattern := BitVec.ofNat 32 g.offset, count := g.count, lane := lowLane act })) ∧
    (Opens (.commit h) 0 [] s cur w w1 → exec (.commit h) s = .next (passOn s cur
      (if LaneSet.any act ∧ ∃ x ∈ w1.openWin, x.accesses ≠ 0 ∨ x.entries ≠ [] ∨ x.vregs ≠ [] then w1.closeOpen else w1))) ∧
    (∀ (va : DWord) (loc : Loc), Commits (.launch h a) h s cur w →
      (∀ l : Fin 32, act[l] = true → cur.before.read64 a l = va) →
      s.globalLoc w cur.core { mmio := false, host := true } .read 128 va = .ok loc → s.readable loc = true →
      let record := s.recordAt w loc 128
      let q := record / 2 ^ 850 % 64
      let x := s.queue q
      (s.touch w loc 128 = none → record = leNat (s.bytesAt loc 128)) ∧
      exec (.launch h a) s = .next (passOn (s.submit va w.ctx record) cur
        (s.noteTouches w 128 ((LaneSet.list act).map fun l => (l, loc)))) ∧
      (48 ≤ q → (x.tail - x.head).toNat < 256 → (s.submit va w.ctx record).queue q =
        { x with tail := x.tail + 1, records := x.records ++ [(va, w.ctx, BitVec.ofNat 1024 record)] })) ∧
    (Commits (.snap h code) h s cur w →
      exec (.snap h code) s = .next (passOn (s.snapTrigger 0 code.toNat cur.core) cur w) ∧
      ((s.reg 0x50000 0x3F).getLsbD 0 = false → s.snapTrigger 0 code.toNat cur.core = s) ∧
      ((s.reg 0x50000 0x3F).getLsbD 0 = true → s.snap = none →
        let seq := BitVec.ofNat 32 ((s.reg 0x50018 0).toNat + 1)
        (s.snapTrigger 0 code.toNat cur.core).snap =
          some { seq := seq, src := 0, tag := code.toNat, core := cur.core, latched := [], spread := true }))

/-! ### Traps -/

/-- R396 to R398, R394, R395: a trap of a warp without uncommitted windows enters the handler: the frame is written, every thread
stands live at the handler's packet, `s0:s1` hold the frame's address and `s2:s3` the lock table's, `sr.trapinfo` the cause,
`sr.tile` is 32, no level is open, checking is off; the other registers stay. In supervisor mode, or where the frame cannot
be written, it is a double fault: the warp stops, its bit of `SV_DBL` is set, vector 1 is raised. -/
def Sys2Proof.Claims.TrapEntersTheHandler : Prop :=
  ∀ (s : State) (cur : Cur) (act : LaneSet) (t : Trap) (w : Warp), s.warp cur.core cur.slot = some w → w.windows = [] → t.table = none →
    let t' := { t with amask := LaneSet.mask act, w2 := cur.second }
    let at_ := { s.setWarp cur.core cur.slot w with cur := some { cur with ended := .trapped } }
    let va := s.frameVa cur.core cur.slot w.ctx
    let out := at_.superWrite cur.core w.ctx 3 (w.frame t') va
    let after := s.raise cur act t
    (w.super = false → out.2 = true →
      let e := out.1.ctxEntry w.ctx
      ∃ v, after.warp cur.core cur.slot = some v ∧ after.mem = out.1.mem ∧ v.super = true ∧ v.sbchk = false ∧ v.trapinfo = t'.info ∧
        v.regs.tile = 32 ∧ v.regs.loops = [] ∧
        (∀ l : Fin 32, v.regs.threads[l] = { pc := { packet := BitVec.ofNat 32 (e / 2 ^ 352), word := 0 }, live := true }) ∧
        v.regs.sReg 0 = BitVec.ofNat 32 va ∧ v.regs.sReg 1 = BitVec.ofNat 32 (va / 2 ^ 32) ∧
        v.regs.sReg 2 = BitVec.ofNat 32 (e / 2 ^ 192) ∧ v.regs.sReg 3 = BitVec.ofNat 32 (e / 2 ^ 224) ∧
        (∀ n, 4 ≤ n → v.regs.sReg n = w.regs.sReg n) ∧ v.regs.q = w.regs.q ∧
        (∀ l : Fin 32, (v.regs.y[l]).map (·.val) = (w.regs.y[l]).map (·.val)) ∧ v.regs.p = w.regs.p ∧ v.v = w.v) ∧
    ((w.super = true ∨ out.2 = false) → cur.core < 192 → cur.slot < 64 →
      ∃ v, after.warp cur.core cur.slot = some v ∧ v.halt = some .doubleFault ∧
        ((after.reg (0x3000 + 8 * cur.core) 0).getLsbD cur.slot = true) ∧ 1 ∈ after.msix) ∧
    (t'.info.extractLsb' 0 8).toNat = t.kind.code ∧ (t'.info.extractLsb' 13 5).toNat = t.lane % 32 ∧
    t'.info.getLsbD 19 = cur.second ∧ (t'.info.extractLsb' 20 12).toNat = t.aux % 4096

/-- R246, R247, R399, R107: at the commit point `TRAP` and `SVC` raise `SOFTWARE` and `SVC` with their code, the issuing threads
standing at the next word, or at the first word of the pair whose second word they are. `RFT` outside the handler traps `ILLEGAL_INSTRUCTION`; in it, a frame that asks for nothing but to resume gives the
warp the registers, predicates, program counters and live bits that it holds, outside supervisor mode. -/
def Sys2Proof.Claims.TrapWordsAndReturn : Prop :=
  ∀ (h : Hdr) (code : BitVec 12) (s : State) (cur : Cur) (w : Warp),
    let act := cur.before.active h cur.lanes
    let raised := fun (k : TrapKind) => Host.Outcome.next (State.raise
      (if cur.second then s.setWarp cur.core cur.slot w else passOn s cur w) cur act
      { kind := k, aux := code.toNat, lane := lowLane act })
    (Commits (.trap h code) h s cur w → exec (.trap h code) s = raised .software) ∧
    (Commits (.svc h code) h s cur w → exec (.svc h code) s = raised .svc) ∧
    (s.cur = some cur → s.warp cur.core cur.slot = some w → w.super = false →
      exec (.rft h) s = .next (s.raise cur act { kind := .illegalInstruction, lane := lowLane act })) ∧
    (∀ bs, Commits (.rft h) h s cur w → w.super = true → w.late = [] → s.efaults = [] → s.aborts = [] → s.preempt = none →
      s.superRead cur.core w.ctx 3 (s.frameVa cur.core cur.slot w.ctx) 4208 = some bs → frameKills bs = false →
      let at_ := fun (off n : Nat) => leNat ((bs.drop off).take n)
      at_ 32 4 / 2 % 4 = 0 → at_ 36 4 = 0 →
      (∀ l : Fin 32, w.wasLive[l] = true → at_ (64 + 8 * l.val) 8 / 2 ^ 34 % 2 = 1) →
      (∀ b ∈ w.barred, b.super = false → b.inst ≠ none) →
      ∃ t v, exec (.rft h) s = .next t ∧ t.warp cur.core cur.slot = some v ∧ t.mem = s.mem ∧ v.super = false ∧ v.trapinfo = 0 ∧
        (∀ l : Fin 32,
          let x := at_ (64 + 8 * l.val) 8
          v.regs.threads[l] = { pc := { packet := BitVec.ofNat 32 x, word := x / 2 ^ 32 % 4 }, live := w.wasLive[l] }) ∧
        (∀ (n : Nat) (l : Fin 32), n < 16 → (v.regs.qRow n)[l] = BitVec.ofNat 32 (at_ (320 + 128 * n + 4 * l.val) 4)) ∧
        (∀ n : Nat, n < 32 → v.regs.sReg n = BitVec.ofNat 32 (at_ (3392 + 4 * n) 4)) ∧
        (∀ (n : Nat) (l : Fin 32), n < 16 → (v.regs.pRow n)[l] = (BitVec.ofNat 32 (at_ (3520 + 4 * n) 4)).getLsbD l.val) ∧
        v.regs.rc = BitVec.ofNat 32 (at_ 4152 4) ∧ v.regs.tile = at_ 4168 4 ∧ v.v = w.v)

/-- R246, R247, R394 to R399: traps enter the handler, words raise them, `RFT` returns. The model's own choice or reading, no
rule: log entries 17, 50 and 51: lanes of a trap without a word, what RFT merges, a trap waits for older windows. -/
def Obligations.TrapsEnterAndReturn : Prop :=
  Sys2Proof.Claims.TrapEntersTheHandler ∧ Sys2Proof.Claims.TrapWordsAndReturn

/-! ### Circular buffers and waits for engines -/

/-- R36, R37, R214 to R216: `KSET` configures its handle as the descriptor says, where the handle is free and no entry names it;
`KROOM` and `KWAIT` mark d and make the warp wait for its slot; `KPROD` publishes the warp's oldest reserved slot and `KREL`
releases its oldest taken one, once no entry of the warp still reads the scratchpad; a handle without a ring, or a slot that
the warp does not hold, traps `BUFFER_MISUSE`. -/
def Sys2Proof.Claims.BufferWordsMoveSlots : Prop :=
  ∀ (h : Hdr) (k : Fin 16) (d a : Near) (s : State) (cur : Cur) (w w1 : Warp) (l : Fin 32),
    let act := cur.before.active h cur.lanes
    let me := warpKey cur.core cur.slot
    let ring := s.ring w.block k.val
    let misused := fun (w : Warp) => Host.Outcome.next ((s.setWarp cur.core cur.slot w).raise cur act
      { kind := .bufferMisuse, aux := k.val, lane := lowLane act })
    (∀ (loc : Loc) (r : Ring), Commits (.kset h k a) h s cur w → LaneSet.lowest act = some l →
      let va := BitVec.ofNat 64 (s.recordField w.launch 128 64) + (cur.before.read32 .int a l).setWidth 64
      s.globalLoc w cur.core { mmio := false, host := true } .read 16 va = .ok loc → s.readable loc = true →
      let x := s.recordAt w loc 16
      let w' := s.noteTouches w 16 [(l, loc)]
      ringOf x (s.padSize w) = some r → (s.touch w loc 16 = none → x = leNat (s.bytesAt loc 16)) ∧
      (r.base = x % 2 ^ 32 ∧ r.size = x / 2 ^ 32 % 2 ^ 32 ∧ r.rel = x / 2 ^ 96 % 2 ^ 8 ∧ r.slots.length = x / 2 ^ 72 % 2 ^ 8 ∧
        r.prod = x / 2 ^ 80 % 2 ^ 8 ∧ r.cons = x / 2 ^ 88 % 2 ^ 8) ∧
      ((∀ y, ring = some y → y.idle = true ∧ s.namesHandle w.block k.val = false) →
        exec (.kset h k a) s = .next (passOn (s.setRing w.block k.val r) cur w')) ∧
      (∀ y, ring = some y → (y.idle = false ∨ s.namesHandle w.block k.val = true) → exec (.kset h k a) s = misused w')) ∧
    (∀ r ∈ [((fun h k d => Instr.kroom h k d : Hdr → Fin 16 → Near → Instr), true), (fun h k d => .kwait h k d, false)],
      Opens (r.1 h k d) 0 [] s cur w w1 → LaneSet.any act = true →
      (ring = none → w1.block = w.block → exec (r.1 h k d) s = misused w1) ∧
      (ring ≠ none → w1.block = w.block → ∃ t v, exec (r.1 h k d) s = .next t ∧ t.warp cur.core cur.slot = some v ∧
        v.wait = some (.slot w1.nextLoad) ∧
        ∃ ld ∈ v.loads, ld.id = w1.nextLoad ∧ ld.kind = .slot k.val r.2 ∧ ld.regs = [nearReg d] ∧ ld.lanes = act)) ∧
    (Commits (.kprod h k) h s cur w →
      (∀ r ix, ring = some r → r.reservedBy me = some ix →
        exec (.kprod h k) s = .next (passOn (s.setRing w.block k.val (r.publish ix)) cur w)) ∧
      ((∀ r, ring = some r → r.reservedBy me = none) → exec (.kprod h k) s = misused w)) ∧
    (Commits (.krel h k) h s cur w →
      (∀ r ix, ring = some r → r.takenBy me = some ix →
        (∀ e ∈ s.entries, e.2.core = cur.core → e.2.slot = cur.slot → e.2.bound = true → s.readsPad e.2 = false) →
        exec (.krel h k) s = .next (passOn (s.setRing w.block k.val (r.release me ix)) cur w)) ∧
      ((∀ r, ring = some r → r.takenBy me = none) → exec (.krel h k) s = misused w))

/-- R216, R182, R32: a grant gives the waiting warp a slot of the ring, reserved for it or taken by it, and writes the slot's
scratchpad offset, base plus slot times size, to its register in its lanes, but for those that the second word of its pair wrote;
the load is released. -/
def Sys2Proof.Claims.SlotGrantsWriteTheOffset : Prop :=
  ∀ (core slot : Nat) (s : State) (w : Warp) (ld : PendLoad) (k ix : Nat) (r : Ring) (b : Block),
    s.warp core slot = some w → SMap.get? s.blocks w.block = some b → SMap.get? b.rings k = some r →
    let given := fun (room : Bool) (r' : Ring) (res : Res) => w.slotLoad room = some (ld, k) →
      ∃ t v, res = .next t ∧ t.warp core slot = some v ∧ t.mem = s.mem ∧ t.scratch = s.scratch ∧
        t.ring w.block k = some r' ∧ (∀ x ∈ v.loads, x.id ≠ ld.id) ∧ v.v = w.v ∧
        ∀ q, ld.regs = [q] → ∀ l : Fin 32, (v.regs.qRow q)[l] =
          if (ld.reach q ld.lanes)[l] then BitVec.ofNat 32 (r.base + ix * r.size) else (w.regs.qRow q)[l]
    (∀ r', r.reserve (warpKey core slot) = some (ix, r') →
      given true r' (exec (.kroomGrant core slot) s) ∧ (r'.slots[ix]?).any (fun x => x.reserved && x.owner == warpKey core slot)) ∧
    (r.nextTake (warpKey core slot) = some ix → given false (r.take (warpKey core slot) ix) (exec (.kwaitGrant core slot) s))

/-- R36, R37, R182, R214 to R216: buffer words move slots, and grants give offsets. -/
def Obligations.BuffersMoveAndGrantSlots : Prop :=
  Sys2Proof.Claims.BufferWordsMoveSlots ∧ Sys2Proof.Claims.SlotGrantsWriteTheOffset

/-- R205, R85, R224, R186: `QFENCE` adds a fence over the queues it names, `DRAIN` makes the warp's next word wait for every
earlier entry of the queues it names, whose window it closes, `WAITCNT` marks d until the counter at its scratchpad offset
reaches its target; a load of the counter that finds the target releases it with the value found, and a load's data return
releases its mark. The model's own choice or reading, no rule: log entry 54: how a WAITCNT counts. -/
def Obligations.FencesAndCountersWait : Prop :=
  ∀ (h : Hdr) (mask : BitVec 5) (d a : Near) (s : State) (cur : Cur) (w w1 : Warp),
    let act := cur.before.active h cur.lanes
    let named := (s.entries.filter fun e => e.2.core = cur.core && e.2.slot = cur.slot && e.2.bound && e.2.kind != .fence &&
      mask.getLsbD e.2.queue).map (·.1)
    (Opens (.qfence h mask) 0 [] s cur w w1 →
      ((LaneSet.any act = false ∨ mask = 0) → exec (.qfence h mask) s = .next (passOn s cur w1)) ∧
      (LaneSet.any act = true → mask ≠ 0 → ∃ t e, exec (.qfence h mask) s = .next t ∧
        SMap.get? t.entries s.nextEntry = some e ∧ e.kind = .fence ∧ e.mode = mask.toNat ∧ e.core = cur.core ∧ e.slot = cur.slot ∧
        e.bound = true ∧ t.mem = s.mem)) ∧
    (let waits := fun (v : Warp) => { (v.advance cur.pc cur.lanes 0) with wait := some (.drain named) }
     let early : Prop := ∃ x ∈ w.openWin, ∃ n ∈ x.entries, n ∈ named
     (Opens (.drain h mask) 0 [] s cur w w1 → LaneSet.any act = true → ¬early → exec (.drain h mask) s =
       .next (s.setWarp cur.core cur.slot (if named = [] then w1.advance cur.pc cur.lanes 0 else waits w1))) ∧
     (Ready (.drain h mask) s cur w → LaneSet.any act = true → early → cur.second = false →
       w.closeOpen.inWindow false 0 [] = some w1 → exec (.drain h mask) s = .next (s.setWarp cur.core cur.slot (waits w1)))) ∧
    (∀ l : Fin 32, Opens (.waitcnt h d a) 1 [] s cur w w1 → w1.steadyBusy = false → LaneSet.lowest act = some l →
      let off := (cur.before.read32 .int a l).toNat
      (off % 4 = 0 → off + 4 ≤ s.padSize w1 → ∃ t v, exec (.waitcnt h d a) s = .next t ∧ t.warp cur.core cur.slot = some v ∧
        ∃ ld ∈ v.loads, ld.id = w1.nextLoad ∧ ld.regs = [nearReg d] ∧ ld.lanes = act ∧
          ld.kind = .waitcnt (cur.before.read32 .int d l) off ((w1.openWin).elim 0 fun x => x.stores.length)) ∧
      (s.padSize w1 < off + 4 → exec (.waitcnt h d a) s = .next ((s.setWarp cur.core cur.slot w1).raise cur act
        { kind := .protection, lane := l.val, va := BitVec.ofNat 64 off, akind := 0, reason := 1 })) ∧
      (off + 4 ≤ s.padSize w1 → off % 4 ≠ 0 → exec (.waitcnt h d a) s = .next ((s.setWarp cur.core cur.slot w1).raise cur act
        { kind := .misaligned, lane := l.val, va := BitVec.ofNat 64 off, akind := 0 }))) ∧
    (∀ (core slot n : Nat) (v : Warp) (ld : PendLoad), s.warp core slot = some v → v.load? n = some ld →
      (ld.kind = .data → ∃ t u, exec (.loadDataReturn core slot n .none) s = .next t ∧ t.warp core slot = some u ∧
        (∀ x ∈ u.loads, x.id ≠ n) ∧ u.regs = v.regs ∧ t.mem = s.mem) ∧
      (∀ target off stores, ld.kind = .waitcnt target off stores →
        let value := leNat (overlay (v.storesBefore ld.win stores) (s.padLoc v core off) (s.bytesAt (s.padLoc v core off) 4))
        s.touch v (s.padLoc v core off) 4 = none → target.toNat ≤ value →
        ∃ t u, exec (.waitcntRelease core slot n) s = .next t ∧ t.warp core slot = some u ∧ (∀ x ∈ u.loads, x.id ≠ n) ∧
          ∀ q, ld.regs = [q] → ∀ l : Fin 32, (ld.reach q ld.lanes)[l] = true → (u.regs.qRow q)[l] = BitVec.ofNat 32 value))

/-! ### Words that enter engine operations -/

namespace Sys2Proof.Claims

/-- A word has entered one operation for each lane of `act`, ascending, in queue `queue`: entry number first + j is that of the
j-th lane and holds what `p` says; d waits for their status words (R82, R213). -/
def Entered (kind : EngKind) (queue : Nat) (d : Near) (act : LaneSet) (p : Fin 32 → Entry → Prop) (s : State) (cur : Cur) (w : Warp)
    (res : Res) : Prop :=
  ∃ t v, res = .next t ∧ t.warp cur.core cur.slot = some v ∧ t.mem = s.mem ∧ t.scratch = s.scratch ∧
    t.nextEntry = s.nextEntry + LaneSet.count act ∧
    (∃ ld ∈ v.loads, ld.id = w.nextLoad ∧ ld.kind = .status (LaneSet.count act) ∧ ld.regs = [nearReg d] ∧ ld.lanes = act) ∧
    ∀ (j : Nat) (l : Fin 32), (LaneSet.list act)[j]? = some l → ∃ e, SMap.get? t.entries (s.nextEntry + j) = some e ∧
      e.kind = kind ∧ e.queue = queue ∧ e.core = cur.core ∧ e.slot = cur.slot ∧ e.bound = true ∧ e.block = w.block ∧
      e.ctx = w.ctx ∧ e.lane = l.val ∧ e.dst = nearReg d ∧ e.load = w.nextLoad ∧ e.started = false ∧ e.outcome = 0 ∧ p l e

/-- The copy words with their kinds, and whether they read an index array (R218 to R221). -/
def copyWords : List (Word3 × EngKind × Bool) :=
  [(.cpy, .cpy, false), (.gath, .gath, true), (.scat, .scat, true), (.cpym, .cpym, false)]

end Sys2Proof.Claims

/-- R218 to R221, R82, R213: `CPY`, `GATH`, `SCAT` and `CPYM` enter one operation for each lane with its record address and tile
number, index array or core mask; a record address that is no multiple of 64 traps `MISALIGNED`, an index array outside the
scratchpad `PROTECTION`, a `CPYM` mask from 2^16 up `ILLEGAL_OPERAND`. -/
def Sys2Proof.Claims.CopyWordsEnterOperations : Prop :=
  ∀ r ∈ copyWords, ∀ (h : Hdr) (d a b : Near) (s : State) (cur : Cur) (w w1 : Warp), Opens (r.1 h d a b) 1 [] s cur w w1 →
    let act := cur.before.active h cur.lanes
    let va := fun (l : Fin 32) => cur.before.read64 a l
    let x := fun (l : Fin 32) => (cur.before.read32 .int b l).toNat
    let good := fun (l : Fin 32) => (va l).toNat % 64 = 0 ∧ (r.2.2 = true → x l % 4 = 0 ∧ x l + 4 ≤ s.padSize w1)
    (LaneSet.any act = false → exec (r.1 h d a b) s = .next (passOn s cur w1)) ∧
    (LaneSet.any act = true → (∀ l : Fin 32, act[l] = true → good l) →
      (r.2.1 = .cpym → s.recordField w1.launch 856 1 = 1 ∧ ∀ l : Fin 32, act[l] = true → x l < 2 ^ 16) →
      Entered r.2.1 0 d act (fun l e => e.addr = va l ∧ e.mode = x l) s cur w1 (exec (r.1 h d a b) s)) ∧
    (∀ l : Fin 32, LaneSet.lowest act = some l → r.2.1 ≠ .cpym → (va l).toNat % 64 ≠ 0 →
      (r.2.2 = true → x l + 4 ≤ s.padSize w1) →
      exec (r.1 h d a b) s = .next ((s.setWarp cur.core cur.slot w1).raise cur act
        { kind := .misaligned, lane := l.val, va := va l, akind := 0 })) ∧
    (∀ l : Fin 32, LaneSet.lowest act = some l → r.2.2 = true → s.padSize w1 < x l + 4 →
      exec (r.1 h d a b) s = .next ((s.setWarp cur.core cur.slot w1).raise cur act
        { kind := .protection, lane := l.val, va := BitVec.ofNat 64 (x l), akind := 0, reason := 1 })) ∧
    (∀ l : Fin 32, LaneSet.lowest act = some l → r.2.1 = .cpym → (∀ j : Fin 32, act[j] = true → good j) → 2 ^ 16 ≤ x l →
      exec (r.1 h d a b) s = .next ((s.fresh.setWarp cur.core cur.slot w1).raise cur act
        { kind := .illegalOperand, lane := l.val }))

/-- R239, R240, R241 to R243, R354: at the commit point `GEMVN` and `COLL` enter one operation for each lane with its descriptor's
address, `XFER` and `XMC` one with the source, the length and the destination that pass their checks, once the allowance toward
the target suffices. A `GEMVN` address that is no multiple of 64 traps `MISALIGNED`; an `XMC` list that is empty or repeats a
device traps `ILLEGAL_OPERAND`. -/
def Sys2Proof.Claims.FabricAndNearMemoryWordsEnterOperations : Prop :=
  ∀ (h : Hdr) (d a : Near) (s : State) (cur : Cur) (w : Warp),
    let act := cur.before.active h cur.lanes
    let va := fun (l : Fin 32) => cur.before.read64 a l
    let reg := fun (n : Nat) => (cur.before.readS n).toNat
    let src := reg 0 + reg 1 * 2 ^ 32
    (Commits (.gemvn h d a) h s cur w →
      ((∀ l : Fin 32, act[l] = true → (va l).toNat % 64 = 0) →
        Entered .gemvn 3 d act (fun l e => e.addr = va l) s cur w (exec (.gemvn h d a) s)) ∧
      ∀ l : Fin 32, LaneSet.lowest act = some l → (va l).toNat % 64 ≠ 0 → exec (.gemvn h d a) s = .next
        ((s.setWarp cur.core cur.slot w).raise cur act { kind := .misaligned, lane := l.val, va := va l, akind := 0 })) ∧
    (Commits (.coll h d a) h s cur w → Entered .coll 4 d act (fun l e => e.addr = va l) s cur w (exec (.coll h d a) s)) ∧
    (∀ pages, Commits (.xfer h d) h s cur w → s.xferCheck cur w act = .ok pages →
      let dev := reg 6 % 16
      (dev ≠ s.self → 1 ≤ (s.addInterest cur.core dev).allowance cur.core dev) →
      reg 4 % 4 = 0 ∧ 4 ≤ reg 4 ∧ reg 4 ≤ 2 ^ 31 ∧ src % 4 = 0 ∧
      Entered .xfer 2 d act (fun _ e => e.addr = BitVec.ofNat 64 src ∧ e.args.take 2 = [reg 4, reg 2 + reg 3 * 2 ^ 32])
        s cur w (exec (.xfer h d) s)) ∧
    (∀ pages dev, Commits (.xmc h d) h s cur w → s.xmcCheck cur w act = .ok pages →
      (listDevs (reg 6 + reg 7 * 2 ^ 32)).head? = some dev →
      (dev ≠ s.self → 2 ≤ (s.addInterest cur.core dev).allowance cur.core dev) →
      reg 4 % 4 = 0 ∧ 4 ≤ reg 4 ∧ reg 4 ≤ 224 ∧ src % 4 = 0 ∧
      Entered .xmc 2 d act (fun _ e => e.addr = BitVec.ofNat 64 src ∧ e.args.head? = some (reg 4)) s cur w (exec (.xmc h d) s)) ∧
    (Commits (.xmc h d) h s cur w →
      let list := reg 6 + reg 7 * 2 ^ 32
      (list / 2 ^ 60 % 16 = 0 ∨ (2 ≤ list / 2 ^ 60 % 16 ∧ list % 16 = list / 16 % 16)) →
      exec (.xmc h d) s = .next ((s.fresh.setWarp cur.core cur.slot w).raise cur act
        { kind := .illegalOperand, lane := lowLane act }))

/-- R82, R213, R218 to R221, R239 to R243, R354: copy, fabric and near-memory words enter operations. The model's own choice or
reading, no rule: log entries 43 and 106: destination pages are translated at issue, a descriptor that is misaligned traps. -/
def Obligations.EngineWordsEnterOperations : Prop :=
  Sys2Proof.Claims.CopyWordsEnterOperations ∧ Sys2Proof.Claims.FabricAndNearMemoryWordsEnterOperations

/-! ### Matrix words, sums, iterators -/

namespace Sys2Proof.Claims

/-- A word has entered one operation of the matrix queue for the warp and passed on with the registers `regs` (R82, R225). -/
def EnteredMatrix (kind : EngKind) (acc : Nat) (act : LaneSet) (regs : Regs) (p : Entry → Prop) (s : State) (cur : Cur) (w : Warp)
    (res : Res) : Prop :=
  ∃ t v e, res = .next t ∧ t.warp cur.core cur.slot = some v ∧ t.mem = s.mem ∧ t.scratch = s.scratch ∧
    v = ({ (w.mapOpen fun x => { x with entries := x.entries ++ [s.nextEntry] }) with regs := regs } : Warp).advance cur.pc cur.lanes 0 ∧
    t.nextEntry = s.nextEntry + 1 ∧ SMap.get? t.entries s.nextEntry = some e ∧ e.kind = kind ∧ e.queue = 1 ∧ e.acc = acc ∧
    e.lanes = act ∧ e.core = cur.core ∧ e.slot = cur.slot ∧ e.bound = true ∧ e.started = false ∧ p e

end Sys2Proof.Claims

/-- R225, R226, R228, R229, R232: a matrix word with a lane of `active` whose checks pass enters one operation on its
accumulator: `MBEGIN` opens its chain and `MEND` closes it, a step of a chain counts its quarters, a dithered `MST` without its
own phase advances `sr.phase` modulo 64; the operand offsets are those of the lanes at issue. The model's own choice or reading,
no rule: log entry 58: the order of the checks. -/
def Obligations.MatrixWordsEnterOperations : Prop :=
  ∀ (h : Hdr) (acc t qa qb : Fin 8) (a : Near) (s : State) (cur : Cur) (w w1 : Warp),
    let act := cur.before.active h cur.lanes
    let x := fun (n : Near) (l : Fin 32) => cur.before.read32 .int n l
    let chain := SMap.get? w1.regs.chains acc.val
    let can := fun (i : Instr) => Opens i 0 [] s cur w w1 ∧ LaneSet.any act = true ∧ w1.regs.inPair acc.val = false
    let inPad := fun (off n align : Nat) => off + n ≤ s.padSize w1 ∧ off % align = 0
    let noted := { w1.regs with chains := SMap.put w1.regs.chains acc.val { ty := none, steps := [0, 0, 0, 0] } }
    (can (.mzero h acc) → chain = none →
      EnteredMatrix .mzero acc.val act w1.regs (fun _ => True) s cur w1 (exec (.mzero h acc) s)) ∧
    (can (.mbegin h acc) → chain = none →
      EnteredMatrix .mbegin acc.val act noted (fun _ => True) s cur w1 (exec (.mbegin h acc) s)) ∧
    (∀ c, can (.mend h acc) → chain = some c → EnteredMatrix .mend acc.val act
      { w1.regs with chains := SMap.del w1.regs.chains acc.val } (fun e => e.args = c.steps) s cur w1 (exec (.mend h acc) s)) ∧
    (can (.mma h acc t qa qb) → chain = none → stepBad w1 acc.val t.val act = false →
      (∀ e ∈ operandTiles cur.before act t.val 32 qa qb, inPad e.2.1 e.2.2 128) →
      EnteredMatrix .mma acc.val act w1.regs (fun e => e.ty = t.val ∧ e.todo = quarters act ∧ e.args = [] ∧
        ∀ l : Fin 32, e.opA[l] = x (qLow qa) l ∧ e.opB[l] = x (qLow qb) l) s cur w1 (exec (.mma h acc t qa qb) s)) ∧
    (∀ c, can (.mma h acc t qa qb) → chain = some c → stepBad w1 acc.val t.val act = false →
      (∀ e ∈ operandTiles cur.before act t.val 32 qa qb, inPad e.2.1 e.2.2 128) →
      ∃ regs, EnteredMatrix .mma acc.val act regs (fun e => e.args = c.steps) s cur w1 (exec (.mma h acc t qa qb) s) ∧
        ∃ c', SMap.get? regs.chains acc.val = some c' ∧ c'.ty = some t.val ∧
          ∀ j n, c.steps[j]? = some n → c'.steps[j]? = some (if (quarters act).contains j then n + 1 else n)) ∧
    (can (.mmas h acc t qa qb) → chain = none → stepBad w1 acc.val t.val act = false →
      let m := cur.before.regs.mshift.toNat
      let rows := m / 2 ^ 8 % 2 ^ 8 + 32
      m < 2 ^ 16 → m % 2 ^ 8 + 32 ≤ rows → (∀ e ∈ operandTiles cur.before act t.val rows qa qb, inPad e.2.1 e.2.2 128) →
      EnteredMatrix .mmas acc.val act w1.regs (fun e => e.ty = t.val ∧ e.mode = m % 2 ^ 8 ∧ e.dst = rows)
        s cur w1 (exec (.mmas h acc t qa qb) s)) ∧
    (can (.mld h acc a) → chain = none → (∀ l : Fin 32, act[l] = true → inPad (x a l).toNat 64 16) →
      EnteredMatrix .mld acc.val act w1.regs (fun e => ∀ l : Fin 32, e.opA[l] = x a l) s cur w1 (exec (.mld h acc a) s)) ∧
    (∀ (sty : Fin 4) (dith : Bool) (l : Fin 32), can (.mst h acc sty dith a) → chain = none → LaneSet.lowest act = some l →
      (∀ j : Fin 32, act[j] = true → inPad ((x a j).toNat % 2 ^ 20) (16 * storeSize sty.val) 16) →
      let own := (x a l).getLsbD 25
      let phi := if own then (x a l).toNat / 2 ^ 26 else cur.before.regs.phase.toNat % 64
      EnteredMatrix .mst acc.val act
        (if dith ∧ own = false then { w1.regs with phase := BitVec.ofNat 32 ((phi + 1) % 64) } else w1.regs)
        (fun e => e.ty = sty.val ∧ e.mode = if dith then phi + 1 else 0) s cur w1 (exec (.mst h acc sty dith a) s))

/-- R200 to R204, R230, R281: at the commit point `CONTRIB` delivers the elements of its lanes, in ascending order, to the
core's lull under the label of its lowest lane, and with its flag lets the object's unpaired entries leave; `MCONTRIB` delivers
a row of 16 elements for each lane; a label that names no node traps `LABEL_RANGE`. `RDECL` whose record and pages pass R202
makes the object live with its status word at 0; a record field out of range traps `ILLEGAL_OPERAND`. The model's own choice or
reading, no rule: log entries 57 and 104: the check of the lowest lane, a page fault before the field checks. -/
def Obligations.ContributionsReachTheCoreLull : Prop :=
  ∀ (h : Hdr) (d base lab : Near) (flag : Bool) (acc qp : Fin 8) (s : State) (cur : Cur) (w : Warp) (l : Fin 32),
    let act := cur.before.active h cur.lanes
    let la := cur.before.read32 .int lab l
    let b := cur.before.read64 base l
    LaneSet.lowest act = some l →
    (Commits (.contribF32 h d base flag lab) h s cur w →
      (∀ j : Fin 32, act[j] = true → ∃ loc, s.contribLoc w cur.core (b + BitVec.ofNat 64 (4 * j.val)) = .ok loc) →
      (s.labelRange w.ctx b.toNat la = false →
        let u := s.contribute w cur.core b.toNat la ((LaneSet.list act).map fun j =>
          ((b + BitVec.ofNat 64 (4 * j.val)).toNat, cur.before.read32 .f32 d j))
        exec (.contribF32 h d base flag lab) s = .next (passOn (if flag then u.forwardFin w.ctx cur.core b.toNat else u) cur w)) ∧
      ((27 < la.toNat / 2 ^ 27 ∨ 2 ^ 27 ≤ la.toNat % 2 ^ 27 * 2 ^ (la.toNat / 2 ^ 27)) →
        exec (.contribF32 h d base flag lab) s = .next ((s.setWarp cur.core cur.slot w).raise cur act
          { kind := .labelRange, lane := l.val, pattern := la }))) ∧
    (Commits (.mcontrib h acc qp lab) h s cur w → w.regs.inPair acc.val = false → SMap.get? w.regs.chains acc.val = none →
      (∀ e ∈ s.entries, e.2.core = cur.core → e.2.slot = cur.slot → e.2.bound = true → e.2.queue = 1 → e.2.kind = .fence) →
      let va := fun (j : Fin 32) => cur.before.read64 (qPair qp) j
      (∀ j : Fin 32, act[j] = true → (va j).toNat % 64 = 0 ∧ s.labelRange w.ctx (va j).toNat la = false ∧
        ∀ c : Nat, c < 16 → ∃ loc, s.contribLoc w cur.core (va j + BitVec.ofNat 64 (4 * c)) = .ok loc) →
      exec (.mcontrib h acc qp lab) s = .next (passOn ((LaneSet.list act).foldl (fun s j =>
        s.contribute w cur.core (va j).toNat la ((List.range 16).map fun c => ((va j).toNat + 4 * c, w.accAt acc.val j c))) s)
        cur w)) ∧
    (∀ (loc t k hl : Loc), Commits (.rdecl h base) h s cur w →
      s.globalLoc w cur.core { mmio := false, host := true } .read 64 b = .ok loc → s.readable loc = true →
      let r := s.recordAt w loc 64
      let D := declOf r
      let v := (s.noteTouches w 64 [(l, loc)]).noteError (s.poisoned [(l, loc)])
      let u := s.setWarp cur.core cur.slot v
      u.declPages v cur.core D = .ok (t, k, hl) →
      let wrong := r / 2 ^ 272 % 2 ^ 16 ≠ 0 ∨ r / 2 ^ 320 ≠ 0 ∨ D.bad = true ∨ u.declClass t k hl = false ∨
        u.declOverlaps v.ctx D = true
      (wrong → exec (.rdecl h base) s = .next ((u.setWarp cur.core cur.slot v).raise cur act
        { kind := .illegalOperand, lane := l.val })) ∧
      (¬wrong → (u.homeOf t ≠ u.self ∨ u.tableFull = false) → u.writable loc = true →
        let x := u.storeNow (warpKey cur.core cur.slot) [(loc.plus 36, bytesLE 4 0)] false
        let home := x.homeOf t
        let o := { newObj D v.ctx v.super home (x.recordField v.launch 839 3 = 6 || home != x.self) cur.core cur.slot
          (some (b.toNat + 36)) (some (x.self, loc.plus 36)) none with block := some v.block }
        exec (.rdecl h base) s = .next (passOn (x.declare (SMap.fresh x.objs) o) cur
          { v with declares := if o.domain then x.others.length else 0 })))

/-- R234 to R237: `ITSET` loads a 64-byte record into its iterator register, or traps `ILLEGAL_OPERAND` where the record is out
of range; a `SWEEP` whose records suit acts element by element from where the counters stand and leaves every counter at 0; an
invalid iterator or unlike products trap `ILLEGAL_OPERAND`. The model's own choice or reading, no rule: log entry 44: the
elements of a SWEEP in one step. -/
def Obligations.IteratorWordsLoadAndSweep : Prop :=
  ∀ (h : Hdr) (it op itd ita itb : Fin 8) (a : Near) (s : State) (cur : Cur) (w w1 : Warp),
    let act := cur.before.active h cur.lanes
    (∀ (l : Fin 32) (loc : Loc), Opens (.itset h it a) 1 [] s cur w w1 → LaneSet.lowest act = some l →
      w1.steadyBusy = false →
      s.globalLoc w cur.core { mmio := false, host := true } .read 64 (cur.before.read64 a l) = .ok loc → s.readable loc = true →
      s.noWay cur.core (lineNos (loc.grans 64)) = none → s.touch w loc 64 = none →
      let r := leNat (s.loadBytes w loc 64)
      (iterBad r = false → ∃ t v, exec (.itset h it a) s = .next t ∧ t.warp cur.core cur.slot = some v ∧ t.mem = s.mem ∧
        SMap.get? v.regs.iters it.val = some (BitVec.ofNat 512 r) ∧ v.regs.q = w1.regs.q ∧
        ∀ k, k ≠ it.val → SMap.get? v.regs.iters k = SMap.get? w1.regs.iters k) ∧
      (iterBad r = true → ∃ u v, exec (.itset h it a) s = .next ((State.setWarp u cur.core cur.slot v).raise cur act
        { kind := .illegalOperand, lane := lowLane act }) ∧ v.regs.iters = w1.regs.iters)) ∧
    (Commits (.sweep h op itd ita itb) h s cur w →
      let kb := if op.val = 0 then ita.val else itb.val
      let bad := sweepBad op.val (w.iter itd.val) (w.iter ita.val) (w.iter kb)
      let rd := (w.iter itd.val).getD 0
      let run := State.sweepRun cur (lowLane act) op.val itd.val ita.val kb (iterTotal rd - iterPos rd) s w
      (bad = true → exec (.sweep h op itd ita itb) s = .next ((s.setWarp cur.core cur.slot w).raise cur act
        { kind := .illegalOperand, lane := lowLane act })) ∧
      (∀ t v, bad = false → run = .done t v → ∃ u, exec (.sweep h op itd ita itb) s = .next (passOn t cur u) ∧
        u.regs.q = v.regs.q ∧ ∀ k ∈ [itd.val, ita.val, kb], ∀ r, u.iter k = some r → ∀ d, d < 4 → iterIdx r d = 0) ∧
      (∀ t v f, bad = false → run = .trap t v f → exec (.sweep h op itd ita itb) s =
        .next ((State.setWarp t cur.core cur.slot v).raise cur act f)))

/-! ### Steps of the engines -/

/-- R213, R217, R218, R221, R222: a copy entry whose record is refused ends with outcome 1, one that is accepted takes its slot
and moves its elements; a `CPYM` delivery skips a core without blocks or with exited ones, and writes into the slot that it
reserves; the access that fails suspends its entry under a new fault at its element; an operation that has ended leaves its
queue and writes its status word, whose fields are those of R213. The model's own choice or reading, no rule: log entries 44 and
45: where the element steps of an entry stand; which layout records are refused. -/
def Obligations.CopyEntriesRunAndEnd : Prop :=
  ∀ (n core : Nat) (s : State) (e : Entry) (b : Block), s.entry? n = some e → SMap.get? s.blocks e.block = some b →
    let skip := { e with skipped := e.skipped ||| 2 ^ (core % 16) }
    let named := e.kind = .cpym ∧ e.acc = 2 ∧ core ∈ e.todo
    (s.mayCopy n e = true → e.acc = 0 →
      (s.copyCheck e b = .bad → ∃ t x, exec (.copyEntryStart n) s = .next t ∧ t.mem = s.mem ∧ t.scratch = s.scratch ∧
        t.entry? n = some x ∧ x.started = true ∧ x.acc = 2 ∧ x.outcome = 1) ∧
      ∀ x, s.copyCheck e b = .ready x → x.acc = 1 ∧
        exec (.copyEntryStart n) s = .next (s.setEntry n { x with started := true })) ∧
    (∀ u y v z, s.mayCopy n e = true → e.acc = 1 → s.copyFirst e = true → s.copySlot n e = some (u, y) →
      u.copyElem n y b y.elem = (v, z, .done) →
      exec (.copyEntryStart n) s = .next (State.copyServed (if z.elem = z.layout.trows * z.layout.tcols then v.copyFinish n z b
        else v.setEntry n z) e.core e.slot) ∧ z.elem = y.elem + 1 ∧
      (e.layout.side = false → e.layout.out = false → e.kind ≠ .cpym → e.slotIx = none → ∀ r, s.ring e.block e.layout.handle = some r →
        ∃ r', u.ring e.block e.layout.handle = some r' ∧ ∃ k ∈ y.slotIx, (r'.slots[k]?).any (fun x => x.owner == entryOwner n))) ∧
    (named → (∀ x ∈ s.blocks, x.2.launch = e.launch → x.2.core ≠ core) →
      exec (.cpymDelivery n core) s = .next (s.delivered n { skip with absent := true } core)) ∧
    (named → (∃ x ∈ s.blocks, x.2.launch = e.launch ∧ x.2.core = core ∧ x.2.away = false ∧ x.1 ∉ e.fed) →
      (∀ x ∈ s.blocks, x.2.launch = e.launch → x.2.core = core → x.2.gone = true) →
      exec (.cpymDelivery n core) s = .next (s.delivered n { skip with exited := true } core)) ∧
    (∀ bid x r k r', named → ((s.launchBlocksOn e core).filter fun x => !x.2.gone && !e.fed.contains x.1).head? = some (bid, x) →
      SMap.get? x.rings e.layout.handle = some r →
      let fed := e.fed ++ [bid]
      (e.giving.find? (fun d => d.1 = bid) = none → (x.inbound = [] ∨ x.inbound.head? = some n) →
        (r.size < e.layout.bytes → ∃ t, exec (.cpymDelivery n core) s = .next t ∧ t.mem = s.mem ∧ t.scratch = s.scratch ∧
          t.entry? n = some { skip with outcome := if e.outcome = 0 then 1 else e.outcome, fed := fed }) ∧
        (e.layout.bytes ≤ r.size → r.reserve (entryOwner n) = some (k, r') → ∃ t, exec (.cpymDelivery n core) s = .next t ∧
          t.mem = s.mem ∧ t.scratch = s.scratch ∧ t.entry? n = some { e with giving := e.giving ++ [(bid, k, 0)] } ∧
          (SMap.get? s.blocks bid = some x → t.ring bid e.layout.handle = some r'))) ∧
      ∀ i, e.giving.find? (fun d => d.1 = bid) = some (bid, k, i) →
        (∀ w, e.tileWrites[i]? = some w → s.copyFirst e = true →
          let u := s.padWrite x (r.offset k + w.1) w.2
          ∃ t y, exec (.cpymDelivery n core) s = .next t ∧ t.mem = u.mem ∧ t.scratch = u.scratch ∧ t.entry? n = some y ∧
            y.todo = e.todo ∧ y.fed = e.fed ∧ y.giving.find? (fun d => d.1 = bid) = some (bid, k, i + 1)) ∧
        (e.tileWrites[i]? = none → ∃ t y, exec (.cpymDelivery n core) s = .next t ∧ t.mem = s.mem ∧ t.scratch = s.scratch ∧
          t.entry? n = some y ∧ y.todo = e.todo ∧ y.fed = fed ∧ y.giving.find? (fun d => d.1 = bid) = none ∧
          t.ring bid e.layout.handle = some (r.publish k))) ∧
    (∀ c va k i, e.started = true → e.fid = none → e.win = none → s.entryFault n e = some (c, va, k, i) → c ≠ .poison → c.waits = false →
      let u := if e.kind = .gemvn then s.gemvnGo n e else s
      ∃ t, exec (.engineElementFault n) s = .next t ∧ t.entry? n = some (((u.entry? n).getD e).suspend i u.nextFid) ∧
        ((u.reg 0x2208 8).getLsbD 31 = false → t.nextFid = (u.nextFid + 1) % 65536 ∧
          ∃ f ∈ t.efaults, f.1 = u.nextFid ∧ f.2.va = BitVec.ofNat 64 va ∧ f.2.elem = i ∧ f.2.cause = c.code ∧
            f.2.what = .entry n)) ∧
    (e.isOver = true → s.stored (.entry n) = true → (e.bound = true → ∃ w, s.warp e.core e.slot = some w ∧ w.block = e.block) →
      ∃ t, exec (.engineCompletion n) s = .next t ∧ t.entry? n = none ∧ t.mem = s.mem ∧ t.scratch = s.scratch ∧
      ∀ (w : Warp) (ld : PendLoad) (q : Nat) (l : Fin 32), e.bound = true → s.warp e.core e.slot = some w →
        w.load? e.load = some ld → ld.regs = [q] → ld.lost = [] → e.lane = l.val →
        ∃ v, t.warp e.core e.slot = some v ∧ (v.regs.qRow q)[l] = BitVec.ofNat 32 e.status) ∧
    (let x := BitVec.ofNat 32 e.status
     x.getLsbD 31 = true ∧ (x.extractLsb' 28 3).toNat = e.outcome % 8 ∧ x.getLsbD 27 = e.sat ∧ x.getLsbD 26 = e.guard ∧
      x.getLsbD 25 = e.absent ∧ x.getLsbD 24 = e.exited ∧ (x.extractLsb' 16 8).toNat = (e.slotIx.getD 0) % 256 ∧
      (x.extractLsb' 0 16).toNat = e.skipped % 2 ^ 16)

/-- R227, R229, R251, R252, R263: an idle matrix engine starts the next startable entry of its partition, round-robin; `MZERO` leaves
every element +0.0, `MLD` the words of its lanes' rows; a finished step of a quarter adds its node to each element of the
quarter's rows, absent nodes adding nothing, and leaves the other rows; a stack's engine runs the operations of `GEMVN`,
which end with outcome 1 where their descriptor is refused. -/
def Obligations.MatrixEnginesRunTheirSteps : Prop :=
  ∀ (n core part j : Nat) (s : State) (e : Entry) (w : Warp) (b : Block), SMap.get? s.blocks e.block = some b → e.bound = true →
    s.warp e.core e.slot = some w →
    let starts := part < 16 ∧ (∀ x ∈ s.entries, x.2.core = core → x.2.slot / 4 = part → x.2.queue = 1 → x.2.started = false) ∧
      s.nextPass core part (SMap.getD (s.core core).served part 3) = some (n, e)
    (starts → (e.kind = .mma ∨ e.kind = .mmas) → ∃ t, exec (.matrixPassStart core part) s = .next t ∧
      t.entry? n = some { e with started := true, elem := e.passB } ∧ SMap.get? (t.core core).served part = some (e.slot % 4) ∧
      t.mem = s.mem ∧ t.scratch = s.scratch ∧ t.warps = s.warps) ∧
    (starts → e.kind = .mzero → ∃ t v, exec (.matrixPassStart core part) s = .next t ∧ t.entry? n = none ∧
      t.warp e.core e.slot = some v ∧ (∀ (r : Fin 32) (c : Nat), c < 16 → v.accAt e.acc r c = 0) ∧
      (∀ (m : Nat) (r : Fin 32) (c : Nat), m ≠ e.acc → c < 16 → v.accAt m r c = w.accAt m r c)) ∧
    (starts → e.kind = .mld → ∃ t v, exec (.matrixPassStart core part) s = .next t ∧ t.entry? n = none ∧
      t.warp e.core e.slot = some v ∧ ∀ (r : Fin 32) (c : Nat), c < 16 → v.accAt e.acc r c =
        if e.lanes[r] then BitVec.ofNat 32 (s.padRead b (e.opA[r].toNat + 4 * c) 4) else w.accAt e.acc r c) ∧
    ((e.kind = .mma ∨ e.kind = .mmas) → e.started = true → e.ty ≠ 4 → e.args = [] → s.entry? n = some e → j ∈ e.todo →
      (e.opB[quarterLane e.lanes j]).toNat = e.elem →
      ∃ t v, exec (.kStepFinish n j) s = .next t ∧ t.warp e.core e.slot = some v ∧
        (∀ k, k ∈ e.todo → k ≠ j → ∃ x, t.entry? n = some x ∧ k ∈ x.todo) ∧
        ∀ (r : Fin 32) (c : Nat), c < 16 → v.accAt e.acc r c =
          if r.val / 8 = j then
            match s.stepNode b (e.tiles j).1 (e.tiles j).2 (e.mode + r.val) c with
            | none => w.accAt e.acc r c
            | some x => BitVec.ofNat 32 (treeAdd (w.accAt e.acc r c).toNat (BitVec.ofNat 64 x).toNat)
          else w.accAt e.acc r c) ∧
    (∀ stack,
      (s.gemvnServed stack).find? (fun e => !(s.gemvnRun e.1 e.2).stuck) = some (n, e) →
      (∀ u x, s.gemvnRun n e = .bad u x →
        exec (.gemvnStart stack) s = .next (u.setEntry n { x with started := true, acc := 2, outcome := 1 })) ∧
      (∀ u x, s.gemvnRun n e = .done u x → exec (.gemvnStart stack) s = .next (u.setEntry n { x with started := true, acc := 2 })) ∧
      (∀ u, e.acc = 1 → e.fed.length = e.gemvn.k → e.weightsRead = e.weights.rows * e.weights.cols →
        s.enginePut n e true e.gemvn.y (e.outputs.flatMap (bytesLE 4)) = .done u →
        let x := u.noteGuards e ((List.range e.gemvn.rows).map fun r => (e.gemvn.y + 4 * r, 4))
        s.gemvnRun n e = .done x.1 x.2)) ∧
    (∀ v, e.planArgs ≤ e.args.length → e.todo.length + 1 = e.weights.cols →
      let m := if e.weights.cols ≤ 1 then 0 else Nat.log2 (e.weights.cols - 1) + 1
      (e.addLeaf v).todo = [] ∧
      (e.addLeaf v).outputs = e.outputs ++ [rootValue ((treeValue treeAdd m ((e.todo ++ [v]).map some)).getD 0)])

/-- R309 to R311: a `COLL` entry whose start record is refused ends with outcome 6; one that is accepted starts an instance of
its plan with counter 0 at 1 and the others at 0; a work entry that has not fired fires once its arming counter reaches its
threshold; an instance whose final counter reaches its threshold is over. The model's own choice or reading, no rule: log entry
47: when waiting arrivals are performed. -/
def Obligations.CollectivesStartFireAndComplete : Prop :=
  ∀ (n i j : Nat) (s : State),
    (∀ e, s.entry? n = some e → e.kind = .coll → e.win = none → e.fid = none → e.acc = 0 → s.fenced n e = false →
      (∀ f ∈ s.entries, f.1 < n → f.2.sameWarp e = true → f.2.kind = .coll → f.2.acc ≠ 0) →
      (s.instCheck e = .bad →
        let x := if e.addr.toNat % 64 = 0 then s.noteGuards e [(e.addr.toNat, 64)] else (s, e)
        exec (.collInstanceStart n) s = .next (x.1.setEntry n { x.2 with started := true, acc := 2, outcome := 6 })) ∧
      ∀ p r home, s.instCheck e = .ready p r home → exec (.collInstanceStart n) s = .next (s.startInst n e p r home) ∧
        (s.heldWrites = [] → p.elems = 0 → ∃ x, SMap.get? (s.startInst n e p r home).insts s.nextInst = some x ∧
          x.plan = p ∧ x.tag = r.tag ∧ x.entry = n ∧ x.fired = [] ∧ x.ctrs[0]? = some 1 ∧
          ∀ c, 1 ≤ c → c < p.nctr → x.ctrs[c]? = some 0)) ∧
    (∀ x b new, SMap.get? s.insts i = some x → x.plan.work[j]? = some b → s.workFault i j = false →
      let k := Work.of b
      let got := SMap.get? x.got j
      let bs := got.getD [] ++ new
      let va := (if k.fromDst then x.dst else x.src) + k.soff + (got.getD []).length
      (got.isSome = true ∨ (j ∉ x.fired ∧ k.thr ≤ (x.ctrs.getD k.arm 0).toNat)) → (k.ue = true → s.ueReady = true) →
      s.engineGet (s.instEntry x) true (pieces va 4) = .bytes new →
      (bs.length < k.len → ∃ t, exec (.workEntryFire i j) s = .next t ∧ t.mem = s.mem ∧
        SMap.get? t.insts i = some { x with got := SMap.put x.got j bs }) ∧
      (k.len ≤ bs.length → exec (.workEntryFire i j) s = .next ((s.instGuards x [(va, 4)]).fire i j x k bs) ∧
        (k.ue = true → ∃ y, SMap.get? ((s.instGuards x [(va, 4)]).fire i j x k bs).insts i = some y ∧ y.fired = x.fired ++ [j] ∧
          y.ctrs = x.ctrs))) ∧
    (∀ x, SMap.get? s.insts i = some x → x.plan.fthr.toNat ≤ (x.ctrs.getD x.plan.fctr 0).toNat → x.got = [] →
      (∀ k, x.armed k = false) → s.stored (.entry x.entry) = true →
      exec (.collComplete i) s = .next (s.endInst i 0) ∧ SMap.get? (s.endInst i 0).insts i = none)

/-- R285, R66, R289, R294, R295: a lull takes its oldest arrival; siblings become their parent, the lower index being the first
operand of the addition; an entry that has waited goes on to the next lull, out of a lull that is not its final one; a report
adds its root line to the object's lines and its counts to the histogram, which saturates. The model's own choice or reading, no
rule: log entry 46: which entry goes on, one arrival at a time. -/
def Obligations.LullsPairForwardAndReport : Prop :=
  ∀ (id : LullId) (key : Nat) (s : State) (e a b : LullEntry) (q : LaneMask) (l : Fin 32),
    let k := lullKey id
    let x := s.lull k
    (x.inbox.find? (fun e => !x.stopped.contains e.ctx) = some e →
      exec (.lullArrival id) s = .next ((s.setLull k { x with inbox := x.inbox.erase e }).arriveAt k e)) ∧
    (a.index ^^^ 1 = b.index →
      let p := parentEntry a b q
      p.level = a.level + 1 ∧ p.index = a.index / 2 ∧ p.present = q ∧ p.res[l] = residueOf p.vals[l] ∧
      p.vals[l] = BitVec.ofNat 32 (if a.index % 2 = 0 then treeAdd a.vals[l].toNat b.vals[l].toNat
        else treeAdd b.vals[l].toNat a.vals[l].toNat)) ∧
    (x.kept[key]? = some e → k < 512 → s.isFinal k e = false →
      exec (.lullForwardTimeout id key) s = .next ((s.takeKept k e).sendOn k e (s.nextOf k e)) ∧
      ∀ f, s.nextOf k e = .here f → f ≠ k →
        (((s.takeKept k e).sendOn k e (s.nextOf k e)).lull f).inbox = (s.lull f).inbox ++ [e] ∧
        (((s.takeKept k e).sendOn k e (s.nextOf k e)).lull k).kept = x.kept.erase e) ∧
    (∀ (r : LineDone) (o : Obj), s.reports.find? (fun r => (s.reports.find? fun x => x.obj == r.obj) == some r && r.fault.isNone &&
        (r.stage = 0 || s.objStored r.obj)) = some r →
      s.obj? r.obj = some o → r.stage = 0 → o.lines + 1 < o.decl.lines → s.objStored r.obj = true →
      (∀ c ∈ s.reportLocs o false, ∃ loc, c = .ok loc ∧ s.devWritable loc = true) →
      ∃ (t : State) (o' : Obj), exec .lineDone s = .next t ∧ t.reports = s.reports.erase r ∧ t.obj? r.obj = some o' ∧ o'.lines = o.lines + 1 ∧
        ∀ j m d : Nat, o.bins[j]? = some m → r.incr[j]? = some d → o'.bins[j]? = some (min (2 ^ 32 - 1) (m + d)))

/-! ### Launches, bookkeeping, faults -/

/-- R381 to R384, R379, R10, R21 to R23: a written tail takes effect unless it goes back or exceeds the ring; a record at the
head that no refusal hits becomes the queue's launch, a refused one leaves the queue; a launch whose counters are met may start;
a block goes to a core that fits it, its warps into free slots of the partitions of their indices, with the uniform registers
and threads that R21 to R24 name; a launch whose blocks have all ended owes status 2 and the addition to its counter. The
model's own choice or reading, no rule: log entries 32 and 33: which records are refused, when a context is examined; log entry
62: the register count. -/
def Obligations.LaunchesStartPlaceAndComplete : Prop :=
  ∀ (q n c : Nat) (s : State) (l : Launch),
    let x := s.queue q
    let lg := max 4 (min 15 ((s.reg (32 * q + 8) 8).toNat % 16))
    let on := q < 64 ∧ (s.reg (32 * q + 8) 8).getLsbD 31 = true ∧ x.hold = none
    (∀ tail : Word, q < 64 → ∃ t, exec (.queueTailWrite q tail) s = .next t ∧
      (t.queue q).tail = if 48 ≤ q ∨ (tail - x.head).toNat < (x.tail - x.head).toNat ∨ 2 ^ lg < (tail - x.head).toNat then x.tail
        else tail) ∧
    (on → x.current = none → x.head ≠ x.tail → s.aborted (s.headCtx q) = false →
      exec (.launchStart q) s = .next (s.readHead q)) ∧
    (∀ va rest record, on → 48 ≤ q → x.current = none → x.head ≠ x.tail → x.records = (va, n, record) :: rest → s.aborted n = false →
      let m := { newLaunch va record.toNat n q with places := [] }
      m.f 576 64 = 0 → { s with launches := SMap.put s.launches (SMap.fresh s.launches) m }.refusal m
        false = none →
      ∃ t, exec (.launchStart q) s = .next t ∧ (t.queue q).current = some (SMap.fresh s.launches) ∧
        SMap.get? t.launches (SMap.fresh s.launches) = some m) ∧
    (on → x.current = some n → SMap.get? s.launches n = some l → l.startable = false → l.owedFault = none → s.aborted l.ctx = false →
      s.waitMet l (l.f 384 64) (l.f 448 32) = .ok (.inr true) → s.waitMet l (l.f 512 64) (l.f 480 32) = .ok (.inr true) →
      ∃ t, exec (.launchStart q) s = .next t ∧ SMap.get? t.launches n = some { l with startable := true } ∧
        SMap.get? t.ctxs l.ctx = some (BitVec.ofNat 512 (s.tableEntry l.ctx)) ∧ t.mem = s.mem) ∧
    (SMap.get? s.launches n = some l → s.waitingBlock l = none → s.placing l = true → s.outranked n l = false → l.isGang = false →
      l.started = true → l.placed.length + 1 < l.nblocks → s.mayPlace n l l.placed.length s.self c = true → s.fits l c = true →
      ∃ t, exec (.blockPlacement n [c]) s = .next t ∧ t.mem = s.mem ∧ t.scratch = s.scratch ∧
        SMap.get? t.launches n = some { l with placed := l.placed ++ [l.placed.length] } ∧
        (∃ b, SMap.get? t.blocks (SMap.fresh s.blocks) = some b ∧ b.launch = n ∧ b.index = l.placed.length ∧ b.core = c ∧
          b.size = l.scratch) ∧
        ∀ i : Nat, i < l.warps → ∃ k v, k / 4 = i % 16 ∧ s.warp c k = none ∧ t.warp c k = some v ∧ v.index = i ∧ v.launch = n ∧
          v.block = SMap.fresh s.blocks) ∧
    (∀ lid bid b w age clk : Nat,
      let r := (newWarp l lid bid b w age clk).regs
      r.sReg 1 ++ r.sReg 0 = BitVec.ofNat 64 (l.f 192 64) ∧ r.sReg 3 ++ r.sReg 2 = l.va ∧ r.sReg 29 = BitVec.ofNat 32 (l.f 704 32) ∧
      r.sReg 31 ++ r.sReg 30 = BitVec.ofNat 64 (l.f 640 64 + (b * l.warps + w) * 32 * l.f 704 32) ∧ r.tile = 32 ∧
      ∀ k : Fin 32, r.threads[k] = { pc := { packet := BitVec.ofNat 32 (l.f 32 32), word := 0 }, live := true }) ∧
    (SMap.get? s.launches n = some l → l.complete = false → l.home = none → l.placed.length = l.nblocks →
      l.ended.length = l.nblocks → (∀ e ∈ s.entries, e.2.launch ≠ n) →
      exec (.launchComplete n) s = .next (State.owe { s with
        launches := SMap.put s.launches n { l with complete := true }
        blocks := s.blocks.filter fun e => e.2.launch != n } n
        (if l.f 256 64 = 0 then [.status 2] else [.status 2, .counter (BitVec.ofNat 64 (l.f 256 64))])))

/-- R14, R105, R123, R389: regrouping counts the live threads at each thread's program counter; a program counter without an issue for
64 cycles is promoted; a wait count of 16 makes a warp urgent; a packet that cannot be fetched traps `PAGE_FAULT` or
`PROTECTION`, an illegal word the trap of its kind, in the issuing threads. -/
def Obligations.IssueStageEventsAct : Prop :=
  ∀ (core slot : Nat) (va : DWord) (s : State) (cur : Cur) (w : Warp),
    let same := fun (l k : Fin 32) => (w.regs.threads[k]).live && (w.regs.threads[k]).pc == (w.regs.threads[l]).pc
    let ripe := fun (l : Fin 32) => (w.regs.threads[l]).live && decide (64 ≤ w.since[l]) && !w.promoted[l]
    (s.warp core slot = some w →
      (w.regrouped = false → ∃ v, exec (.bundleRegroup core slot) s = .next (s.setWarp core slot v) ∧ v.regrouped = true ∧
        v.regs = w.regs ∧ ∀ l : Fin 32, v.pop[l] = ((List.finRange 32).filter (same l)).length) ∧
      ((∃ l, ripe l = true) → ∃ v, exec (.counterPromotion core slot) s = .next (s.setWarp core slot v) ∧ v.regs = w.regs ∧
        ∀ l : Fin 32, v.promoted[l] = (w.promoted[l] || ripe l)) ∧
      (w.urgent = false → 16 ≤ w.waits →
        exec (.warpUrgent core slot) s = .next (s.setWarp core slot { w with urgent := true }))) ∧
    (s.cur = some cur →
      let missing := fun (k : FetchFaultKind) (t : Trap) => exec (.fetchFault k va) s = .next (s.raise cur cur.lanes
        { t with lane := lowLane cur.lanes, va := va, akind := 3 } (roll := false))
      let illegal := fun (k : IllegalKind) (t : Trap) => exec (.illegalEncoding k) s = .next (s.raise cur cur.lanes
        { t with lane := lowLane cur.lanes })
      missing .absent { kind := .pageFault } ∧ missing .notExecutable { kind := .protection, reason := 3 } ∧
      missing .malformed { kind := .protection, reason := 5 } ∧ missing .badAddress { kind := .protection } ∧
      illegal .instruction { kind := .illegalInstruction } ∧ illegal .operand { kind := .illegalOperand } ∧
      illegal .pairing { kind := .illegalPairing })

/-- R400, R405 to R407, R449: a warp that owes its handler an engine fault closes its open window and then enters the handler
for `ENGINE_FAULT`; a marked warp enters it for `SOFT_ERROR`; a soft error acts as its record says and is logged; a resume frees
the fault's number and tries the suspended entry again, an abandon ends it with outcome 2, and a number that is not outstanding
is ignored; `EF_CFG` and `EF_HEAD` take the value written. The model's own choice or reading, no rule: log entries 18, 19 and
20: when the handler is entered, what an abandoned fault leaves undone, what a soft error does. -/
def Obligations.FaultsAreDeliveredAndResolved : Prop :=
  ∀ (core slot fid n : Nat) (s : State) (w : Warp) (f : EFault) (value : Word),
    (s.warp core slot = some w → w.super = false → s.mayEnter w = true → s.faultOwed core slot = some fid →
      s.efaults.find? (fun e => e.1 = fid) = some (fid, f) →
      (w.windows ≠ [] → w.openWin.isSome = true →
        exec (.engineFaultEntry core slot fid) s = .next (s.setWarp core slot w.closeOpen)) ∧
      (w.windows = [] → ∃ u m l, exec (.engineFaultEntry core slot fid) s = .next (State.enterSupervisor u core slot w
          { kind := .engineFault, eng := true, lane := l, amask := m, va := f.va, akind := f.kind, queue := f.queue, fid := fid,
            elem := f.elem }) ∧ u.mem = s.mem ∧ ∀ e ∈ u.efaults, e.1 = fid → e.2.entered = true)) ∧
    (∀ struct poison, s.warp core slot = some w → w.soft = some (struct, poison) → s.mayEnter w = true → w.windows = [] →
      ∃ u m l, exec (.softErrorTrap core slot) s = .next (State.enterSupervisor u core slot
        { w.corrupt s.free poison with soft := none, pending := none, wait := none }
        { kind := .softError, lane := l, amask := m, pattern := BitVec.ofNat 32 struct, poison := poison }) ∧ u.mem = s.mem) ∧
    (∀ e : SoftError, 1 ≤ e.struct → e.struct ≤ 16 → e.action ≤ 5 → s.softTarget e = true →
      exec (.softErrorEvent e) s = .next ((s.softAct e).logSoft e) ∧
      (e.action = 4 → SMap.get? (s.softAct e).poison (e.pa.toNat / 128) = some e.struct) ∧ (e.action = 0 → s.softAct e = s) ∧
      (∀ c k v, e.action = 2 → e.warp = some (c, k) → s.warp c k = some v →
        ∃ u, (s.softAct e).warp c k = some u ∧ u.soft.map (·.1) = some e.struct)) ∧
    (s.efault? fid = none → exec (.engineFaultResume fid) s = .next s ∧ exec (.engineFaultAbandon fid) s = .next s) ∧
    (∀ e, s.efault? fid = some f → f.what = .entry n → s.entry? n = some e → (s.reg 0x2208 8).getLsbD 31 = false →
      (∃ t, exec (.engineFaultResume fid) s = .next t ∧ t.entry? n = some { e with fid := none } ∧
        (∀ x ∈ t.efaults, x.1 ≠ fid) ∧ t.mem = s.mem) ∧
      (e.kind = .gemvn → ∃ t, exec (.engineFaultAbandon fid) s = .next t ∧ (∀ x ∈ t.efaults, x.1 ≠ fid) ∧ t.mem = s.mem ∧
        t.entry? n = some { e with outcome := 2, fid := none, started := true, acc := 2 })) ∧
    (let cfg := BitVec.ofNat 64 (value.toNat / 2 ^ 30 * 2 ^ 30 + value.toNat % 16)
     exec (.efCfgWrite value) s = .next (State.reportFaults { s with mmio := SMap.put s.mmio 0x2208 cfg }) ∧
     exec (.efHeadWrite value) s = .next (State.reportFaults { s with mmio := SMap.put s.mmio 0x2214 (value.setWidth 64) }))

/-! ### Ports and the hub -/

/-- R341 to R345, R348: a port sends the next flit that may leave, under the next ctr, and keeps it for replay; what it owes leaves
in one control flit with the ctr it acknowledges; an unacknowledged flit is sent again, and after 16 sends the link goes
down; a key switch puts later flits under the other slot from ctr 0. -/
def Sys2Proof.Claims.PortsSendAndResend : Prop :=
  ∀ (p dev k : Nat) (s : State) (f : OutFlit) (r : Replay) (rest : List Replay),
    let x := s.port p
    let key := (s.keySlot 0 p x.txSlot).isSome = true
    let q := SMap.getD s.hubq dev []
    (s.nextQueue p = some (dev, k) → q[k]? = some f → flitRoute f.flit = false → s.canSeal p 1 = true → s.mustSwitch p = false →
      ∃ t r, exec (.flitTransmit p) s = .next t ∧ (t.port p).replay = x.replay ++ [r] ∧ r.flit.ctr = x.txCtr ∧ r.sends = 1 ∧
        r.flit.kind = f.flit.kind ∧ r.flit.payload = f.flit.payload ∧ r.flit.slot = decide (x.txSlot = 1) ∧
        (t.port p).txCtr = x.txCtr + 1 ∧ SMap.getD t.hubq dev [] = q.take k ++ q.drop (k + 1) ∧
        (t.pool dev).outstanding = (s.pool dev).outstanding + if f.takesCredit s then 1 else 0) ∧
    (∀ c, s.controlPort p = some c → (s.keySlot 0 c (s.port c).txSlot).isSome = true → (s.port c).limited = false →
      x.owesControl = true → s.mustSwitch c = false →
      (∃ t, exec (.controlFlitSend p) s = .next t ∧ (t.port c).sentCtl.map (·.1) = some (s.controlOf p c) ∧
        (t.port c).ctlCtr = (s.port c).ctlCtr + 1 ∧ (t.port p).credSent = x.credNow ∧ (t.port p).credOwed = x.credOwed.map (· - 15) ∧
        (t.port p).refusals = x.refusals.drop 27 ∧ (t.port p).told = x.lists) ∧
      (let nak := x.nakOwed || (!x.early.isEmpty && !x.ackOwed)
       let a := if nak then (x.rxSlot, x.rxNext) else x.unacked.headD (x.rxSlot, x.rxNext)
       let spec := (s.controlOf p c).spec
       let count := fun (k : Nat) => (x.credSent.getD k 0 + min 15 (x.credOwed.getD k 0)) % 256
       a.1 < 2 → (spec.extractLsb' 48 32).toNat = a.2 % 2 ^ 32 ∧ spec.getLsbD 47 = decide (a.1 = 1) ∧ spec.getLsbD 46 = nak ∧
        (spec.extractLsb' 37 8).toNat = count 0 ∧ (spec.extractLsb' 29 8).toNat = count 1 ∧ (spec.extractLsb' 21 8).toNat = count 2)) ∧
    (s.portUp p = true → x.replay = r :: rest →
      (r.sends < 16 → (s.keySlot 0 p (if r.flit.slot then 1 else 0)).isSome = true → ∃ t, exec (.replayTimeout p) s = .next t ∧
        (t.port p).replay = { r with sends := r.sends + 1 } :: rest ∧ (t.port p).link = x.link) ∧
      (16 ≤ r.sends → ∃ t, exec (.replayTimeout p) s = .next t ∧ (t.port p).link = if x.en then 1 else 0)) ∧
    (s.mustSwitch p = true → s.portUp p = true → key → x.txCtr ≤ 0xFFFFFFFF → x.replay.length < 512 →
      ∃ t, exec (.keySwitch p) s = .next t ∧ (t.port p).txSlot = 1 - x.txSlot ∧ (t.port p).txCtr = 0 ∧ (t.port p).ctlCtr = 0 ∧
        (t.port p).retiring = true)

/-- R339 to R344, R351: a flit of any kind that arrives at a running port is received: refused and counted without a key for its slot,
acknowledged again below the next expected ctr, held and reported beyond it, and taken at it. A control flit acts once; a
flit that does not authenticate is counted. -/
def Sys2Proof.Claims.PortsReceiveInOrder : Prop :=
  ∀ (p : Nat) (s : State) (f g : Flit),
    let x := s.port p
    let slot := fun (f : Flit) => if f.slot then 1 else 0
    let comes := fun (s : State) (f : Flit) => s.portUp p = true ∧ (f.dst = s.self ∨ f.relay = true)
    (comes s f →
      let takes := fun (i : Instr) => exec i s = .next (s.receive p f)
      (f.kind = 1 → takes (.requestFlit p f)) ∧ (f.kind = 2 → takes (.responseFlit p f)) ∧ (f.kind = 3 → takes (.bulkWriteFlit p f)) ∧
      (f.kind = 5 → takes (.lullEntryFlit p f)) ∧ (f.kind = 6 → takes (.planWriteFlit p f)) ∧
      (f.kind = 7 → f.dst = s.self → takes (.keySwitchMarker p f)) ∧
      (8 ≤ f.kind → f.kind ≤ 15 → takes (.reservedKindFlit p f))) ∧
    (comes s f → flitRoute f = true → g.kind = 4 → flitRoute g = false → g.dst = f.dst → g.relay = f.relay →
      comes (s.receive p f) g → exec (.multicastFlit p f g) s = .next ((s.receive p f).receive p g)) ∧
    ((s.keySlot 1 p (slot f)).isNone = true → s.authentic p f = false) ∧
    (∀ k q, s.keySlot 1 p (slot f) = some k → q < 15 →
      (f.body, f.tag) = gcmSeal k.key (flitIv k.lid x.peer q f) (bytesLE 16 (flitHeader f).toNat) f.payload →
      s.authentic p f = true) ∧
    (s.authentic p f = false → ((s.receive p f).port p).authf = x.authf + 1 ∧ ((s.receive p f).port p).rxNext = x.rxNext) ∧
    (s.authentic p f = true → slot f = x.rxSlot →
      (f.ctr < x.rxNext → s.receive p f = s.setPort p { x with ackOwed := true, nakOwed := x.nakOwed || !x.early.isEmpty }) ∧
      (x.rxNext < f.ctr → (∀ h ∈ x.early, h.ctr ≠ f.ctr) → x.early.length < 64 →
        s.receive p f = s.setPort p { x with early := x.early ++ [f], nakOwed := true }) ∧
      (f.ctr = x.rxNext → x.early = [] → 8 ≤ f.kind → ((s.receive p f).port p).rxNext = x.rxNext + 1 ∧
        ((s.receive p f).port p).perr = x.perr + 1 ∧ ((s.receive p f).port p).ackOwed = true) ∧
      (f.ctr = x.rxNext → x.early = [] → f.dst = s.self → f.kind = 7 → ((s.receive p f).port p).rxNext = 0 ∧
        ((s.receive p f).port p).rxSlot = 1 - x.rxSlot)) ∧
    (p < 15 → f.kind = 0 →
      (s.authentic p f = false → exec (.controlFlit p f) s = .next (s.refuseFlit p)) ∧
      (s.authentic p f = true →
        let seen := (x.ctlSeen.getD (slot f) none).any fun n => f.ctr ≤ n
        let u := s.setPort p { x with ctlSeen := x.ctlSeen.set (slot f) (some f.ctr) }
        (seen = true → exec (.controlFlit p f) s = .next s) ∧
        (seen = false → f.relay = false → exec (.controlFlit p f) s = .next (u.obeyControl p f)) ∧
        (seen = false → f.relay = true → f.dst ≠ s.self → exec (.controlFlit p f) s = .next (u.relayControl f)) ∧
        (seen = false → f.relay = true → f.dst = s.self → ∀ c, (u.portsOf f.src)[leNat ((f.payload.drop 2).take 6)]? = some c →
          exec (.controlFlit p f) s = .next (u.obeyControl c f)))) ∧
    (p < 15 → ∃ t, exec (.unauthenticatedFlit p) s = .next t ∧ (t.port p).authf = x.authf + 1 ∧ t.mem = s.mem)

/-- R339 to R345, R348, R351: ports send, send again, and receive in order. The model's own choice or reading, no rule: log
entries 9 and 48: the cipher and its tag are opaque, control flits act while a link is down. -/
def Obligations.PortsCarryFlitsInOrder : Prop :=
  Sys2Proof.Claims.PortsSendAndResend ∧ Sys2Proof.Claims.PortsReceiveInOrder

/-- R314, R315, R349, R355: a device to which no path is left is absent from then on; a regrant raises grants toward its device
alone; a core outside the allowance set returns its grant; the first becalmed warp wakes once its allowance suffices; a sealed
packet that names a plan instance arrives there, any other is refused; the instances of an unreachable peer end. The model's own
choice or reading, no rule: log entries 41 and 49: a core's interest in a peer, what a lost device ends. -/
def Obligations.HubGrantsAllowanceAndLosesDevices : Prop :=
  ∀ (dev core : Nat) (s : State),
    let away := dev ≠ s.self ∧ dev < 16 ∧ s.present.getLsbD dev = true
    let grant := fun (s : State) (c d : Nat) => SMap.getD (s.core c).sa d 0
    (away → s.pathPorts dev = [] → ∃ t, exec (.deviceLost dev) s = .next t ∧ t.present.getLsbD dev = false) ∧
    (away → ∃ t, exec (.allowanceRegrant dev) s = .next t ∧ t.mem = s.mem ∧ t.warps = s.warps ∧
      ∀ c, grant s c dev ≤ grant t c dev ∧ ∀ d, d ≠ dev → grant t c d = grant s c d) ∧
    ((∀ e ∈ s.warps, e.1 / 64 = core → e.2.wait ≠ some (.becalmed dev)) →
      (∀ f ∈ SMap.getD s.hubq dev [], f.draw = true → f.core ≠ core) →
      (∃ n, SMap.get? (s.core core).interest dev = some n ∧ 320 ≤ n) →
      ∃ t, exec (.grantReturn dev core) s = .next t ∧ grant t core dev = 0 ∧ t.mem = s.mem ∧ t.warps = s.warps) ∧
    (∀ key rest w, (s.pool dev).becalmed.filter (s.stillBecalmed dev) = key :: rest →
      let k := key % 2 ^ 20
      SMap.get? s.warps k = some w →
      s.promised dev (k / 64) + (if 2 ^ 20 ≤ key then 2 else 1) ≤ s.allowance (k / 64) dev →
      ∃ t, exec (.becalmedWake dev) s = .next t ∧ t.warp (k / 64) (k % 64) = some { w with wait := none } ∧
        key ∉ (t.pool dev).becalmed ∧ (key, w.issues) ∈ (t.pool dev).woken ∧ t.mem = s.mem) ∧
    (∀ m : UePacket, s.ueReady = true →
      (m.namesPlan = false → ∃ t, exec (.uePacketReceive m) s = .next t ∧ t.insts = s.insts ∧ t.mem = s.mem) ∧
      (m.namesPlan = true → m.isWrite = true → m.data.length ≤ 4096 → ∃ u, exec (.uePacketReceive m) s = .next (State.planArrive u
        { planid := m.planid, tag := m.tag, sig := m.sig, doff := m.doff, data := m.data, label := none, line := m.doff / 128 * 128
          ctx := 0, credit := none, rx := none, work := none, put := false }) ∧
        u.insts = s.insts ∧ u.mem = s.mem)) ∧
    (∀ peer : DWord, ∃ t, exec (.uePeerUnreachable peer) s = .next t ∧ ∀ x ∈ t.insts, ∀ a ∈ x.2.plan.peers, a.setWidth 64 ≠ peer)

/-! ### The device's registers, power, translations -/

/-- R428, R429, R357, R422: a write of a plain register is read back; an access of another size or alignment changes nothing; a
bit of `SV_DBL` written as 1 is cleared; a function that is ready sets its bit of `BU_READY`; `DXP_CTL` starts training or takes
the link down; `HX_CTL` takes cache and mem only while ide reads 1. The model's own choice or reading, no rule: log entries 27
and 31: readiness of ports, values that a register does not take. -/
def Obligations.RegistersTakeTheirWrites : Prop :=
  ∀ (o n : Nat) (v : DWord) (x : Word) (s : State),
    (∀ o ∈ [0x2048, 0x2314, 0x2710, 0x2814], ∃ t, exec (.registerWrite o 4 v) s = .next t ∧
      t.readReg o 4 = (v.setWidth 32).setWidth 64 ∧ t.mem = s.mem ∧ t.warps = s.warps) ∧
    (∀ o ∈ [0x2000, 0x2040, 0x2200, 0x2308, 0x2800], ∃ t, exec (.registerWrite o 8 v) s = .next t ∧
      t.readReg o 8 = v &&& 0xFFFFFFFFFFFFF000 ∧ t.mem = s.mem ∧ t.warps = s.warps) ∧
    ((n ≠ 4 → n ≠ 8 → exec (.registerWrite o n v) s = .next s) ∧
      (n = 4 ∨ n = 8 → o % n ≠ 0 → exec (.registerWrite o n v) s = .next s)) ∧
    (o < 192 → ∃ t, exec (.registerWrite (0x3000 + 8 * o) 8 v) s = .next t ∧
      t.reg (0x3000 + 8 * o) 0 = s.reg (0x3000 + 8 * o) 0 &&& ~~~v) ∧
    ((s.reg 0x30000 0).getLsbD n = false → Config.fusedOff.getLsbD n = false → s.mayReady n = true →
      ∃ t, exec (.functionReady n) s = .next t ∧ (t.reg 0x30000 0).getLsbD n = true ∧ 4 ∈ t.msix) ∧
    (n < 15 → ∃ t, exec (.dxpCtlWrite n x) s = .next t ∧ (t.port n).en = x.getLsbD 7 ∧ (t.port n).pv = x.getLsbD 6 ∧
      (t.port n).peer = x.toNat % 16 ∧ (t.port n).link = if x.getLsbD 7 = (s.port n).en then (s.port n).link
        else if x.getLsbD 7 then 1 else 0) ∧
    (15 ≤ n → exec (.dxpCtlWrite n x) s = .next s) ∧
    (let ide := s.ide.1 && s.ide.2
     (ide = false → (x.getLsbD 31 = true ∨ x.getLsbD 30 = true) → exec (.hxCtlWrite x) s = .next s) ∧
      ((ide = true ∨ (x.getLsbD 31 = false ∧ x.getLsbD 30 = false)) → ∃ t, exec (.hxCtlWrite x) s = .next t ∧ t.mem = s.mem ∧
        (t.reg 0x2500 0).getLsbD 31 = x.getLsbD 31 ∧ (t.reg 0x2500 0).getLsbD 30 = x.getLsbD 30 ∧
        (t.reg 0x2500 0).getLsbD 28 = ((s.reg 0x2500 0).getLsbD 28 && !x.getLsbD 28)))

/-- R387, R388, R390, R391, R404, R393: a new split waits and then takes its ways, its bytes reading zero; `PM_CORE` bounds and
moves the step, which the power manager may lower; an invalidation drops the context's cached translations of its range and ends
when no entry uses an old one; a spill area moves into one that is no smaller, or sets err. The model's own choice or reading,
no rule: log entries 25, 26, 30 and 61: TR_INV and its end, bounds of the step, what a split waits for. -/
def Obligations.CoresAndTranslationsAreManaged : Prop :=
  ∀ (core n : Nat) (v : Word) (a : DWord) (s : State),
    let x := s.core core
    let w := v.toNat % 16
    (core < 192 → w ≤ 10 → x.newWays = none → ∃ t, exec (.carveOutWrite core v) s = .next t ∧ (t.core core).newWays = some w ∧
      (t.core core).ways = x.ways ∧ t.mem = s.mem ∧ t.scratch = s.scratch) ∧
    ((10 < w ∨ x.newWays.isSome = true) → exec (.carveOutWrite core v) s = .next s) ∧
    (x.newWays = some n →
      let lo := 65536 * min n x.ways
      let hi := 65536 * max n x.ways
      (x.ways ≤ n ∨ ∀ e ∈ s.blocksOn core, hi ≤ e.2.base ∨ e.2.base + e.2.size ≤ lo) →
      (n ≤ x.ways ∨ s.pinsFit core (12 - n) = true) →
      ∃ t, exec (.carveOutDone core) s = .next t ∧ (t.core core).ways = n ∧ (t.core core).newWays = none ∧ t.mem = s.mem ∧
        ∀ k, Memory.read t.scratch k =
          if scratchKey core lo ≤ k ∧ k < scratchKey core hi then 0 else Memory.read s.scratch k) ∧
    (let hi := v.toNat / 2 ^ 26 % 64
     let lo := v.toNat / 2 ^ 20 % 64
     (core < 192 → lo ≤ hi → ∃ t, exec (.pmCoreWrite core v) s = .next t ∧ (t.core core).hi = hi ∧ (t.core core).lo = lo ∧
       (t.core core).step = min 32 (max lo (min hi x.step)) ∧ t.mem = s.mem) ∧
     (hi < lo → exec (.pmCoreWrite core v) s = .next s)) ∧
    (core < 192 → 0 < n → n ≤ x.step → ∃ t, exec (.powerManagerLimit core n) s = .next t ∧ (t.core core).step = x.step - n ∧
      t.mem = s.mem) ∧
    (s.inval.isSome = true → exec (.tlbInvalidate a) s = .next s) ∧
    (s.inval = none →
      let ctx := (s.reg 0x2018 0).toNat % 4096
      let r := invRange a.toNat
      ∃ t, exec (.tlbInvalidate a) s = .next t ∧ t.inval = some (ctx, r.1, r.2, s.nextEntry) ∧ t.mem = s.mem ∧
        ∀ e ∈ t.tlb, e.ctx = ctx → e.va + 2 ^ e.lgsz ≤ r.1 ∨ r.1 + r.2 ≤ e.va) ∧
    (∀ ctx lo len before, s.inval = some (ctx, lo, len, before) → s.oldAccess ctx lo len before = false →
      exec .tlbInvalidateDone s = .next { s with inval := none }) ∧
    (let ctx := v.toNat % 4096
     let recs := (s.reg 0x2048 0).toNat
     let base := (s.reg 0x2040 0).toNat / 4096 * 4096
     v.toNat / 2 ^ 28 % 4 = 1 →
      (recs < s.spillRecs ctx → ∃ t, exec (.spillAreaMove v) s = .next t ∧ t.reg 0x204C 0 = BitVec.ofNat 64 (ctx + 2 ^ 30) ∧
        t.mem = s.mem) ∧
      ∀ u, s.spillRecs ctx ≤ recs → overlaps base (256 * recs) (s.spillBase ctx) (256 * s.spillRecs ctx) = false →
        base / 2 ^ 48 = s.self → paExists base = true → paExists (base + 256 * recs - 1) = true →
        s.moveRecords (s.spillBase ctx) base recs (s.spillValid (s.spillBase ctx) (s.spillRecs ctx)) = some u →
        ∃ t, exec (.spillAreaMove v) s = .next t ∧ t.reg 0x204C 0 = BitVec.ofNat 64 ctx ∧ t.mem = (u.setSpillArea ctx base recs).mem)

/-- R408 to R410: a request stops what it names and is busy, or sets err where it names no launch; while one runs another is
ignored; once everything named has settled the records are written, or the request fails where `PE_LEN` is too small, and it is
over either way; a restore of a record list that is malformed sets err and changes nothing else. The model's own choice or
reading, no rule: log entries 10, 22, 23 and 24: opaque records, what starts a request, when a save completes, what a restore
refuses. -/
def Obligations.ContextsArePreemptedAndRestored : Prop :=
  ∀ (v : Word) (a : DWord) (s : State),
    let started := fun (req ctx : Nat) (res : Res) =>
      let named := s.launches.filter fun e => !e.2.complete && if req % 2 = 1 then e.2.ctx = ctx else e.2.va.toNat = req / 2 * 2
      if named = [] ∧ req % 2 = 0 then ∃ t, res = .next t ∧ t.preempt = none ∧ (t.reg 0x2310 0).getLsbD 30 = true
      else ∃ t p, res = .next t ∧ t.preempt = some p ∧ p.launches = named.map (·.1) ∧ p.whole = decide (req % 2 = 1) ∧
        (t.reg 0x2310 0).getLsbD 31 = true ∧ t.mem = s.mem
    let op := v.toNat / 2 ^ 28 % 4
    let ctx := (s.reg 0x2310 0).toNat % 4096
    let len := (s.reg 0x2314 0).toNat
    (s.preempt.isSome = true → exec (.preemptRequest a) s = .next s ∧ (op = 1 → exec (.contextSave v) s = .next s) ∧
      (op = 2 → exec (.contextRestore v) s = .next s)) ∧
    (s.preempt = none → started a.toNat ctx (exec (.preemptRequest a) s)) ∧
    (s.preempt = none → op = 1 → started (s.reg 0x2300 0).toNat (v.toNat % 4096) (exec (.contextSave v) s)) ∧
    (∀ p, s.preempt = some p → s.saveReady p = true → p.whole = false →
      let u := (s.namedBlocks p).foldl (fun s e => s.forwardBlock e.1) s
      ∃ t, exec .preemptComplete s = .next t ∧ t.preempt = none ∧ (t.reg 0x2310 0).getLsbD 31 = false ∧
        ((u.reg 0x2314 0).toNat < recordsLength (u.recordsOf p) → (t.reg 0x2310 0).getLsbD 30 = true) ∧
        (recordsLength (u.recordsOf p) ≤ (u.reg 0x2314 0).toNat → (t.reg 0x2310 0).getLsbD 30 = false ∧
          t.reg 0x2314 0 = BitVec.ofNat 64 (recordsLength (u.recordsOf p)) ∧
          ∀ e ∈ t.warps, ∀ b ∈ u.namedBlocks p, e.2.block ≠ b.1)) ∧
    (s.preempt = none → op = 2 →
      let hs := s.headers (len / 16 + 1) ((s.reg 0x2308 0).toNat / 4096 * 4096) len
      (hs = none → exec (.contextRestore v) s = .next (s.setPeCtl false true (v.toNat % 4096))) ∧
      ∀ t, (hs.bind s.readRecords).bind s.restoreList = some t →
        exec (.contextRestore v) s = .next (t.setPeCtl false false (v.toNat % 4096)))

/-! ### Coherence -/

/-- R412, R413, R415, R417, R419, R420: directory requests leave the core's copy in its tag; a sync line's update reaches every
sharer and each acknowledgement is counted; a remote read makes a page shared, a remote write lends it where it may be lent; a
page of another device that its home takes back is on loan no more; a recall ends with its last acknowledgement. The model's own
choice or reading, no rule: log entry 39: loans end when a page is taken back. -/
def Obligations.LinesAndPagesChangeHands : Prop :=
  ∀ (core slot line dev page : Nat) (s : State),
    let tagged := fun (req : DirReq) (ok : Bool) => ∃ t, exec (.directoryRequest core line req) s = .next t ∧ (t.tag core line).valid = ok
    let loc : Loc := .mem (line * 128)
    let other : Loc := .mem (line * 128 + 64)
    let may := s.readable loc = true ∧ s.writable loc = true ∧ s.writable other = true
    let way := s.noWay core [line] = none
    let st := (SMap.get? s.pages page).map (fun (p : Page) => p.state)
    let quiet := (∀ r ∈ s.recalls, r.page ≠ page) ∧ s.pages.length < 65536
    let sync := (linesOf (s.self * 2 ^ 36 + page)).any s.lineSync
    let becomes := fun (req : PageReq) (p : PageState) => ∃ t, exec (.pageRequest dev page req) s = .next t ∧
      (SMap.get? t.pages page).map (fun (p : Page) => p.state) = some p ∧ t.mem = s.mem
    (line / 2 ^ 41 = s.self → ((s.pinned core).contains line = false → tagged .evict false) ∧ (way → s.readable loc = true → s.readable other = true → tagged .read true) ∧
      (way → may → s.lineSync line = false → tagged .write true) ∧
      (may → ∃ t, exec (.directoryRequest core line .atomic) s = .next t ∧ SMap.get? t.dir line = none)) ∧
    (∀ (w : Warp) (x : Window) (rest : List Window), core < 192 → s.warp core slot = some w → w.windows = x :: rest →
      x.isClosed = true → w.released x.serial = true → s.unwritable core x = none → line ∈ x.syncLines → (∀ u ∈ x.updates, u.1 ≠ line) →
      s.busyLine line = false → line / 2 ^ 41 = s.self → s.hostBlocks line true = none → s.sharers line = [] →
      (∀ e ∈ s.warps, e.2.victim (.line line) = none) →
      ∃ t u, exec (.syncUpdate core slot line) s = .next t ∧ SMap.get? t.updates line = some u ∧ u.owed = s.coresWith line ∧
        u.core = core ∧ u.slot = slot) ∧
    (∀ u, SMap.get? s.updates line = some u → u.core < 192 → dev ∈ u.owed →
      ∃ t, exec (.syncUpdateAck line dev) s = .next t ∧ SMap.get? t.updates line = some { u with owed := u.owed.erase dev } ∧
        t.mem = s.mem) ∧
    (quiet → (st = none → becomes .read (.shared [dev])) ∧
      (∀ xs, st = some (.shared xs) → dev ∉ xs → becomes .read (.shared (xs ++ [dev]))) ∧
      (st = none → sync = false → s.lends = true → becomes .write (.lent dev)) ∧
      (st = none → (sync = true ∨ s.lends = false) → exec (.pageRequest dev page .write) s = .next s) ∧
      (st = none → exec (.pageRequest dev page .atomic) s = .next s)) ∧
    (page / 2 ^ 36 ≠ s.self → s.mayRecall page = true → (linesOf page).any s.hubBit = false → ∃ t, exec (.pageRecall page) s = .next t ∧ SMap.get? t.loans page = none ∧
      t.mem = s.mem) ∧
    (∀ (r : Recall) (d : Nat), page / 2 ^ 36 = s.self → s.recalls.find? (fun r => r.page = page % 2 ^ 36 && r.owed.contains dev) = some r →
      d ∈ r.owed.erase dev → ∃ t, exec (.recallAck dev page) s = .next t ∧ t.mem = s.mem ∧
        ∀ x ∈ t.recalls, x.page = page % 2 ^ 36 → x.owed = r.owed.erase dev) ∧
    (∀ value : DWord, (∀ r ∈ s.recalls, r.driver = false ∧ r.page ≠ value.toNat / 2 ^ 12 % 2 ^ 36) →
      match (SMap.get? s.pages (value.toNat / 2 ^ 12 % 2 ^ 36)).map (fun (p : Page) => p.state) with
      | none => exec (.driverRecall value) s = .next s
      | some p => exec (.driverRecall value) s = .next (s.startRecall (value.toNat / 2 ^ 12 % 2 ^ 36) p.holders none true)) ∧
    (∀ value : DWord, (∃ r ∈ s.recalls, r.driver = true) → exec (.driverRecall value) s = .next s)

/-- R423 to R427: a request of the host outside its window has no effect; a shared read leaves the sector S at the host, a write
its bytes in memory (while no dirty map is on, R441) and the sector with no holder; a snoop takes the sector, `SnpCur` nothing;
a back-invalidation's answer settles the host's state; a response gives the sector that was asked for; a link that goes down
leaves no host state behind. The model's own choice or reading, no rule: log entry 38: a response of E for a write becomes M. -/
def Obligations.HostAndDeviceShareMemory : Prop :=
  ∀ (pa sector : Nat) (s : State) (bs : List Byte),
    let a := s.self * 2 ^ 48 + pa % 2 ^ 48 / 64 * 64
    let k := pa % 2 ^ 48 / 64
    let open_ := (s.reg 0x2500 0).getLsbD 30 = true ∧ s.inWindow pa = true ∧ s.busyLine (a / 128) = false ∧
      SMap.get? s.pages (a % 2 ^ 48 / 4096) = none
    (∀ op, ((s.reg 0x2500 0).getLsbD 30 = false ∨ s.inWindow pa = false) → exec (.hostMemRequest op pa) s = .next s) ∧
    (open_ → (∃ t, exec (.hostMemRequest .readShared pa) s = .next t ∧ SMap.get? t.hostSec k = some .s ∧ t.mem = s.mem) ∧
      (∃ t, exec (.hostMemRequest .readOwn pa) s = .next t ∧ SMap.get? t.hostSec k = some .e ∧ t.mem = s.mem) ∧
      (bs.length = 64 → (∀ n : Nat, n < 4 → (s.reg (0x2600 + 16 * n) 0).toNat % 2 = 0) →
        ∃ t, exec (.hostMemRequest (.write bs) pa) s = .next t ∧ SMap.get? t.hostSec k = none ∧ t.mem = Memory.write s.mem a bs)) ∧
    (exec (.hostSnoop .cur sector) s = .next s ∧ ∀ kind, kind ≠ .cur → ∃ t, exec (.hostSnoop kind sector) s = .next t ∧
      SMap.get? t.held (2 ^ 46 + sector) = none ∧ t.mem = s.mem) ∧
    (∀ r, s.backInv.find? (fun r => r.1 = sector) = some r → sector < 2 ^ 42 → s.self < 16 →
      ∃ t, exec (.backInvalidateResponse sector none) s = .next t ∧
        SMap.get? t.hostSec sector = if r.2 then none else some .s) ∧
    (∀ grant, grant ≠ .i → (∃ r ∈ s.wanted, r.1 = 2 ^ 46 + sector) → bs.length = 64 →
      let owned := grant == .e && s.wanted.any fun r => r.1 = 2 ^ 46 + sector && r.2
      exec (.cxlCacheResponse sector grant bs) s = .next
        (((s.putBytes (.host (sector * 64)) bs).landLine (.host (sector * 64)) (if owned then .m else grant)).retryAll)) ∧
    (∃ t, exec .hostLinkDown s = .next t ∧ t.hostSec = [] ∧ (t.reg 0x2500 0).getLsbD 28 = true ∧
      (t.reg 0x2500 0).getLsbD 31 = false ∧ (t.reg 0x2500 0).getLsbD 30 = false ∧ t.ide = (false, false))

/-! ### Keys, plans, snapshots, pre-copy, power -/

/-- R305, R432 to R436: a wrapped key that unwraps goes into its empty slot, fresh; a key erased is gone, but for the active
send slot's; three failed authentications in a row raise the alarm, which erases every key; a session allows a wrapping key and
an IDE stream; a plan whose checks pass fills its slot, one that fails sets err; a slot whose plan runs no instance unloads. The
model's own choice or reading, no rule: log entries 9, 28 and 29: unwrapping is an opaque function, what an alarm does, when key
commands fail. -/
def Obligations.KeysAndPlansAreLoadedAndErased : Prop :=
  ∀ (cmd : Word) (slot : Fin 64) (v : DWord) (s : State),
    let c := cmd.toNat
    let cls := c / 2 ^ 26 % 4
    let index := c / 2 ^ 22 % 16
    let ks := c / 2 ^ 21 % 2
    let op := c / 2 ^ 28 % 4
    let failed := fun (i : Instr) => ∃ t, exec i s = .next t ∧ (t.reg 0x40000 0).getLsbD 30 = true ∧ t.keys = s.keys
    (op = 1 → (keyPlace cls index = false ∨ (s.keySlot cls index ks).isSome = true ∨ s.alarmed = true ∨ s.kek = none) →
      failed (.keyLoad cmd)) ∧
    (∀ kek key, op = 1 → keyPlace cls index = true → s.keySlot cls index ks = none → s.alarmed = false → s.kek = some kek →
      Config.keyUnwrap kek s.wrapped = some key → ∃ t k, exec (.keyLoad cmd) s = .next t ∧ t.keySlot cls index ks = some k ∧
        k.key = key ∧ k.fresh = true ∧ k.lid = (s.reg 0x40008 0).toNat % 2 ^ 24 ∧ (t.reg 0x40000 0).getLsbD 30 = false) ∧
    (op = 2 → keyPlace cls index = true → cls ≠ 0 → ∃ t, exec (.keyErase cmd) s = .next t ∧ t.keySlot cls index ks = none ∧
      (t.reg 0x40000 0).getLsbD 30 = false) ∧
    (op = 2 → cls = 0 → ks = (s.port index).txSlot → failed (.keyErase cmd)) ∧
    (∀ cause, ∃ t, exec (.securityAlarm cause) s = .next t ∧ t.keys = [] ∧ t.kek = none ∧ (t.reg 0x40080 0).getLsbD 31 = true ∧
      (t.reg 0x40080 0).getLsbD cause.val = true) ∧
    ((∃ t, exec (.doeRequest (.session true)) s = .next t ∧ t.spdm = (0, true)) ∧
      (s.spdm.1 < 2 → exec (.doeRequest (.session false)) s = .next { s with spdm := (s.spdm.1 + 1, s.spdm.2) }) ∧
      (2 ≤ s.spdm.1 → ∃ t, exec (.doeRequest (.session false)) s = .next t ∧ t.keys = [] ∧
        (t.reg 0x40080 0).getLsbD 3 = true) ∧
      (∀ kek, s.spdm.2 = true → exec (.doeRequest (.wrapKey kek)) s = .next { s with kek := some kek }) ∧
      (∀ up, s.spdm.2 = true → (s.reg 0x30000 0).getLsbD 39 = true →
        exec (.doeRequest (.ideStream true up)) s = .next { s with ide := (s.ide.1, up) })) ∧
    (let base := v.toNat / 4096 * 4096
     let others := s.plans.filter fun p => p.1 != slot.val
     let r := fun (t : State) => t.reg (planSlotReg slot.val) 0
     (planOf base (fun a n => s.memNat (base + a) n) = none → ∃ t, exec (.planLoad slot v) s = .next t ∧
       SMap.get? t.plans slot.val = none ∧ (r t).getLsbD 0 = false ∧ (r t).getLsbD 1 = true) ∧
     ∀ p, planOf base (fun a n => s.memNat (base + a) n) = some p → (∀ x ∈ others, x.2.planid ≠ p.planid) →
       p.work.length ≤ 65536 - others.foldl (fun n p => n + p.2.work.length) 0 →
       ∃ t, exec (.planLoad slot v) s = .next t ∧ SMap.get? t.plans slot.val = some p ∧ (r t).getLsbD 0 = true ∧
         (r t).getLsbD 1 = false) ∧
    (∀ p, SMap.get? s.plans slot.val = some p →
      (s.planRuns p.planid = true → exec (.planUnload slot v) s = .next s) ∧
      (s.planRuns p.planid = false → ∃ t, exec (.planUnload slot v) s = .next t ∧ SMap.get? t.plans slot.val = none))

/-- R437 to R439: a trigger of an enabled source takes the next sequence number while no snapshot is being distributed, one of a
disabled source is ignored; each block latches once and writes its record in its place; when all have latched the distribution
ends, and `SN_DONE` takes the number. The model's own choice or reading, no rule: log entries 34 and 35: payloads the model does
not count are free, what an overlapping trigger does. -/
def Obligations.SnapshotsLatchEveryBlock : Prop :=
  ∀ (src : SnapSource) (tag : BitVec 12) (core block : Nat) (v : Word) (s : State),
    let code := snapCode src
    let next := fun (code tag core : Nat) (res : Res) =>
      let seq := BitVec.ofNat 32 ((s.reg 0x50018 0).toNat + 1)
      ((s.reg 0x50000 0x3F).getLsbD code = false → res = .next s) ∧
      ((s.reg 0x50000 0x3F).getLsbD code = true → s.snap = none → ∃ t, res = .next t ∧ t.reg 0x50018 0 = seq.setWidth 64 ∧
        t.snap = some { seq := seq, src := code, tag := tag, core := core, latched := [], spread := true } ∧ t.mem = s.mem)
    next code (if code ≤ 1 then tag.toNat else 0) (if code = 0 then core else 0) (exec (.snapshotTrigger src tag core) s) ∧
    next 1 (v.toNat % 4096) 0 (exec (.snapshotHostTrigger v) s) ∧
    (∀ p, s.snap = some p → block ∈ snapBlocks → block ∉ p.latched →
      let base := (s.reg 0x50008 0).toNat / 2 ^ 17 * 2 ^ 17
      (base = 0 ∨ s.missingPiece true (base + 64 * block) (s.snapRecord p block).length = none) →
      ∃ t, exec (.snapshotLatch block) s = .next t ∧ t.snap = some { p with latched := p.latched ++ [block] } ∧
        (base = 0 → t.mem = s.mem) ∧
        (base ≠ 0 → (∀ n : Nat, n < 4 → (s.reg (0x2600 + 16 * n) 0).toNat % 2 = 0) →
          t.mem = Memory.write s.mem (base + 64 * block) (s.snapRecord p block))) ∧
    (∀ p, s.snap = some p → (∀ b ∈ snapBlocks, b ∈ p.latched) →
      (p.spread = true → ∃ t, exec .snapshotDistributionEnd s = .next t ∧ t.mem = s.mem ∧
        t.snap = if (s.reg 0x5001C 0).toNat = p.seq.toNat then none else some { p with spread := false }) ∧
      ((s.reg 0x5001C 0).toNat ≠ p.seq.toNat → ∃ t, exec .snapshotDone s = .next t ∧ t.reg 0x5001C 0 = p.seq.setWidth 64 ∧
        7 ∈ t.msix ∧ t.snap = if p.spread then some p else none))

/-- R431, R440 to R444, R448: a pass counts itself, or ends early without a key; it exchanges the bitmap words of its ranges
with 0 one by one and sends two records for each bit that was set, under counters that rise by one; it ends when all of them
have been sent and acknowledged, or early; an accepted record is written in its place, any other counts; the lifetime image goes
to its address; a commit copies the counters to flash, from where they return after a loss of power; reset keeps memory and
counters. The model's own choice or reading, no rule: log entries 36 and 37: a pass is one step, what a reset keeps. -/
def Obligations.PrecopyPowerAndReset : Prop :=
  ∀ (v : Word) (s : State),
    let op := v.toNat / 2 ^ 28 % 4
    let key := s.keySlot 3 0 (v.toNat / 2 ^ 21 % 2)
    let port := v.toNat / 2 ^ 22 % 4
    let off := ∀ n : Nat, n < 4 → (s.reg (0x2600 + 16 * n) 0).toNat % 2 = 0
    let image := (s.reg 0x2908 0).toNat / 16 * 16
    (op = 1 → s.pass.isSome = true → exec (.precopyPass v) s = .next s) ∧
    (op = 1 → s.pass = none → ∃ t, exec (.precopyPass v) s = .next t ∧
      t.reg 0x2720 0 = BitVec.ofNat 64 (((s.reg 0x2720 0).toNat + 1) % 2 ^ 32) ∧
      ((key = none ∨ (s.reg 0x30000 0).getLsbD (42 + port) = false) → t.pass = none ∧ (t.reg 0x2700 0).getLsbD 30 = true ∧ t.mem = s.mem) ∧
      (key.isSome = true → (s.reg 0x30000 0).getLsbD (42 + port) = true → (t.reg 0x2700 0).getLsbD 31 = true ∧ t.mem = s.mem ∧
        t.pass = some { ctl := v.toNat, pos := (0, 0), halves := [], records := [] })) ∧
    (∀ p k, s.pass = some p → s.passKey p.ctl = some k →
      let slot := p.ctl / 2 ^ 21 % 2
      (∀ n h rest, p.halves = (n, h) :: rest → s.missingPiece false (s.self * 2 ^ 48 + (s.track n).2.1 + 2048 * h) 2048 = none →
        ∃ t, passStep s = .next t ∧ t.mem = s.mem ∧
        SMap.getD t.pcCtr slot 0 = SMap.getD s.pcCtr slot 0 + 1 ∧
        ∃ q r, t.pass = some q ∧ q.halves = rest ∧ q.records = p.records ++ [r] ∧ r.ctr = SMap.getD s.pcCtr slot 0 ∧
          r.range.val = n % 4 ∧ r.offset = BitVec.ofNat 64 (2048 * h)) ∧
      (∀ n w, p.halves = [] → s.nextWord p = some (n, w) → s.missingPiece true ((s.track n).1 + 8 * w) 8 = none →
        ∃ t, passStep s = .next t ∧
        t.mem = Memory.write s.mem ((s.track n).1 + 8 * w) (List.replicate 8 0) ∧
        ∃ q, t.pass = some q ∧ q.pos = (n, w + 1) ∧ q.records = p.records ∧
          q.halves = (s.dirtyBits n w).flatMap fun b => [(n, 2 * (64 * w + b)), (n, 2 * (64 * w + b) + 1)])) ∧
    (∀ p, s.pass = some p →
      (p.halves = [] → s.nextWord p = none → ∃ t, exec (.precopyPassEnd true) s = .next t ∧ t.pass = none ∧
        (t.reg 0x2700 0).getLsbD 31 = false ∧ (t.reg 0x2700 0).getLsbD 30 = false ∧ t.mem = s.mem) ∧
      ∃ t, exec (.precopyPassEnd false) s = .next t ∧ t.pass = none ∧ (t.reg 0x2700 0).getLsbD 30 = true) ∧
    (∀ r : PrecopyRecord, (s.reg 0x2700 0).getLsbD 20 = true →
      (s.openRecord r = none → exec (.precopyRecordReceive r) s = .next (s.countLife 105)) ∧
      let place := s.self * 2 ^ 48 + (s.track r.range.val).2.1 + r.offset.toNat
      ∀ bs, s.openRecord r = some bs → off → s.missingPiece true place bs.length = none →
        ∃ t, exec (.precopyRecordReceive r) s = .next t ∧ t.mem = Memory.write s.mem place bs) ∧
    (op = 1 → off → s.missingPiece true image s.lifeImage.length = none →
      ∃ t, exec (.lifetimeDump v) s = .next t ∧ t.mem = Memory.write s.mem image s.lifeImage) ∧
    (exec .lifetimeCommit s = .next { s with flash := s.life, commits := s.commits + 1 }) ∧
    (∃ t, exec .orderlyPowerDown s = .next t ∧ t.life = s.life ∧ t.flash = s.life ∧ t.commits = s.commits + 1 ∧ t.warps = [] ∧
      ∀ a, Memory.read t.mem a = if 2 ^ 53 ≤ a then Memory.read s.mem a else 0) ∧
    (∃ t, exec .powerLoss s = .next t ∧ t.life = s.flash ∧ t.flash = s.flash ∧ t.commits = s.commits ∧ t.warps = [] ∧ t.keys = []) ∧
    (∃ t, exec .reset s = .next t ∧ t.mem = s.mem ∧ t.life = s.life ∧ t.flash = s.flash ∧ t.warps = [] ∧ t.keys = [] ∧
      t.mmio = State.reset.mmio)

/-! ### Frames -/

namespace Sys2Proof.Claims

/-- What a register word of the issue under way leaves as it was: memory, scratchpads, device registers, engines, blocks, launches,
every other warp; and of its own warp, whose `w` it was, the `v` registers, accumulators, uniform registers, special registers, iterators,
chains, flags and modes, and in the lanes that do not issue every register. -/
def Kept (s : State) (cur : Cur) (w : Warp) (t : State) (v : Warp) : Prop :=
  t.mem = s.mem ∧ t.scratch = s.scratch ∧ t.mmio = s.mmio ∧ t.entries = s.entries ∧ t.blocks = s.blocks ∧ t.launches = s.launches ∧
  (∀ k, k ≠ warpKey cur.core cur.slot → SMap.get? t.warps k = SMap.get? s.warps k) ∧
  t.warp cur.core cur.slot = some v ∧ v.v = w.v ∧ v.acc = w.acc ∧ v.regs.s = w.regs.s ∧ v.regs.iters = w.regs.iters ∧
  v.regs.chains = w.regs.chains ∧ v.regs.tile = w.regs.tile ∧ v.regs.sat = w.regs.sat ∧ v.regs.fflags = w.regs.fflags ∧
  v.regs.rc = w.regs.rc ∧ v.regs.mshift = w.regs.mshift ∧ v.regs.phase = w.regs.phase ∧ v.trapinfo = w.trapinfo ∧
  v.super = w.super ∧ v.sbchk = w.sbchk ∧ v.rollbacks = w.rollbacks ∧
  ∀ l : Fin 32, cur.lanes[l] = false → v.regs.y[l] = w.regs.y[l] ∧ v.regs.threads[l] = w.regs.threads[l] ∧
    (∀ n, (v.regs.qRow n)[l] = (w.regs.qRow n)[l]) ∧ ∀ n, (v.regs.pRow n)[l] = (w.regs.pRow n)[l]

/-- The words whose one effect is a 32-bit result in d that sets no flag. -/
def plainWords : List Word3 :=
  int2.map (·.1) ++ bitWords.map (·.1) ++ packedWords.map (·.1) ++ laneMoves.map (·.1) ++
  [.imad, .sel, .push, .slideUp, .slideDown, fun h d a _ => .iabs h d a, fun h d a _ => .mov h d a, fun h d a _ => .clz h d a,
   fun h d a _ => .popc h d a, fun h d a _ => .unpklI16 h d a, fun h d a _ => .unpkhI16 h d a, fun h d a _ => .wredIadd h d a,
   fun h d a _ => .wredImin h d a, fun h d a _ => .wredImax h d a, fun h d a _ => .scanIadd h d a, fun h d a _ => .fclassF32 h d a]

end Sys2Proof.Claims

/-- R18, R149 to R152, R156, R171 to R178, R183: what a word with a 32-bit result leaves alone: every byte of memory, every register
but d and `y` in the lanes that issue, every predicate; the words of `plainWords` record no flag. An integer compare leaves every
`q` register and `y`, and every predicate but pd. -/
def Obligations.RegisterWordsLeaveTheRest : Prop :=
  ∀ (h : Hdr) (d a b : Near) (acc : Bool) (pd : Fin 16) (s t : State) (cur : Cur) (w w1 : Warp),
    let act := cur.before.active h cur.lanes
    let kept := fun (v : Warp) => Kept s cur w t v ∧ v.regs.p = w.regs.p ∧ ∀ n, n ≠ nearReg d → v.regs.qRow n = w.regs.qRow n
    (∀ r ∈ plainWords, Opens (r h d a b) 0 [] s cur w w1 → exec (r h d a b) s = .next t →
      ∃ v, kept v ∧ v.regs.sticky = w.regs.sticky) ∧
    (∀ r ∈ exactWords, Opens (r.word h d a b) 0 [] s cur w w1 → exec (r.word h d a b) s = .next t → ∃ v, kept v) ∧
    (∀ r ∈ float32, Opens (r.word h d a b) 0 [] s cur w w1 → snanTrap act (r.srcs d a b cur.before) = none →
      exec (r.word h d a b) s = .next t → ∃ v, kept v) ∧
    (∀ r ∈ intCompares, Opens (r.1 h acc pd a b) 0 [] s cur w w1 → exec (r.1 h acc pd a b) s = .next t →
      ∃ v, Kept s cur w t v ∧ v.regs.q = w.regs.q ∧ v.regs.y = w.regs.y ∧ v.regs.sticky = w.regs.sticky ∧
        ∀ n, n ≠ pd.val → v.regs.pRow n = w.regs.pRow n)

/-! ### Memory -/

/-- R2, R3, R78: a byte that has been written reads as written, every other byte as before; two memories in canonical form that
read alike are equal, so that equal memories are equal data; a number laid out by bytes, least significant first, reads back
modulo its width. The model's own choice or reading, no rule: log entry 5: the canonical form lists no zero byte. -/
def Obligations.MemoryReadsWhatWasWritten : Prop :=
  (∀ (m : Memory) (a x : Nat) (bs : List Byte), Memory.read (Memory.write m a bs) x =
    if a ≤ x then (bs[x - a]?).getD (Memory.read m x) else Memory.read m x) ∧
  (∀ m n : Memory, Memory.wf m = true → Memory.wf n = true → (∀ a, Memory.read m a = Memory.read n a) → m = n) ∧
  ∀ (m : Memory) (a k x : Nat), leNat (Memory.readN (Memory.write m a (bytesLE k x)) a k) = x % 2 ^ (8 * k)

/-- R431, R428: right after reset no byte of memory or of a scratchpad is listed, no warp, block, launch or operation is there,
no function is ready, no key, plan or saved context is held, and a read of a register that R429 gives no reset value answers
zero. That an unlisted byte reads zero is the model's choice (log entry 5). The model's own choice or reading, no rule: log
entries 4, 5, 37 and 70: reset values that the manual does not give. -/
def Obligations.ResetLeavesAnIdleDevice : Prop :=
  let r := State.reset
  MemoryOk r ∧ (∀ a, Memory.read r.mem a = 0) ∧ r.warps = [] ∧ r.blocks = [] ∧ r.launches = [] ∧ r.entries = [] ∧ r.keys = [] ∧
    r.plans = [] ∧ r.saved = [] ∧ r.snap = none ∧ r.preempt = none ∧ r.reg 0x30000 0 = 0 ∧
    (∀ c, (r.core c).step = 16 ∧ (r.core c).ways = 8 ∧ (r.core c).lo = 0 ∧ (r.core c).hi = 32) ∧
    ∀ p, (r.port p).en = false ∧ (r.port p).pv = false

/-- R78, R323: EVERY STEP KEEPS THE FORM OF MEMORY. Whatever the device does next, a device memory and scratchpads in canonical
form (addresses strictly rising, no zero byte listed) stay in it. The model's own choice or reading, no rule: log entry 5: the
canonical form is the model's own. -/
def Obligations.EveryStepKeepsTheFormOfMemory : Prop :=
  ∀ s t : State, MemoryOk s → step s = .next t → MemoryOk t

/-! ### Encodings -/

/-- R100 to R123: words written out from their encodings, and what they decode to; a word that R123 makes illegal is refused. -/
def Obligations.WordsDecodeAsTheirTablesSay : Prop :=
  let plain : Hdr := ⟨false, none, 0⟩
  decode [0x00019043] = .ok (.ffmaF32 plain (.q 4) (.q 2) (.q 3)) ∧
  decode [0x00701FFB] = .ok (.movi plain (.q 3) (-5)) ∧
  decode [0x007C0000] = .ok (.nop plain) ∧
  decode [0x0078CFFC] = .ok (.bhead plain 3 (-4)) ∧
  decode [0x007EC208] = .ok (.salloc plain (.q 4) (.q 2)) ∧
  decode [0x007ED200] = .ok (.sfree plain (.q 4)) ∧
  (∃ e, decode [0x007FF000] = .error e) ∧ decode [] = .error .noWord ∧
  -- a guard p3 with its complement, a stall of 2, the chain bit: header 1 1 0011 1 10
  decode [0xCF019043] = .ok (.ffmaF32 ⟨true, some (3, true), 2⟩ (.q 4) (.q 2) (.q 3)) ∧
  -- E = 0 with a guard number is refused (R101)
  decode [0x0C019043] = .error .header

/-- R100 to R122: DECODE AND ENCODE AGREE. Every instruction that words encode, with every operand, decodes from its own words,
whatever words follow; and what decodes is encoded by the words it was read from. -/
def Obligations.DecodeAndEncodeAgree : Prop :=
  (∀ (i : Instr) (more : List Word), i.encodable = true → decode (encode i ++ more) = .ok i) ∧
  ∀ (ws : List Word) (i : Instr), decode ws = .ok i → i.encodable = true ∧ ∃ more, ws = encode i ++ more

/-! ### A step runs the decoded instruction -/

namespace Sys2Proof.Claims

/-- The issue of warp (`core`, `slot`) of `s`, which is `w0` there, `delay` clocks after it could have issued, comes to the words `ws` of
the packet at its first program counter: it waits for nothing (R11), holds no first word of a pair, and is now `w`; its first candidate
(R14) is `a` and the next one `b`, the packet is fetched (R104, R105); `u` is the state from which the word issues. -/
structure Comes (s : State) (core slot delay : Nat) (w0 w : Warp) (a : Cand) (b : Option Cand) (ws : List Word) (u : State) : Prop where
  found : ∃ w1 w2 all s1, s.warp core slot = some w0 ∧ s.ready core slot w0 = some w1 ∧
    (∀ pc lanes r, w1.wait ≠ some (.pair pc lanes r)) ∧
    s1 = (s.setWarp core slot { w1 with clk := w1.clk + delay, waits := 0, urgent := false }).flushSteady core slot ∧
    s1.warp core slot = some w2 ∧
    (let at_ := w2.pastCrossings w2.cands
     w = { at_.1 with yielded := Lanes.all false } ∧ all = at_.2) ∧
    bestCand all = some a ∧ b = bestCand (all.filter fun c => c.pc != a.pc) ∧ u = s1.setWarp core slot w
  fetched : u.fetchPacket core w a.pc.packet = .packet ws

/-- The issue of `a`'s threads with the warp `w`. -/
def issueOf (core slot : Nat) (a : Cand) (w : Warp) : Cur :=
  { core := core, slot := slot, pc := a.pc, lanes := a.lanes, before := w, second := false, ended := .done }

/-- The end of an attempt to issue: where no issue cycle passed, what ranks the warp `w0` stands as before (R142, R389). -/
def attempted (core slot : Nat) (w0 : Warp) (r : Res) : Res :=
  match r with
  | .next t => .next (t.keepRank core slot w0)
  | r => r

end Sys2Proof.Claims

/-- R11 to R14, R104, R107, R123: A STEP RUNS THE DECODED INSTRUCTION. Where the next thing due is the issue of a warp that its partition
may choose, and the words at its first program counter decode to an unchained instruction i, the step is `exec` of i for the threads there, at the clock at
which i's pipe and the loaded values that it names are free; around it stand only slot B (R13), where some other program counter
is there to fill it, and the end of the issue cycle. A chained pair that keeps the rules of R107 runs both its words. Words that do not
decode trap `ILLEGAL_INSTRUCTION`. -/
def Sys2Proof.Claims.IssueRunsTheDecodedWord : Prop :=
  ∀ (s u : State) (later : List Move) (core slot delay : Nat) (w0 w : Warp) (a : Cand) (b : Option Cand) (ws more : List Word)
    (word : Word) (i : Instr),
    let now : State := { s with agenda := later }
    let runs := fun (r : Res) => step s = attempted core slot w0 r
    s.agenda = .issue core slot delay :: later → now.mayIssue core slot delay = true →
    Comes (now.countWaits core slot delay) core slot delay w0 w a b ws u → ws.drop a.pc.word = word :: more →
    (decode (word :: more) = .ok i → i.chained = false →
      let v := (w.toPipe (pipeOf word == .f) [i]).noSolo a.lanes
      let cur := issueOf core slot a v
      let at_ : State := { u.setWarp core slot v with cur := some cur }
      (∀ t, exec i at_ = .next t → t.ended = .done → runs (issueB exec t cur i (pipeOf word) b)) ∧
      (∀ t, exec i at_ = .next t → t.ended = .done → b = none → runs (.next (t.endIssue core slot a.lanes i.stall))) ∧
      (∀ t, exec i at_ = .next t → t.ended ≠ .done → runs (.next (t.dropIssue core slot a.lanes))) ∧
      (∀ f, exec i at_ = .fault f → step s = .fault f) ∧ ∀ f, exec i at_ = .refused f → step s = .refused f) ∧
    (∀ word2 more2 j, decode (word :: more) = .ok i → i.chained = true → i.isLit = false → more = word2 :: more2 →
      decode more = .ok j → pairBroken i j word word2 = false → a.solo = false →
      let v := w.toPipe (pipeOf word == .f || pipeOf word2 == .f) [i, j]
      runs (issuePair exec (u.setWarp core slot v) (issueOf core slot a v) i j)) ∧
    (∀ e, decode (word :: more) = .error e → runs (.next ((u.raise (issueOf core slot a w) a.lanes
      { kind := .illegalInstruction, lane := lowLane a.lanes }).endIssue core slot a.lanes 0 0)))

/-- R11, R389: where the agenda is empty and no other step is due, the warp that ranks first issues, if its issue does more than wait and
no waiting entry's turn has come. -/
def Sys2Proof.Claims.FirstRankedWarpIssues : Prop :=
  ∀ (s t : State) (e : Nat × Warp) (more : List (Nat × Warp)),
    let s0 := s.countWaits (e.1 / 64) (e.1 % 64)
    s.agenda = [] → firstMove s s.due = none → s.ranked = e :: more → s.idleTurn = false →
    issueCycle exec (e.1 / 64) (e.1 % 64) 0 s0 = .next t → t ≠ s0 → step s = .next t

/-- R11 to R14, R104, R107, R123, R389: the next step runs the word at the program counter of the warp whose issue is due. The
model's own choice or reading, no rule: log entries 2 and 13: the order of due steps, clocks of issue. -/
def Obligations.StepRunsTheDecodedWord : Prop :=
  Sys2Proof.Claims.IssueRunsTheDecodedWord ∧ Sys2Proof.Claims.FirstRankedWarpIssues

/-! ### Completion of the scheduler's steps, of coherence and of the service engines -/

namespace Sys2Proof.Claims

/-- Instruction `i` completes in `s`: it answers a next state, of which `p` holds. -/
def Completes (i : Instr) (s : State) (p : State → Prop) : Prop := ∃ t, exec i s = .next t ∧ p t

end Sys2Proof.Claims

/-- R379, R381 to R384, R408 to R410: WHERE THE STEPS OF QUEUES AND CONTEXTS COMPLETE. A tail that neither goes back nor exceeds
the ring is taken; the head whose used wait counters hold at least their thresholds may start; a block goes to a core that fits
it; a launch whose blocks have all exited and whose operations have all completed is complete, its status 2 written. With no
request running, a pre-emption starts and is busy; it ends when everything named has settled, with its records written, or err
where they exceed `PE_LEN`; a record list whose restore does not fail is restored. The model's own choice or reading, no rule:
log entries 10, 22, 23, 24 and 33: opaque records, what starts a request, when a save completes, what a restore refuses, when a
context is examined. -/
def Obligations.SchedulerAndContextStepsComplete : Prop :=
  ∀ (q n c : Nat) (tail v : Word) (a : DWord) (s : State) (l : Launch),
    let x := s.queue q
    let cfg := s.reg (32 * q + 8) 8
    let met := fun (va thr : Nat) => va = 0 ∨ ∃ y, s.schedRead l.ctx va 4 = .ok (.value y) ∧ thr ≤ y
    let peBusy := fun (t : State) => (t.reg 0x2310 0).getLsbD 31
    let peErr := fun (t : State) => (t.reg 0x2310 0).getLsbD 30
    let named := fun (req ctx : Nat) => s.launches.filter fun e => !e.2.complete &&
      if req % 2 = 1 then decide (e.2.ctx = ctx) else decide (e.2.va.toNat = req / 2 * 2)
    let saves := fun (req ctx : Nat) (t : State) => peBusy t = true ∧ t.mem = s.mem ∧
      ∃ p, t.preempt = some p ∧ p.whole = decide (req % 2 = 1) ∧ p.launches = (named req ctx).map (·.1)
    (q < 48 → (x.tail - x.head).toNat ≤ (tail - x.head).toNat → (tail - x.head).toNat ≤ 2 ^ max 4 (min 15 (cfg.toNat % 16)) →
      Completes (.queueTailWrite q tail) s fun t => (t.queue q).tail = tail ∧ (t.queue q).head = x.head ∧ t.mem = s.mem) ∧
    (q < 64 → cfg.getLsbD 31 = true → x.hold = none → x.current = some n → SMap.get? s.launches n = some l → l.startable = false →
      l.owedFault = none → met (l.f 384 64) (l.f 448 32) → met (l.f 512 64) (l.f 480 32) →
      Completes (.launchStart q) s fun t => SMap.get? t.launches n = some { l with startable := true } ∧ t.mem = s.mem ∧
        t.warps = s.warps) ∧
    (SMap.get? s.launches n = some l → s.waitingBlock l = none → s.placing l = true → s.outranked n l = false → l.isGang = false →
      l.started = true → l.placed.length + 1 < l.nblocks → s.mayPlace n l l.placed.length s.self c = true → s.fits l c = true →
      Completes (.blockPlacement n [c]) s fun t =>
        SMap.get? t.launches n = some { l with placed := l.placed ++ [l.placed.length] } ∧
        ∃ b, SMap.get? t.blocks (SMap.fresh s.blocks) = some b ∧ b.launch = n ∧ b.index = l.placed.length ∧ b.core = c) ∧
    (SMap.get? s.launches n = some l → l.complete = false → l.home = none → l.placed.length = l.nblocks → l.ended.length = l.nblocks →
      (∀ e ∈ s.entries, e.2.launch ≠ n) → Completes (.launchComplete n) s fun t => (∀ b ∈ t.blocks, b.2.launch ≠ n) ∧
        ∃ l', SMap.get? t.launches n = some l' ∧ l'.complete = true ∧
          ∀ pa : Nat, l.f 256 64 = 0 → l.writes = [] → l.owedFault = none → s.stored (.launch n) = true →
            s.schedLoc l.ctx l.va.toNat .write = .ok (.mem pa) → pa / 2 ^ 48 = s.self → s.writable (.mem pa) = true →
            l'.writes = [] ∧ leNat (t.bytesAt (.mem pa) 4) = 2) ∧
    (s.preempt = none → (a.toNat % 2 = 1 ∨ named a.toNat ((s.reg 0x2310 0).toNat % 4096) ≠ []) →
      Completes (.preemptRequest a) s (saves a.toNat ((s.reg 0x2310 0).toNat % 4096))) ∧
    (let req := (s.reg 0x2300 0).toNat
     s.preempt = none → v.toNat / 2 ^ 28 % 4 = 1 → (req % 2 = 1 ∨ named req (v.toNat % 4096) ≠ []) →
      Completes (.contextSave v) s (saves req (v.toNat % 4096))) ∧
    (∀ p, s.preempt = some p → p.whole = false → s.saveReady p = true →
      let u := (s.namedBlocks p).foldl (fun s e => s.forwardBlock e.1) s
      let size := recordsLength (u.recordsOf p)
      Completes .preemptComplete s fun t => t.preempt = none ∧ peBusy t = false ∧
        (size ≤ (u.reg 0x2314 0).toNat → peErr t = false ∧ t.reg 0x2314 0 = BitVec.ofNat 64 size) ∧
        ((u.reg 0x2314 0).toNat < size → peErr t = true ∧ ∀ e ∈ t.warps, e.2.halt ≠ some .preempt)) ∧
    (∀ hs rs t, s.preempt = none → v.toNat / 2 ^ 28 % 4 = 2 →
      s.headers ((s.reg 0x2314 0).toNat / 16 + 1) ((s.reg 0x2308 0).toNat / 4096 * 4096) (s.reg 0x2314 0).toNat = some hs →
      s.readRecords hs = some rs → s.restoreList rs = some t →
      Completes (.contextRestore v) s fun u => u.warps = t.warps ∧ u.blocks = t.blocks ∧ u.objs = t.objs ∧ u.insts = t.insts ∧
        u.waiting = t.waiting ∧ peBusy u = false ∧ peErr u = false)

/-- R413, R415, R417, R419, R420, R431, R442, R444, R448: WHERE THE STEPS OF COHERENCE AND OF THE SERVICE ENGINES COMPLETE. A
directory request of a core for a free local line leaves the line as its row says; the window whose other conditions hold sends
the update of a sync line to its sharers, whose acknowledgements are counted; a page's requests and recalls change its state; a
pass starts and ends, an accepted record is written; a dump writes the image, a commit the flash; a loss of power loses what was
not committed, and reset leaves no function ready. The model's own choice or reading, no rule: log entries 36, 37 and 39: a pass
is one step, what a reset keeps, loans end when a page is taken back. -/
def Obligations.CoherenceAndServiceStepsComplete : Prop :=
  ∀ (core slot line dev page : Nat) (v : Word) (a : DWord) (s : State),
    let both := fun (p : Loc → Bool) => p (.mem (line * 128)) = true ∧ p (.mem (line * 128 + 64)) = true
    let asks := fun (req : DirReq) (p : DirLine → Prop) => Completes (.directoryRequest core line req) s fun t => p (t.dirLine line)
    let page' := a.toNat / 2 ^ 12 % 2 ^ 36
    let state := fun (t : State) (n : Nat) => (SMap.get? t.pages n).map fun (p : Page) => p.state
    let sync := (linesOf (s.self * 2 ^ 36 + page)).any s.lineSync
    let untracked := ∀ n : Nat, n < 4 → (s.reg (0x2600 + 16 * n) 0).toNat % 2 = 0
    let op := v.toNat / 2 ^ 28 % 4
    (line / 2 ^ 41 = s.self →
      (s.noWay core [line] = none → both s.readable → (s.dirLine line).st = .i → asks .read fun d => d.st = (if s.lineSync line then .s else .e) ∧ d.holders = [core]) ∧
      (both s.readable → both s.writable →
        (s.noWay core [line] = none → s.lineSync line = false → asks .write fun d => d.st = .m ∧ d.holders = [core]) ∧
        asks .atomic fun d => d.st = .i ∧ d.holders = []) ∧
      ((s.pinned core).contains line = false → asks .evict fun d => core ∉ d.holders)) ∧
    (∀ (w : Warp) (x : Window) (rest : List Window), core < 192 → s.warp core slot = some w → w.windows = x :: rest →
      x.isClosed = true → w.released x.serial = true → s.unwritable core x = none → line ∈ x.syncLines → (∀ u ∈ x.updates, u.1 ≠ line) →
      s.busyLine line = false → line / 2 ^ 41 = s.self → s.hostBlocks line true = none → s.sharers line = [] →
      (∀ e ∈ s.warps, e.2.victim (.line line) = none) →
      Completes (.syncUpdate core slot line) s fun t => t.mem = s.mem ∧
        ∃ u, SMap.get? t.updates line = some u ∧ u.core = core ∧ u.slot = slot ∧ u.win = x.serial ∧ u.owed = s.coresWith line) ∧
    (∀ u, SMap.get? s.updates line = some u → u.core < 192 → dev ∈ u.owed → Completes (.syncUpdateAck line dev) s fun t =>
      SMap.get? t.updates line = some { u with owed := u.owed.erase dev } ∧ t.mem = s.mem) ∧
    ((∀ r ∈ s.recalls, r.page ≠ page) → s.pages.length < 65536 → state s page = none →
      Completes (.pageRequest dev page .read) s (fun t => state t page = some (.shared [dev]) ∧ t.mem = s.mem) ∧
      (sync = false → s.lends = true →
        Completes (.pageRequest dev page .write) s fun t => state t page = some (.lent dev) ∧ t.mem = s.mem)) ∧
    (page / 2 ^ 36 ≠ s.self → s.mayRecall page = true → (linesOf page).any s.hubBit = false →
      Completes (.pageRecall page) s fun t => SMap.get? t.loans page = none ∧ t.mem = s.mem) ∧
    (∀ r : Recall, page / 2 ^ 36 = s.self → s.recalls.find? (fun r => r.page = page % 2 ^ 36 && r.owed.contains dev) = some r →
      Completes (.recallAck dev page) s fun t => r.owed.erase dev ≠ [] →
        t.mem = s.mem ∧ ∀ x ∈ t.recalls, x.page = page % 2 ^ 36 → x.owed = r.owed.erase dev) ∧
    (∀ p, state s page' = some p → (∀ r ∈ s.recalls, r.driver = false ∧ r.page ≠ page') →
      Completes (.driverRecall a) s fun t => t.mem = s.mem ∧ ∃ r ∈ t.recalls, r.page = page' ∧ r.driver = true ∧ r.owed = p.holders) ∧
    (op = 1 → s.pass = none → (s.keySlot 3 0 (v.toNat / 2 ^ 21 % 2)).isSome = true →
      (s.reg 0x30000 0).getLsbD (42 + v.toNat / 2 ^ 22 % 4) = true →
      Completes (.precopyPass v) s fun t => (t.reg 0x2700 0).getLsbD 31 = true ∧
        t.reg 0x2720 0 = BitVec.ofNat 64 (((s.reg 0x2720 0).toNat + 1) % 2 ^ 32) ∧
        t.pass = some { ctl := v.toNat, pos := (0, 0), halves := [], records := [] }) ∧
    (∀ p, s.pass = some p → ∀ acked, (acked = true → p.halves = [] ∧ s.nextWord p = none) → Completes (.precopyPassEnd acked) s fun t => t.pass = none ∧ (t.reg 0x2700 0).getLsbD 31 = false ∧
      (t.reg 0x2700 0).getLsbD 30 = !acked) ∧
    (∀ (r : PrecopyRecord) (bs : List Byte), (s.reg 0x2700 0).getLsbD 20 = true → s.openRecord r = some bs → untracked →
      let place := s.self * 2 ^ 48 + (s.track r.range.val).2.1 + r.offset.toNat
      s.missingPiece true place bs.length = none →
      Completes (.precopyRecordReceive r) s fun t => t.mem = Memory.write s.mem place bs) ∧
    (op = 1 → untracked → s.missingPiece true ((s.reg 0x2908 0).toNat / 16 * 16) s.lifeImage.length = none →
      Completes (.lifetimeDump v) s fun t => t.mem = Memory.write s.mem ((s.reg 0x2908 0).toNat / 16 * 16) s.lifeImage) ∧
    Completes .lifetimeCommit s (fun t => t.flash = s.life ∧ t.life = s.life ∧ t.commits = s.commits + 1) ∧
    Completes .orderlyPowerDown s (fun t => t.flash = s.life ∧ t.commits = s.commits + 1 ∧ t.warps = []) ∧
    Completes .powerLoss s (fun t => t.flash = s.flash ∧ t.life = s.flash ∧ t.warps = []) ∧
    Completes .reset s (fun t => t.reg 0x30000 0 = 0 ∧ t.warps = [] ∧ t.blocks = [] ∧ t.launches = [] ∧ t.keys = [])
end

