-- ==== Sys2Proof/Laws/Lanes.lean ====
section
/-! SUPPORT. The small lemmas of lane-indexed values, sparse tables and bit fields. -/
namespace Sys2Proof

/-- A lane of a lane-indexed value, by number. -/
@[simp] theorem Lanes.getElem_ofFn_nat {α : Type} (f : Fin 32 → α) (k : Nat) (h : k < 32) : (Lanes.ofFn f)[k] = f ⟨k, h⟩ := by
  show (⟨List.ofFn f⟩ : Array α)[k]'(by simpa using h) = f ⟨k, h⟩
  rw [List.getElem_toArray, List.getElem_ofFn]

/-- A lane of a lane-indexed value. -/
theorem Lanes.getElem_ofFn {α : Type} (f : Fin 32 → α) (l : Fin 32) : (Lanes.ofFn f)[l] = f l :=
  Lanes.getElem_ofFn_nat f l.val l.isLt

/-- A lane of a constant value. -/
@[simp] theorem Lanes.getElem_all_nat {α : Type} (x : α) (k : Nat) (h : k < 32) : (Lanes.all x)[k] = x :=
  Lanes.getElem_ofFn_nat _ k h

/-- A lane of a constant value. -/
theorem Lanes.getElem_all {α : Type} (x : α) (l : Fin 32) : (Lanes.all x)[l] = x := Lanes.getElem_ofFn _ l

/-- The write rule of R12: written lanes take the new value, the others keep the old one. -/
theorem Lanes.getElem_write {α : Type} (old : Lanes α) (m : LaneSet) (f : Fin 32 → α) (l : Fin 32) :
    (Lanes.write old m f)[l] = if m[l] then f l else old[l] := Lanes.getElem_ofFn _ l

/-- The write rule of R12, by lane number. -/
@[simp] theorem Lanes.getElem_write_nat {α : Type} (old : Lanes α) (m : LaneSet) (f : Fin 32 → α) (k : Nat) (h : k < 32) :
    (Lanes.write old m f)[k] = if m[k] then f ⟨k, h⟩ else old[k] := Lanes.getElem_ofFn_nat _ k h

/-- Values with the same lanes are equal. -/
theorem Lanes.ext_lanes {α : Type} {x y : Lanes α} (h : ∀ l : Fin 32, x[l] = y[l]) : x = y :=
  Vector.ext fun k hk => h ⟨k, hk⟩

theorem LaneSet.getElem_inter (a b : LaneSet) (l : Fin 32) : (LaneSet.inter a b)[l] = (a[l] && b[l]) := Lanes.getElem_ofFn _ l

theorem LaneSet.getElem_union (a b : LaneSet) (l : Fin 32) : (LaneSet.union a b)[l] = (a[l] || b[l]) := Lanes.getElem_ofFn _ l

theorem LaneSet.getElem_diff (a b : LaneSet) (l : Fin 32) : (LaneSet.diff a b)[l] = (a[l] && !b[l]) := Lanes.getElem_ofFn _ l

/-- The lanes of a set. -/
@[simp] theorem LaneSet.mem_list (m : LaneSet) (l : Fin 32) : l ∈ LaneSet.list m ↔ m[l] = true := by
  simp [LaneSet.list, lanesUp]

/-- A set holds a lane. -/
theorem LaneSet.any_iff (m : LaneSet) : LaneSet.any m = true ↔ ∃ l : Fin 32, m[l] = true := by
  simp only [LaneSet.any, lanesUp, List.any_eq_true, List.mem_finRange, true_and]

/-- The table under a key just listed. -/
@[simp] theorem SMap.get?_put_self {α : Type} (m : SMap α) (k : Nat) (v : α) : SMap.get? (SMap.put m k v) k = some v := by
  induction m with
  | nil => simp [SMap.put, SMap.get?]
  | cons e t ih =>
    simp only [SMap.put]
    split
    · simp [SMap.get?]
    · split
      · simp [SMap.get?]
      · rename_i h1 _
        simp only [SMap.get?, h1, if_false, ih]

/-- The table under every other key. -/
theorem SMap.get?_put_other {α : Type} (m : SMap α) (k j : Nat) (v : α) (h : j ≠ k) :
    SMap.get? (SMap.put m k v) j = SMap.get? m j := by
  induction m with
  | nil => simp [SMap.put, SMap.get?, h]
  | cons e t ih =>
    simp only [SMap.put]
    split
    · rename_i e1
      have : j ≠ e.1 := by omega
      simp only [SMap.get?, h, this, if_false]
    · split
      · simp only [SMap.get?, h, if_false]
      · simp only [SMap.get?, ih]

end Sys2Proof
end

