-- ==== Sys2Proof/Laws/Memory.lean ====
section
/-! SUPPORT. The canonical form of memory: what it says, and that every operation on a memory keeps it. -/
namespace Sys2Proof

/-- The canonical form: no zero byte is listed, addresses rise strictly. -/
theorem Memory.wf_iff (m : Memory) :
    Memory.wf m = true ↔ (∀ c ∈ m, c.2 ≠ 0) ∧ m.Pairwise fun c d => c.1 < d.1 := by
  induction m with
  | nil => simp [Memory.wf]
  | cons c t ih =>
    cases t with
    | nil => simp [Memory.wf]
    | cons d r =>
      simp only [Memory.wf, Bool.and_eq_true, ih, decide_eq_true_eq, bne_iff_ne, List.pairwise_cons, List.mem_cons]
      constructor
      · rintro ⟨⟨h0, h1⟩, h2, h3, h4⟩
        refine ⟨?_, ?_, h3, h4⟩
        · rintro x (rfl | hx)
          · exact h0
          · exact h2 x hx
        · rintro x (rfl | hx)
          · exact h1
          · exact Nat.lt_trans h1 (h3 x hx)
      · rintro ⟨h0, h1, h2, h3⟩
        exact ⟨⟨h0 c (.inl rfl), h1 d (.inl rfl)⟩, fun x hx => h0 x (.inr hx), h2, h3⟩

/-- The cells of a string lie inside its range. -/
theorem Memory.cells_range (bs : List Byte) (a : Nat) :
    ∀ c ∈ Memory.cells a bs, a ≤ c.1 ∧ c.1 < a + bs.length ∧ c.2 ≠ 0 := by
  induction bs generalizing a with
  | nil => simp [Memory.cells]
  | cons b t ih =>
    intro c hc
    simp only [Memory.cells] at hc
    split at hc
    · have := ih (a + 1) c hc
      simp only [List.length_cons]
      exact ⟨by omega, by omega, this.2.2⟩
    · rcases List.mem_cons.1 hc with rfl | hc
      · simp only [List.length_cons]
        exact ⟨Nat.le_refl _, by omega, by assumption⟩
      · have := ih (a + 1) c hc
        simp only [List.length_cons]
        exact ⟨by omega, by omega, this.2.2⟩

/-- The cells of a string are canonical. -/
theorem Memory.cells_sorted (bs : List Byte) (a : Nat) : (Memory.cells a bs).Pairwise fun c d => c.1 < d.1 := by
  induction bs generalizing a with
  | nil => simp [Memory.cells]
  | cons b t ih =>
    simp only [Memory.cells]
    split
    · exact ih _
    · refine List.pairwise_cons.2 ⟨fun c hc => ?_, ih _⟩
      have := Memory.cells_range t (a + 1) c hc
      simp only
      omega

/-- A write keeps the canonical form. -/
theorem Memory.write_wf (m : Memory) (a : Nat) (bs : List Byte) (h : Memory.wf m = true) :
    Memory.wf (Memory.write m a bs) = true := by
  rw [Memory.wf_iff] at h ⊢
  obtain ⟨h0, h1⟩ := h
  refine ⟨fun c hc => ?_, ?_⟩
  · simp only [Memory.write, List.mem_append, List.mem_filter] at hc
    rcases hc with (hc | hc) | hc
    · exact h0 c hc.1
    · exact (Memory.cells_range bs a c hc).2.2
    · exact h0 c hc.1
  · simp only [Memory.write]
    refine List.pairwise_append.2 ⟨List.pairwise_append.2 ⟨h1.filter _, Memory.cells_sorted bs a, ?_⟩, h1.filter _, ?_⟩
    · intro c hc d hd
      have hd := Memory.cells_range bs a d hd
      have hc := (List.mem_filter.1 hc).2
      simp only [decide_eq_true_eq] at hc
      omega
    · intro c hc d hd
      have hd := (List.mem_filter.1 hd).2
      simp only [decide_eq_true_eq] at hd
      rcases List.mem_append.1 hc with hc | hc
      · have hc := (List.mem_filter.1 hc).2
        simp only [decide_eq_true_eq] at hc
        omega
      · have hc := Memory.cells_range bs a c hc
        omega

/-- Dropping cells keeps the canonical form. -/
theorem Memory.filter_wf (m : Memory) (p : Nat × Byte → Bool) (h : Memory.wf m = true) :
    Memory.wf (m.filter p) = true := by
  rw [Memory.wf_iff] at h ⊢
  exact ⟨fun c hc => h.1 c (List.mem_filter.1 hc).1, h.2.filter _⟩

namespace Machine

/-- Both memories of a device are canonical. -/
theorem State.putBytes_wf (s : State) (loc : Loc) (bs : List Byte)
    (h : Memory.wf s.mem = true ∧ Memory.wf s.scratch = true) :
    Memory.wf (s.putBytes loc bs).mem = true ∧ Memory.wf (s.putBytes loc bs).scratch = true := by
  cases loc <;> simp only [State.putBytes]
  · exact ⟨Memory.write_wf _ _ _ h.1, h.2⟩
  · exact ⟨h.1, Memory.write_wf _ _ _ h.2⟩
  · exact ⟨Memory.write_wf _ _ _ h.1, h.2⟩
  · exact h
  · exact h

/-- The packet of code that `withFetchWord` places keeps the canonical form. -/
theorem bootMemory_wf (m : Memory) (code : List Byte) (h : Memory.wf m = true) :
    Memory.wf (bootMemory m code) = true := by
  simp only [bootMemory, bootTables, List.foldl_cons, List.foldl_nil]
  exact Memory.write_wf _ _ _ (Memory.write_wf _ _ _ (Memory.write_wf _ _ _ (Memory.write_wf _ _ _
    (Memory.write_wf _ _ _ h))))

end Machine
end Sys2Proof
end

