-- ==== Sys2Proof/Laws/PerInstr.lean ====
section
/-! SUPPORT. A fact about every instruction as syntax: how many words encode it (R108: a literal takes one or two words more). -/
namespace Sys2Proof.Laws.WordCount

/-- The words of an instruction: none for a step that is no word, two for `LIT`, three for `LIT2`, else one. -/
def words : Instr → Nat
  | .lit .. => 2
  | .lit2 .. => 3
  | i => if i.hdr?.isSome then 1 else 0

/-- The encoder gives an instruction as many words as it has. -/
def Statement (i : Instr) : Prop := (encode i).length = words i

theorem faddF32 (h : Hdr) (d : Near) (a : Near) (b : Near) : Statement (.faddF32 h d a b) := rfl
theorem fsubF32 (h : Hdr) (d : Near) (a : Near) (b : Near) : Statement (.fsubF32 h d a b) := rfl
theorem fmulF32 (h : Hdr) (d : Near) (a : Near) (b : Near) : Statement (.fmulF32 h d a b) := rfl
theorem ffmaF32 (h : Hdr) (d : Near) (a : Near) (b : Near) : Statement (.ffmaF32 h d a b) := rfl
theorem fminF32 (h : Hdr) (d : Near) (a : Near) (b : Near) : Statement (.fminF32 h d a b) := rfl
theorem fmaxF32 (h : Hdr) (d : Near) (a : Near) (b : Near) : Statement (.fmaxF32 h d a b) := rfl
theorem fabsF32 (h : Hdr) (d : Near) (a : Near) : Statement (.fabsF32 h d a) := rfl
theorem fnegF32 (h : Hdr) (d : Near) (a : Near) : Statement (.fnegF32 h d a) := rfl
theorem frndF32 (h : Hdr) (d : Near) (a : Near) (b : Near) : Statement (.frndF32 h d a b) := rfl
theorem fscaleF32 (h : Hdr) (d : Near) (a : Near) (b : Near) : Statement (.fscaleF32 h d a b) := rfl
theorem frcpF32 (h : Hdr) (d : Near) (a : Near) : Statement (.frcpF32 h d a) := rfl
theorem frsqF32 (h : Hdr) (d : Near) (a : Near) : Statement (.frsqF32 h d a) := rfl
theorem fsqrtF32 (h : Hdr) (d : Near) (a : Near) : Statement (.fsqrtF32 h d a) := rfl
theorem fex2F32 (h : Hdr) (d : Near) (a : Near) : Statement (.fex2F32 h d a) := rfl
theorem flg2F32 (h : Hdr) (d : Near) (a : Near) : Statement (.flg2F32 h d a) := rfl
theorem fclassF32 (h : Hdr) (d : Near) (a : Near) : Statement (.fclassF32 h d a) := rfl
theorem faddF16x2 (h : Hdr) (d : Near) (a : Near) (b : Near) : Statement (.faddF16x2 h d a b) := rfl
theorem fsubF16x2 (h : Hdr) (d : Near) (a : Near) (b : Near) : Statement (.fsubF16x2 h d a b) := rfl
theorem fmulF16x2 (h : Hdr) (d : Near) (a : Near) (b : Near) : Statement (.fmulF16x2 h d a b) := rfl
theorem ffmaF16x2 (h : Hdr) (d : Near) (a : Near) (b : Near) : Statement (.ffmaF16x2 h d a b) := rfl
theorem fminF16x2 (h : Hdr) (d : Near) (a : Near) (b : Near) : Statement (.fminF16x2 h d a b) := rfl
theorem fmaxF16x2 (h : Hdr) (d : Near) (a : Near) (b : Near) : Statement (.fmaxF16x2 h d a b) := rfl
theorem fdot2F16x2 (h : Hdr) (d : Near) (a : Near) (b : Near) : Statement (.fdot2F16x2 h d a b) := rfl
theorem faddBf16x2 (h : Hdr) (d : Near) (a : Near) (b : Near) : Statement (.faddBf16x2 h d a b) := rfl
theorem fsubBf16x2 (h : Hdr) (d : Near) (a : Near) (b : Near) : Statement (.fsubBf16x2 h d a b) := rfl
theorem fmulBf16x2 (h : Hdr) (d : Near) (a : Near) (b : Near) : Statement (.fmulBf16x2 h d a b) := rfl
theorem ffmaBf16x2 (h : Hdr) (d : Near) (a : Near) (b : Near) : Statement (.ffmaBf16x2 h d a b) := rfl
theorem fminBf16x2 (h : Hdr) (d : Near) (a : Near) (b : Near) : Statement (.fminBf16x2 h d a b) := rfl
theorem fmaxBf16x2 (h : Hdr) (d : Near) (a : Near) (b : Near) : Statement (.fmaxBf16x2 h d a b) := rfl
theorem fdot2Bf16x2 (h : Hdr) (d : Near) (a : Near) (b : Near) : Statement (.fdot2Bf16x2 h d a b) := rfl
theorem faddF64 (h : Hdr) (d : Near) (a : Near) (b : Near) : Statement (.faddF64 h d a b) := rfl
theorem fsubF64 (h : Hdr) (d : Near) (a : Near) (b : Near) : Statement (.fsubF64 h d a b) := rfl
theorem fmulF64 (h : Hdr) (d : Near) (a : Near) (b : Near) : Statement (.fmulF64 h d a b) := rfl
theorem ffmaF64 (h : Hdr) (d : Near) (a : Near) (b : Near) : Statement (.ffmaF64 h d a b) := rfl
theorem fminF64 (h : Hdr) (d : Near) (a : Near) (b : Near) : Statement (.fminF64 h d a b) := rfl
theorem fmaxF64 (h : Hdr) (d : Near) (a : Near) (b : Near) : Statement (.fmaxF64 h d a b) := rfl
theorem fcmpLtF64 (h : Hdr) (acc : Bool) (pd : Fin 16) (a : Near) (b : Near) : Statement (.fcmpLtF64 h acc pd a b) := rfl
theorem fcmpEqF64 (h : Hdr) (acc : Bool) (pd : Fin 16) (a : Near) (b : Near) : Statement (.fcmpEqF64 h acc pd a b) := rfl
theorem fcvt (h : Hdr) (d : Near) (a : Near) (code : Fin 32) : Statement (.fcvt h d a code) := rfl
theorem fcvtd (h : Hdr) (d : Near) (a : Near) (code : Fin 32) : Statement (.fcvtd h d a code) := rfl
theorem cpy (h : Hdr) (d : Near) (a : Near) (b : Near) : Statement (.cpy h d a b) := rfl
theorem gath (h : Hdr) (d : Near) (a : Near) (b : Near) : Statement (.gath h d a b) := rfl
theorem scat (h : Hdr) (d : Near) (a : Near) (b : Near) : Statement (.scat h d a b) := rfl
theorem cpym (h : Hdr) (d : Near) (a : Near) (b : Near) : Statement (.cpym h d a b) := rfl
theorem xfer (h : Hdr) (d : Near) : Statement (.xfer h d) := rfl
theorem xmc (h : Hdr) (d : Near) : Statement (.xmc h d) := rfl
theorem fcmpEqF32 (h : Hdr) (acc : Bool) (pd : Fin 16) (a : Near) (b : Near) : Statement (.fcmpEqF32 h acc pd a b) := rfl
theorem fcmpNeF32 (h : Hdr) (acc : Bool) (pd : Fin 16) (a : Near) (b : Near) : Statement (.fcmpNeF32 h acc pd a b) := rfl
theorem fcmpLtF32 (h : Hdr) (acc : Bool) (pd : Fin 16) (a : Near) (b : Near) : Statement (.fcmpLtF32 h acc pd a b) := rfl
theorem fcmpLeF32 (h : Hdr) (acc : Bool) (pd : Fin 16) (a : Near) (b : Near) : Statement (.fcmpLeF32 h acc pd a b) := rfl
theorem fcmpGtF32 (h : Hdr) (acc : Bool) (pd : Fin 16) (a : Near) (b : Near) : Statement (.fcmpGtF32 h acc pd a b) := rfl
theorem fcmpGeF32 (h : Hdr) (acc : Bool) (pd : Fin 16) (a : Near) (b : Near) : Statement (.fcmpGeF32 h acc pd a b) := rfl
theorem icmpEqI32 (h : Hdr) (acc : Bool) (pd : Fin 16) (a : Near) (b : Near) : Statement (.icmpEqI32 h acc pd a b) := rfl
theorem icmpNeI32 (h : Hdr) (acc : Bool) (pd : Fin 16) (a : Near) (b : Near) : Statement (.icmpNeI32 h acc pd a b) := rfl
theorem icmpLtI32 (h : Hdr) (acc : Bool) (pd : Fin 16) (a : Near) (b : Near) : Statement (.icmpLtI32 h acc pd a b) := rfl
theorem icmpLeI32 (h : Hdr) (acc : Bool) (pd : Fin 16) (a : Near) (b : Near) : Statement (.icmpLeI32 h acc pd a b) := rfl
theorem icmpGtI32 (h : Hdr) (acc : Bool) (pd : Fin 16) (a : Near) (b : Near) : Statement (.icmpGtI32 h acc pd a b) := rfl
theorem icmpGeI32 (h : Hdr) (acc : Bool) (pd : Fin 16) (a : Near) (b : Near) : Statement (.icmpGeI32 h acc pd a b) := rfl
theorem icmpLtN32 (h : Hdr) (acc : Bool) (pd : Fin 16) (a : Near) (b : Near) : Statement (.icmpLtN32 h acc pd a b) := rfl
theorem icmpLeN32 (h : Hdr) (acc : Bool) (pd : Fin 16) (a : Near) (b : Near) : Statement (.icmpLeN32 h acc pd a b) := rfl
theorem icmpGtN32 (h : Hdr) (acc : Bool) (pd : Fin 16) (a : Near) (b : Near) : Statement (.icmpGtN32 h acc pd a b) := rfl
theorem icmpGeN32 (h : Hdr) (acc : Bool) (pd : Fin 16) (a : Near) (b : Near) : Statement (.icmpGeN32 h acc pd a b) := rfl
theorem iadd (h : Hdr) (d : Near) (a : Near) (b : Near) : Statement (.iadd h d a b) := rfl
theorem isub (h : Hdr) (d : Near) (a : Near) (b : Near) : Statement (.isub h d a b) := rfl
theorem imul (h : Hdr) (d : Near) (a : Near) (b : Near) : Statement (.imul h d a b) := rfl
theorem imulhI32 (h : Hdr) (d : Near) (a : Near) (b : Near) : Statement (.imulhI32 h d a b) := rfl
theorem imulhN32 (h : Hdr) (d : Near) (a : Near) (b : Near) : Statement (.imulhN32 h d a b) := rfl
theorem imad (h : Hdr) (d : Near) (a : Near) (b : Near) : Statement (.imad h d a b) := rfl
theorem iminI32 (h : Hdr) (d : Near) (a : Near) (b : Near) : Statement (.iminI32 h d a b) := rfl
theorem iminN32 (h : Hdr) (d : Near) (a : Near) (b : Near) : Statement (.iminN32 h d a b) := rfl
theorem imaxI32 (h : Hdr) (d : Near) (a : Near) (b : Near) : Statement (.imaxI32 h d a b) := rfl
theorem imaxN32 (h : Hdr) (d : Near) (a : Near) (b : Near) : Statement (.imaxN32 h d a b) := rfl
theorem iabs (h : Hdr) (d : Near) (a : Near) : Statement (.iabs h d a) := rfl
theorem and (h : Hdr) (d : Near) (a : Near) (b : Near) : Statement (.and h d a b) := rfl
theorem or (h : Hdr) (d : Near) (a : Near) (b : Near) : Statement (.or h d a b) := rfl
theorem xor (h : Hdr) (d : Near) (a : Near) (b : Near) : Statement (.xor h d a b) := rfl
theorem andn (h : Hdr) (d : Near) (a : Near) (b : Near) : Statement (.andn h d a b) := rfl
theorem shl (h : Hdr) (d : Near) (a : Near) (b : Near) : Statement (.shl h d a b) := rfl
theorem shr (h : Hdr) (d : Near) (a : Near) (b : Near) : Statement (.shr h d a b) := rfl
theorem sar (h : Hdr) (d : Near) (a : Near) (b : Near) : Statement (.sar h d a b) := rfl
theorem rotl (h : Hdr) (d : Near) (a : Near) (b : Near) : Statement (.rotl h d a b) := rfl
theorem bfe (h : Hdr) (d : Near) (a : Near) (b : Near) : Statement (.bfe h d a b) := rfl
theorem bfi (h : Hdr) (d : Near) (a : Near) (b : Near) : Statement (.bfi h d a b) := rfl
theorem clz (h : Hdr) (d : Near) (a : Near) : Statement (.clz h d a) := rfl
theorem popc (h : Hdr) (d : Near) (a : Near) : Statement (.popc h d a) := rfl
theorem brev (h : Hdr) (d : Near) (a : Near) : Statement (.brev h d a) := rfl
theorem sel (h : Hdr) (d : Near) (a : Near) (b : Near) : Statement (.sel h d a b) := rfl
theorem mov (h : Hdr) (d : Near) (a : Near) : Statement (.mov h d a) := rfl
theorem bmix (h : Hdr) (d : Near) (a : Near) (b : Near) : Statement (.bmix h d a b) := rfl
theorem leaS2 (h : Hdr) (d : Near) (a : Near) (b : Near) : Statement (.leaS2 h d a b) := rfl
theorem leaS3 (h : Hdr) (d : Near) (a : Near) (b : Near) : Statement (.leaS3 h d a b) := rfl
theorem iadd64 (h : Hdr) (d : Near) (a : Near) (b : Near) : Statement (.iadd64 h d a b) := rfl
theorem sataddI32 (h : Hdr) (d : Near) (a : Near) (b : Near) : Statement (.sataddI32 h d a b) := rfl
theorem satsubI32 (h : Hdr) (d : Near) (a : Near) (b : Near) : Statement (.satsubI32 h d a b) := rfl
theorem iaddI16x2 (h : Hdr) (d : Near) (a : Near) (b : Near) : Statement (.iaddI16x2 h d a b) := rfl
theorem isubI16x2 (h : Hdr) (d : Near) (a : Near) (b : Near) : Statement (.isubI16x2 h d a b) := rfl
theorem iminI16x2 (h : Hdr) (d : Near) (a : Near) (b : Near) : Statement (.iminI16x2 h d a b) := rfl
theorem imaxI16x2 (h : Hdr) (d : Near) (a : Near) (b : Near) : Statement (.imaxI16x2 h d a b) := rfl
theorem pdot2I16x2 (h : Hdr) (d : Near) (a : Near) (b : Near) : Statement (.pdot2I16x2 h d a b) := rfl
theorem pdot2sI16x2 (h : Hdr) (d : Near) (a : Near) (b : Near) : Statement (.pdot2sI16x2 h d a b) := rfl
theorem pdot4I8x4 (h : Hdr) (d : Near) (a : Near) (b : Near) : Statement (.pdot4I8x4 h d a b) := rfl
theorem pdot4sI8x4 (h : Hdr) (d : Near) (a : Near) (b : Near) : Statement (.pdot4sI8x4 h d a b) := rfl
theorem shrrI32 (h : Hdr) (d : Near) (a : Near) (b : Near) : Statement (.shrrI32 h d a b) := rfl
theorem shrrsI16 (h : Hdr) (d : Near) (a : Near) (b : Near) : Statement (.shrrsI16 h d a b) := rfl
theorem packB16 (h : Hdr) (d : Near) (a : Near) (b : Near) : Statement (.packB16 h d a b) := rfl
theorem unpklI16 (h : Hdr) (d : Near) (a : Near) : Statement (.unpklI16 h d a) := rfl
theorem unpkhI16 (h : Hdr) (d : Near) (a : Near) : Statement (.unpkhI16 h d a) := rfl
theorem sataddI16x2 (h : Hdr) (d : Near) (a : Near) (b : Near) : Statement (.sataddI16x2 h d a b) := rfl
theorem xlaneGet (h : Hdr) (d : Near) (a : Near) (b : Near) : Statement (.xlaneGet h d a b) := rfl
theorem xlaneShift (h : Hdr) (d : Near) (a : Near) (b : Near) : Statement (.xlaneShift h d a b) := rfl
theorem xlaneRot (h : Hdr) (d : Near) (a : Near) (b : Near) : Statement (.xlaneRot h d a b) := rfl
theorem xlaneBfly (h : Hdr) (d : Near) (a : Near) (b : Near) : Statement (.xlaneBfly h d a b) := rfl
theorem push (h : Hdr) (d : Near) (a : Near) (b : Near) : Statement (.push h d a b) := rfl
theorem slideUp (h : Hdr) (d : Near) (a : Near) (b : Near) : Statement (.slideUp h d a b) := rfl
theorem slideDown (h : Hdr) (d : Near) (a : Near) (b : Near) : Statement (.slideDown h d a b) := rfl
theorem wredIadd (h : Hdr) (d : Near) (a : Near) : Statement (.wredIadd h d a) := rfl
theorem wredImin (h : Hdr) (d : Near) (a : Near) : Statement (.wredImin h d a) := rfl
theorem wredImax (h : Hdr) (d : Near) (a : Near) : Statement (.wredImax h d a) := rfl
theorem wredFadd (h : Hdr) (d : Near) (a : Near) : Statement (.wredFadd h d a) := rfl
theorem scanIadd (h : Hdr) (d : Near) (a : Near) : Statement (.scanIadd h d a) := rfl
theorem plopAnd (h : Hdr) (pd : Fin 16) (pa : Fin 16) (pb : Fin 16) : Statement (.plopAnd h pd pa pb) := rfl
theorem plopOr (h : Hdr) (pd : Fin 16) (pa : Fin 16) (pb : Fin 16) : Statement (.plopOr h pd pa pb) := rfl
theorem plopXor (h : Hdr) (pd : Fin 16) (pa : Fin 16) (pb : Fin 16) : Statement (.plopXor h pd pa pb) := rfl
theorem plopAndn (h : Hdr) (pd : Fin 16) (pa : Fin 16) (pb : Fin 16) : Statement (.plopAndn h pd pa pb) := rfl
theorem get (h : Hdr) (v : Fin 128) (a : Near) : Statement (.get h v a) := rfl
theorem put (h : Hdr) (v : Fin 128) (a : Near) : Statement (.put h v a) := rfl
theorem get2 (h : Hdr) (v : Fin 128) (a : Near) : Statement (.get2 h v a) := rfl
theorem put2 (h : Hdr) (v : Fin 128) (a : Near) : Statement (.put2 h v a) := rfl
theorem vfmaF32 (h : Hdr) (v : Fin 128) (a : Near) (b : Near) : Statement (.vfmaF32 h v a b) := rfl
theorem vaddF32 (h : Hdr) (v : Fin 128) (a : Near) : Statement (.vaddF32 h v a) := rfl
theorem vaddI32 (h : Hdr) (v : Fin 128) (a : Near) : Statement (.vaddI32 h v a) := rfl
theorem vswap (h : Hdr) (v : Fin 128) (a : Near) : Statement (.vswap h v a) := rfl
theorem ldB32 (h : Hdr) (d : Near) (base : Near) (off : BitVec 6) : Statement (.ldB32 h d base off) := rfl
theorem ldB64 (h : Hdr) (d : Near) (base : Near) (off : BitVec 6) : Statement (.ldB64 h d base off) := rfl
theorem ldB128 (h : Hdr) (d : Near) (base : Near) (off : BitVec 6) : Statement (.ldB128 h d base off) := rfl
theorem ldB16 (h : Hdr) (d : Near) (base : Near) (off : BitVec 6) : Statement (.ldB16 h d base off) := rfl
theorem ldB8 (h : Hdr) (d : Near) (base : Near) (off : BitVec 6) : Statement (.ldB8 h d base off) := rfl
theorem stB32 (h : Hdr) (d : Near) (base : Near) (off : BitVec 6) : Statement (.stB32 h d base off) := rfl
theorem stB64 (h : Hdr) (d : Near) (base : Near) (off : BitVec 6) : Statement (.stB64 h d base off) := rfl
theorem stB128 (h : Hdr) (d : Near) (base : Near) (off : BitVec 6) : Statement (.stB128 h d base off) := rfl
theorem stB16 (h : Hdr) (d : Near) (base : Near) (off : BitVec 6) : Statement (.stB16 h d base off) := rfl
theorem stB8 (h : Hdr) (d : Near) (base : Near) (off : BitVec 6) : Statement (.stB8 h d base off) := rfl
theorem ldsB32 (h : Hdr) (d : Near) (base : Near) (off : BitVec 6) : Statement (.ldsB32 h d base off) := rfl
theorem ldsB64 (h : Hdr) (d : Near) (base : Near) (off : BitVec 6) : Statement (.ldsB64 h d base off) := rfl
theorem stsB32 (h : Hdr) (d : Near) (base : Near) (off : BitVec 6) : Statement (.stsB32 h d base off) := rfl
theorem stsB64 (h : Hdr) (d : Near) (base : Near) (off : BitVec 6) : Statement (.stsB64 h d base off) := rfl
theorem ldnB32 (h : Hdr) (d : Near) (base : Near) (off : BitVec 6) : Statement (.ldnB32 h d base off) := rfl
theorem contribF32 (h : Hdr) (d : Near) (base : Near) (flag : Bool) (lab : Near) : Statement (.contribF32 h d base flag lab) := rfl
theorem movi (h : Hdr) (d : Near) (imm : BitVec 11) : Statement (.movi h d imm) := rfl
theorem addi (h : Hdr) (d : Near) (imm : BitVec 11) : Statement (.addi h d imm) := rfl
theorem andi (h : Hdr) (d : Near) (imm : BitVec 11) : Statement (.andi h d imm) := rfl
theorem ori (h : Hdr) (d : Near) (imm : BitVec 11) : Statement (.ori h d imm) := rfl
theorem shli (h : Hdr) (d : Near) (n : Fin 32) : Statement (.shli h d n) := rfl
theorem shri (h : Hdr) (d : Near) (n : Fin 32) : Statement (.shri h d n) := rfl
theorem lit (h : Hdr) (d : Near) (value : BitVec 32) : Statement (.lit h d value) := rfl
theorem lit2 (h : Hdr) (d : Near) (value : BitVec 64) : Statement (.lit2 h d value) := rfl
theorem bra (h : Hdr) (off : BitVec 14) : Statement (.bra h off) := rfl
theorem call (h : Hdr) (off : BitVec 14) : Statement (.call h off) := rfl
theorem loop (h : Hdr) (sc : Fin 8) (len : Fin 128) : Statement (.loop h sc len) := rfl
theorem bhead (h : Hdr) (peer : Fin 16) (off : BitVec 10) : Statement (.bhead h peer off) := rfl
theorem nop (h : Hdr) : Statement (.nop h) := rfl
theorem exit (h : Hdr) : Statement (.exit h) := rfl
theorem ret (h : Hdr) : Statement (.ret h) := rfl
theorem brx (h : Hdr) (a : Near) : Statement (.brx h a) := rfl
theorem breakLevel (h : Hdr) : Statement (.breakLevel h) := rfl
theorem yield (h : Hdr) : Statement (.yield h) := rfl
theorem bar (h : Hdr) (level : Fin 8) (s : Fin 32) (mode : Fin 4) : Statement (.bar h level s mode) := rfl
theorem trigger (h : Hdr) : Statement (.trigger h) := rfl
theorem launch (h : Hdr) (a : Near) : Statement (.launch h a) := rfl
theorem trap (h : Hdr) (code : BitVec 12) : Statement (.trap h code) := rfl
theorem svc (h : Hdr) (code : BitVec 12) : Statement (.svc h code) := rfl
theorem rft (h : Hdr) : Statement (.rft h) := rfl
theorem commit (h : Hdr) : Statement (.commit h) := rfl
theorem settile (h : Hdr) (size : Fin 8) : Statement (.settile h size) := rfl
theorem elect (h : Hdr) (pd : Fin 16) : Statement (.elect h pd) := rfl
theorem getsr (h : Hdr) (d : Near) (num : Fin 128) : Statement (.getsr h d num) := rfl
theorem setsr (h : Hdr) (a : Near) (num : Fin 128) : Statement (.setsr h a num) := rfl
theorem sget (h : Hdr) (sd : Fin 32) (a : Near) : Statement (.sget h sd a) := rfl
theorem smov (h : Hdr) (sd : Fin 32) (ss : Fin 32) : Statement (.smov h sd ss) := rfl
theorem sadd (h : Hdr) (sd : Fin 32) (ss : Fin 32) : Statement (.sadd h sd ss) := rfl
theorem pjoin (h : Hdr) (pd : Fin 16) (pa : Fin 16) (mode : Fin 4) : Statement (.pjoin h pd pa mode) := rfl
theorem pmask (h : Hdr) (d : Near) (pa : Fin 16) : Statement (.pmask h d pa) := rfl
theorem peers (h : Hdr) (d : Near) (a : Near) (mode : Fin 4) : Statement (.peers h d a mode) := rfl
theorem movsa (h : Hdr) (d : Near) (peer : Fin 16) : Statement (.movsa h d peer) := rfl
theorem rdecl (h : Hdr) (a : Near) : Statement (.rdecl h a) := rfl
theorem kset (h : Hdr) (k : Fin 16) (a : Near) : Statement (.kset h k a) := rfl
theorem kwait (h : Hdr) (k : Fin 16) (d : Near) : Statement (.kwait h k d) := rfl
theorem krel (h : Hdr) (k : Fin 16) : Statement (.krel h k) := rfl
theorem kprod (h : Hdr) (k : Fin 16) : Statement (.kprod h k) := rfl
theorem kroom (h : Hdr) (k : Fin 16) (d : Near) : Statement (.kroom h k d) := rfl
theorem qfence (h : Hdr) (mask : BitVec 5) : Statement (.qfence h mask) := rfl
theorem drain (h : Hdr) (mask : BitVec 5) : Statement (.drain h mask) := rfl
theorem mbegin (h : Hdr) (acc : Fin 8) : Statement (.mbegin h acc) := rfl
theorem mend (h : Hdr) (acc : Fin 8) : Statement (.mend h acc) := rfl
theorem mma (h : Hdr) (acc : Fin 8) (t : Fin 8) (qa : Fin 8) (qb : Fin 8) : Statement (.mma h acc t qa qb) := rfl
theorem mmas (h : Hdr) (acc : Fin 8) (t : Fin 8) (qa : Fin 8) (qb : Fin 8) : Statement (.mmas h acc t qa qb) := rfl
theorem mzero (h : Hdr) (acc : Fin 8) : Statement (.mzero h acc) := rfl
theorem mst (h : Hdr) (acc : Fin 8) (sty : Fin 4) (dith : Bool) (a : Near) : Statement (.mst h acc sty dith a) := rfl
theorem mld (h : Hdr) (acc : Fin 8) (a : Near) : Statement (.mld h acc a) := rfl
theorem mcontrib (h : Hdr) (acc : Fin 8) (qpair : Fin 8) (lab : Near) : Statement (.mcontrib h acc qpair lab) := rfl
theorem itset (h : Hdr) (it : Fin 8) (a : Near) : Statement (.itset h it a) := rfl
theorem sweep (h : Hdr) (op : Fin 8) (itd : Fin 8) (ita : Fin 8) (itb : Fin 8) : Statement (.sweep h op itd ita itb) := rfl
theorem waitcnt (h : Hdr) (d : Near) (a : Near) : Statement (.waitcnt h d a) := rfl
theorem pref (h : Hdr) (a : Near) (count : Fin 32) (hint : Fin 4) : Statement (.pref h a count hint) := rfl
theorem salloc (h : Hdr) (d : Near) (a : Near) : Statement (.salloc h d a) := rfl
theorem sfree (h : Hdr) (a : Near) : Statement (.sfree h a) := rfl
theorem atomIadd (h : Hdr) (d : Near) (a : Fin 16) (m : Fin 8) : Statement (.atomIadd h d a m) := rfl
theorem atomImin (h : Hdr) (d : Near) (a : Fin 16) (m : Fin 8) : Statement (.atomImin h d a m) := rfl
theorem atomImax (h : Hdr) (d : Near) (a : Fin 16) (m : Fin 8) : Statement (.atomImax h d a m) := rfl
theorem atomLogic (h : Hdr) (d : Near) (a : Fin 16) (m : Fin 8) : Statement (.atomLogic h d a m) := rfl
theorem atomXchg (h : Hdr) (d : Near) (a : Fin 16) (m : Fin 8) : Statement (.atomXchg h d a m) := rfl
theorem atomFmin (h : Hdr) (d : Near) (a : Fin 16) (m : Fin 8) : Statement (.atomFmin h d a m) := rfl
theorem atomFmax (h : Hdr) (d : Near) (a : Fin 16) (m : Fin 8) : Statement (.atomFmax h d a m) := rfl
theorem cas (h : Hdr) (d : Near) (a : Fin 16) (m : Fin 8) : Statement (.cas h d a m) := rfl
theorem gemvn (h : Hdr) (d : Near) (a : Near) : Statement (.gemvn h d a) := rfl
theorem coll (h : Hdr) (d : Near) (a : Near) : Statement (.coll h d a) := rfl
theorem snap (h : Hdr) (code : BitVec 12) : Statement (.snap h code) := rfl
theorem loadDataReturn (core slot load : Nat) (completion : Completion) : Statement (.loadDataReturn core slot load completion) := rfl
theorem waitcntRelease (core slot load : Nat) : Statement (.waitcntRelease core slot load) := rfl
theorem kroomGrant (core slot : Nat) : Statement (.kroomGrant core slot) := rfl
theorem kwaitGrant (core slot : Nat) : Statement (.kwaitGrant core slot) := rfl
theorem barrierComplete (bar : Nat) (remote : BitVec 16) : Statement (.barrierComplete bar remote) := rfl
theorem windowCommit (core slot : Nat) : Statement (.windowCommit core slot) := rfl
theorem bundleRegroup (core slot : Nat) : Statement (.bundleRegroup core slot) := rfl
theorem counterPromotion (core slot : Nat) : Statement (.counterPromotion core slot) := rfl
theorem warpUrgent (core slot : Nat) : Statement (.warpUrgent core slot) := rfl
theorem copyEntryStart (entry : Nat) : Statement (.copyEntryStart entry) := rfl
theorem cpymDelivery (entry core : Nat) : Statement (.cpymDelivery entry core) := rfl
theorem engineElementFault (entry : Nat) : Statement (.engineElementFault entry) := rfl
theorem engineCompletion (entry : Nat) : Statement (.engineCompletion entry) := rfl
theorem matrixPassStart (core partition : Nat) : Statement (.matrixPassStart core partition) := rfl
theorem kStepFinish (entry quarter : Nat) : Statement (.kStepFinish entry quarter) := rfl
theorem gemvnStart (stack : Nat) : Statement (.gemvnStart stack) := rfl
theorem collInstanceStart (entry : Nat) : Statement (.collInstanceStart entry) := rfl
theorem workEntryFire (inst index : Nat) : Statement (.workEntryFire inst index) := rfl
theorem collComplete (inst : Nat) : Statement (.collComplete inst) := rfl
theorem lullArrival (lull : LullId) : Statement (.lullArrival lull) := rfl
theorem lineDone : Statement .lineDone := rfl
theorem launchStart (queue : Nat) : Statement (.launchStart queue) := rfl
theorem blockPlacement (launch : Nat) (cores : List Nat) : Statement (.blockPlacement launch cores) := rfl
theorem launchComplete (launch : Nat) : Statement (.launchComplete launch) := rfl
theorem registerWrite (offset size : Nat) (value : DWord) : Statement (.registerWrite offset size value) := rfl
theorem engineFaultEntry (core slot fid : Nat) : Statement (.engineFaultEntry core slot fid) := rfl
theorem softErrorTrap (core slot : Nat) : Statement (.softErrorTrap core slot) := rfl
theorem rollback (core slot : Nat) (trigger : Gran) : Statement (.rollback core slot trigger) := rfl
theorem softErrorEvent (e : SoftError) : Statement (.softErrorEvent e) := rfl
theorem lullForwardTimeout (lull : LullId) (key : Nat) : Statement (.lullForwardTimeout lull key) := rfl
theorem flitTransmit (port : Nat) : Statement (.flitTransmit port) := rfl
theorem controlFlitSend (port : Nat) : Statement (.controlFlitSend port) := rfl
theorem controlFlit (port : Nat) (f : Flit) : Statement (.controlFlit port f) := rfl
theorem requestFlit (port : Nat) (f : Flit) : Statement (.requestFlit port f) := rfl
theorem responseFlit (port : Nat) (f : Flit) : Statement (.responseFlit port f) := rfl
theorem bulkWriteFlit (port : Nat) (f : Flit) : Statement (.bulkWriteFlit port f) := rfl
theorem multicastFlit (port : Nat) (route data : Flit) : Statement (.multicastFlit port route data) := rfl
theorem lullEntryFlit (port : Nat) (f : Flit) : Statement (.lullEntryFlit port f) := rfl
theorem planWriteFlit (port : Nat) (f : Flit) : Statement (.planWriteFlit port f) := rfl
theorem keySwitchMarker (port : Nat) (f : Flit) : Statement (.keySwitchMarker port f) := rfl
theorem reservedKindFlit (port : Nat) (f : Flit) : Statement (.reservedKindFlit port f) := rfl
theorem replayTimeout (port : Nat) : Statement (.replayTimeout port) := rfl
theorem keySwitch (port : Nat) : Statement (.keySwitch port) := rfl
theorem deviceLost (dev : Nat) : Statement (.deviceLost dev) := rfl
theorem allowanceRegrant (dev : Nat) : Statement (.allowanceRegrant dev) := rfl
theorem grantReturn (dev core : Nat) : Statement (.grantReturn dev core) := rfl
theorem becalmedWake (dev : Nat) : Statement (.becalmedWake dev) := rfl
theorem uePacketReceive (p : UePacket) : Statement (.uePacketReceive p) := rfl
theorem uePeerUnreachable (fabricAddress : DWord) : Statement (.uePeerUnreachable fabricAddress) := rfl
theorem queueTailWrite (queue : Nat) (tail : Word) : Statement (.queueTailWrite queue tail) := rfl
theorem carveOutWrite (core : Nat) (value : Word) : Statement (.carveOutWrite core value) := rfl
theorem carveOutDone (core : Nat) : Statement (.carveOutDone core) := rfl
theorem pmCoreWrite (core : Nat) (value : Word) : Statement (.pmCoreWrite core value) := rfl
theorem tlbInvalidate (value : DWord) : Statement (.tlbInvalidate value) := rfl
theorem tlbInvalidateDone : Statement .tlbInvalidateDone := rfl
theorem spillAreaMove (value : Word) : Statement (.spillAreaMove value) := rfl
theorem preemptRequest (value : DWord) : Statement (.preemptRequest value) := rfl
theorem contextSave (value : Word) : Statement (.contextSave value) := rfl
theorem contextRestore (value : Word) : Statement (.contextRestore value) := rfl
theorem preemptComplete : Statement .preemptComplete := rfl
theorem engineFaultResume (fid : Nat) : Statement (.engineFaultResume fid) := rfl
theorem engineFaultAbandon (fid : Nat) : Statement (.engineFaultAbandon fid) := rfl
theorem efCfgWrite (value : Word) : Statement (.efCfgWrite value) := rfl
theorem efHeadWrite (value : Word) : Statement (.efHeadWrite value) := rfl
theorem directoryRequest (core line : Nat) (req : DirReq) : Statement (.directoryRequest core line req) := rfl
theorem syncUpdate (core slot line : Nat) : Statement (.syncUpdate core slot line) := rfl
theorem syncUpdateAck (line sharer : Nat) : Statement (.syncUpdateAck line sharer) := rfl
theorem pageRequest (dev page : Nat) (req : PageReq) : Statement (.pageRequest dev page req) := rfl
theorem pageRecall (page : Nat) : Statement (.pageRecall page) := rfl
theorem recallAck (dev page : Nat) : Statement (.recallAck dev page) := rfl
theorem driverRecall (value : DWord) : Statement (.driverRecall value) := rfl
theorem hostMemRequest (op : HostMemOp) (pa : Nat) : Statement (.hostMemRequest op pa) := rfl
theorem hostSnoop (kind : Snoop) (sector : Nat) : Statement (.hostSnoop kind sector) := rfl
theorem backInvalidateResponse (sector : Nat) (data : Option (List Byte)) : Statement (.backInvalidateResponse sector data) := rfl
theorem hostLinkDown : Statement .hostLinkDown := rfl
theorem hxCtlWrite (value : Word) : Statement (.hxCtlWrite value) := rfl
theorem functionReady (bit : Nat) : Statement (.functionReady bit) := rfl
theorem dxpCtlWrite (port : Nat) (value : Word) : Statement (.dxpCtlWrite port value) := rfl
theorem keyLoad (cmd : Word) : Statement (.keyLoad cmd) := rfl
theorem keyErase (cmd : Word) : Statement (.keyErase cmd) := rfl
theorem securityAlarm (cause : Fin 4) : Statement (.securityAlarm cause) := rfl
theorem snapshotHostTrigger (value : Word) : Statement (.snapshotHostTrigger value) := rfl
theorem snapshotTrigger (src : SnapSource) (tag : BitVec 12) (core : Nat) : Statement (.snapshotTrigger src tag core) := rfl
theorem snapshotLatch (block : Nat) : Statement (.snapshotLatch block) := rfl
theorem snapshotDistributionEnd : Statement .snapshotDistributionEnd := rfl
theorem snapshotDone : Statement .snapshotDone := rfl
theorem planLoad (slot : Fin 64) (value : DWord) : Statement (.planLoad slot value) := rfl
theorem planUnload (slot : Fin 64) (value : DWord) : Statement (.planUnload slot value) := rfl
theorem precopyPass (value : Word) : Statement (.precopyPass value) := rfl
theorem precopyPassEnd (acked : Bool) : Statement (.precopyPassEnd acked) := rfl
theorem precopyRecordReceive (r : PrecopyRecord) : Statement (.precopyRecordReceive r) := rfl
theorem lifetimeDump (value : Word) : Statement (.lifetimeDump value) := rfl
theorem lifetimeCommit : Statement .lifetimeCommit := rfl
theorem orderlyPowerDown : Statement .orderlyPowerDown := rfl
theorem reset : Statement .reset := rfl
theorem fetchFault (kind : FetchFaultKind) (va : DWord) : Statement (.fetchFault kind va) := rfl
theorem illegalEncoding (kind : IllegalKind) : Statement (.illegalEncoding kind) := rfl
theorem powerManagerLimit (core steps : Nat) : Statement (.powerManagerLimit core steps) := rfl
theorem powerLoss : Statement .powerLoss := rfl
theorem doeRequest (m : DoeMsg) : Statement (.doeRequest m) := rfl
theorem cxlCacheResponse (sector : Nat) (grant : CxlState) (data : List Byte) : Statement (.cxlCacheResponse sector grant data) := rfl
theorem unauthenticatedFlit (port : Nat) : Statement (.unauthenticatedFlit port) := rfl

end Sys2Proof.Laws.WordCount
end

