-- ==== Sys2Proof/Laws/Seal.lean ====
section
/-! SUPPORT. What sealing gives (R343, R448): a sealed text opens to its plain text under the same key, IV and additional data, and a
sealed flit authenticates at the port that it arrives at. -/
namespace Sys2Proof.Laws
open Sys2Proof.Machine

/-- Encrypting twice under one key and IV gives the text back. -/
theorem gcmCrypt_gcmCrypt (key : BitVec 256) (iv : BitVec 96) (bs : List Byte) :
    gcmCrypt key iv (gcmCrypt key iv bs) = bs := by
  refine List.ext_getElem (by simp [gcmCrypt]) fun n h h' => ?_
  simp [gcmCrypt, BitVec.xor_assoc]

/-- A sealed text opens. -/
theorem gcmOpen_gcmSeal (key : BitVec 256) (iv : BitVec 96) (aad bs : List Byte) :
    gcmOpen key iv aad (gcmSeal key iv aad bs).1 (gcmSeal key iv aad bs).2 = some bs := by
  simp [gcmOpen, gcmSeal, gcmCrypt_gcmCrypt]

/-- A flit whose bytes were sealed by a port `q` of the facing device, under the key and link identity of its slot here, authenticates. -/
theorem authentic_of_seal {s : State} {p q : Nat} {f : Flit} {k : KeySlot} (hk : s.keySlot 1 p (if f.slot then 1 else 0) = some k)
    (hq : q < 15) (hb : f.body = (gcmSeal k.key (flitIv k.lid (s.port p).peer q f) (bytesLE 16 (flitHeader f).toNat) f.payload).1)
    (ht : f.tag = (gcmSeal k.key (flitIv k.lid (s.port p).peer q f) (bytesLE 16 (flitHeader f).toNat) f.payload).2) :
    s.authentic p f = true := by
  simp only [State.authentic, hk, Option.any_some, List.any_eq_true, List.mem_range]
  exact ⟨q, hq, by rw [hb, ht, gcmOpen_gcmSeal]; exact beq_self_eq_true _⟩

/-- Without a key under its slot no flit authenticates. -/
theorem authentic_of_noKey {s : State} {p : Nat} {f : Flit} (hk : s.keySlot 1 p (if f.slot then 1 else 0) = none) : s.authentic p f = false := by
  simp [State.authentic, hk]

end Sys2Proof.Laws
end

