-- ==== Sys2Proof/Laws/State.lean ====
section
/-! SUPPORT. What each update of the state and of a warp leaves alone: one lemma per field, true by unfolding. -/
namespace Sys2Proof.Machine

/-! ### `State.setWarp` -/

@[simp] theorem State.setWarp_cur (s : State) (core slot : Nat) (w : Warp) : (s.setWarp core slot w).cur = s.cur := rfl
@[simp] theorem State.setWarp_agenda (s : State) (core slot : Nat) (w : Warp) : (s.setWarp core slot w).agenda = s.agenda := rfl
@[simp] theorem State.setWarp_free (s : State) (core slot : Nat) (w : Warp) : (s.setWarp core slot w).free = s.free := rfl
@[simp] theorem State.setWarp_self (s : State) (core slot : Nat) (w : Warp) : (s.setWarp core slot w).self = s.self := rfl
@[simp] theorem State.setWarp_present (s : State) (core slot : Nat) (w : Warp) : (s.setWarp core slot w).present = s.present := rfl
@[simp] theorem State.setWarp_mem (s : State) (core slot : Nat) (w : Warp) : (s.setWarp core slot w).mem = s.mem := rfl
@[simp] theorem State.setWarp_stale (s : State) (core slot : Nat) (w : Warp) : (s.setWarp core slot w).stale = s.stale := rfl
@[simp] theorem State.setWarp_scratch (s : State) (core slot : Nat) (w : Warp) : (s.setWarp core slot w).scratch = s.scratch := rfl
@[simp] theorem State.setWarp_warps (s : State) (core slot : Nat) (w : Warp) : (s.setWarp core slot w).warps = SMap.put s.warps (warpKey core slot) w := rfl
@[simp] theorem State.setWarp_left (s : State) (core slot : Nat) (w : Warp) : (s.setWarp core slot w).left = s.left := rfl
@[simp] theorem State.setWarp_cores (s : State) (core slot : Nat) (w : Warp) : (s.setWarp core slot w).cores = s.cores := rfl
@[simp] theorem State.setWarp_blocks (s : State) (core slot : Nat) (w : Warp) : (s.setWarp core slot w).blocks = s.blocks := rfl
@[simp] theorem State.setWarp_bars (s : State) (core slot : Nat) (w : Warp) : (s.setWarp core slot w).bars = s.bars := rfl
@[simp] theorem State.setWarp_launches (s : State) (core slot : Nat) (w : Warp) : (s.setWarp core slot w).launches = s.launches := rfl
@[simp] theorem State.setWarp_queues (s : State) (core slot : Nat) (w : Warp) : (s.setWarp core slot w).queues = s.queues := rfl
@[simp] theorem State.setWarp_turn (s : State) (core slot : Nat) (w : Warp) : (s.setWarp core slot w).turn = s.turn := rfl
@[simp] theorem State.setWarp_entries (s : State) (core slot : Nat) (w : Warp) : (s.setWarp core slot w).entries = s.entries := rfl
@[simp] theorem State.setWarp_nextEntry (s : State) (core slot : Nat) (w : Warp) : (s.setWarp core slot w).nextEntry = s.nextEntry := rfl
@[simp] theorem State.setWarp_l1 (s : State) (core slot : Nat) (w : Warp) : (s.setWarp core slot w).l1 = s.l1 := rfl
@[simp] theorem State.setWarp_tlb (s : State) (core slot : Nat) (w : Warp) : (s.setWarp core slot w).tlb = s.tlb := rfl
@[simp] theorem State.setWarp_ctxs (s : State) (core slot : Nat) (w : Warp) : (s.setWarp core slot w).ctxs = s.ctxs := rfl
@[simp] theorem State.setWarp_spbase (s : State) (core slot : Nat) (w : Warp) : (s.setWarp core slot w).spbase = s.spbase := rfl
@[simp] theorem State.setWarp_held (s : State) (core slot : Nat) (w : Warp) : (s.setWarp core slot w).held = s.held := rfl
@[simp] theorem State.setWarp_wanted (s : State) (core slot : Nat) (w : Warp) : (s.setWarp core slot w).wanted = s.wanted := rfl
@[simp] theorem State.setWarp_hostIo (s : State) (core slot : Nat) (w : Warp) : (s.setWarp core slot w).hostIo = s.hostIo := rfl
@[simp] theorem State.setWarp_mmio (s : State) (core slot : Nat) (w : Warp) : (s.setWarp core slot w).mmio = s.mmio := rfl
@[simp] theorem State.setWarp_msix (s : State) (core slot : Nat) (w : Warp) : (s.setWarp core slot w).msix = s.msix := rfl
@[simp] theorem State.setWarp_objs (s : State) (core slot : Nat) (w : Warp) : (s.setWarp core slot w).objs = s.objs := rfl
@[simp] theorem State.setWarp_lulls (s : State) (core slot : Nat) (w : Warp) : (s.setWarp core slot w).lulls = s.lulls := rfl
@[simp] theorem State.setWarp_reports (s : State) (core slot : Nat) (w : Warp) : (s.setWarp core slot w).reports = s.reports := rfl
@[simp] theorem State.setWarp_owedStatus (s : State) (core slot : Nat) (w : Warp) : (s.setWarp core slot w).owedStatus = s.owedStatus := rfl
@[simp] theorem State.setWarp_lullSeq (s : State) (core slot : Nat) (w : Warp) : (s.setWarp core slot w).lullSeq = s.lullSeq := rfl
@[simp] theorem State.setWarp_plans (s : State) (core slot : Nat) (w : Warp) : (s.setWarp core slot w).plans = s.plans := rfl
@[simp] theorem State.setWarp_insts (s : State) (core slot : Nat) (w : Warp) : (s.setWarp core slot w).insts = s.insts := rfl
@[simp] theorem State.setWarp_nextInst (s : State) (core slot : Nat) (w : Warp) : (s.setWarp core slot w).nextInst = s.nextInst := rfl
@[simp] theorem State.setWarp_ctxDevs (s : State) (core slot : Nat) (w : Warp) : (s.setWarp core slot w).ctxDevs = s.ctxDevs := rfl
@[simp] theorem State.setWarp_heldWrites (s : State) (core slot : Nat) (w : Warp) : (s.setWarp core slot w).heldWrites = s.heldWrites := rfl
@[simp] theorem State.setWarp_ports (s : State) (core slot : Nat) (w : Warp) : (s.setWarp core slot w).ports = s.ports := rfl
@[simp] theorem State.setWarp_hubq (s : State) (core slot : Nat) (w : Warp) : (s.setWarp core slot w).hubq = s.hubq := rfl
@[simp] theorem State.setWarp_pools (s : State) (core slot : Nat) (w : Warp) : (s.setWarp core slot w).pools = s.pools := rfl
@[simp] theorem State.setWarp_dir (s : State) (core slot : Nat) (w : Warp) : (s.setWarp core slot w).dir = s.dir := rfl
@[simp] theorem State.setWarp_hostSec (s : State) (core slot : Nat) (w : Warp) : (s.setWarp core slot w).hostSec = s.hostSec := rfl
@[simp] theorem State.setWarp_backInv (s : State) (core slot : Nat) (w : Warp) : (s.setWarp core slot w).backInv = s.backInv := rfl
@[simp] theorem State.setWarp_pages (s : State) (core slot : Nat) (w : Warp) : (s.setWarp core slot w).pages = s.pages := rfl
@[simp] theorem State.setWarp_recalls (s : State) (core slot : Nat) (w : Warp) : (s.setWarp core slot w).recalls = s.recalls := rfl
@[simp] theorem State.setWarp_updates (s : State) (core slot : Nat) (w : Warp) : (s.setWarp core slot w).updates = s.updates := rfl
@[simp] theorem State.setWarp_revoked (s : State) (core slot : Nat) (w : Warp) : (s.setWarp core slot w).revoked = s.revoked := rfl
@[simp] theorem State.setWarp_storesOut (s : State) (core slot : Nat) (w : Warp) : (s.setWarp core slot w).storesOut = s.storesOut := rfl
@[simp] theorem State.setWarp_away (s : State) (core slot : Nat) (w : Warp) : (s.setWarp core slot w).away = s.away := rfl
@[simp] theorem State.setWarp_lendFor (s : State) (core slot : Nat) (w : Warp) : (s.setWarp core slot w).lendFor = s.lendFor := rfl
@[simp] theorem State.setWarp_voided (s : State) (core slot : Nat) (w : Warp) : (s.setWarp core slot w).voided = s.voided := rfl
@[simp] theorem State.setWarp_prefs (s : State) (core slot : Nat) (w : Warp) : (s.setWarp core slot w).prefs = s.prefs := rfl
@[simp] theorem State.setWarp_farBars (s : State) (core slot : Nat) (w : Warp) : (s.setWarp core slot w).farBars = s.farBars := rfl
@[simp] theorem State.setWarp_loans (s : State) (core slot : Nat) (w : Warp) : (s.setWarp core slot w).loans = s.loans := rfl
@[simp] theorem State.setWarp_peerWait (s : State) (core slot : Nat) (w : Warp) : (s.setWarp core slot w).peerWait = s.peerWait := rfl
@[simp] theorem State.setWarp_efaults (s : State) (core slot : Nat) (w : Warp) : (s.setWarp core slot w).efaults = s.efaults := rfl
@[simp] theorem State.setWarp_nextFid (s : State) (core slot : Nat) (w : Warp) : (s.setWarp core slot w).nextFid = s.nextFid := rfl
@[simp] theorem State.setWarp_inval (s : State) (core slot : Nat) (w : Warp) : (s.setWarp core slot w).inval = s.inval := rfl
@[simp] theorem State.setWarp_aborts (s : State) (core slot : Nat) (w : Warp) : (s.setWarp core slot w).aborts = s.aborts := rfl
@[simp] theorem State.setWarp_preempt (s : State) (core slot : Nat) (w : Warp) : (s.setWarp core slot w).preempt = s.preempt := rfl
@[simp] theorem State.setWarp_saved (s : State) (core slot : Nat) (w : Warp) : (s.setWarp core slot w).saved = s.saved := rfl
@[simp] theorem State.setWarp_waiting (s : State) (core slot : Nat) (w : Warp) : (s.setWarp core slot w).waiting = s.waiting := rfl
@[simp] theorem State.setWarp_keys (s : State) (core slot : Nat) (w : Warp) : (s.setWarp core slot w).keys = s.keys := rfl
@[simp] theorem State.setWarp_kek (s : State) (core slot : Nat) (w : Warp) : (s.setWarp core slot w).kek = s.kek := rfl
@[simp] theorem State.setWarp_ide (s : State) (core slot : Nat) (w : Warp) : (s.setWarp core slot w).ide = s.ide := rfl
@[simp] theorem State.setWarp_spdm (s : State) (core slot : Nat) (w : Warp) : (s.setWarp core slot w).spdm = s.spdm := rfl
@[simp] theorem State.setWarp_snap (s : State) (core slot : Nat) (w : Warp) : (s.setWarp core slot w).snap = s.snap := rfl
@[simp] theorem State.setWarp_pass (s : State) (core slot : Nat) (w : Warp) : (s.setWarp core slot w).pass = s.pass := rfl
@[simp] theorem State.setWarp_pcSeen (s : State) (core slot : Nat) (w : Warp) : (s.setWarp core slot w).pcSeen = s.pcSeen := rfl
@[simp] theorem State.setWarp_pcCtr (s : State) (core slot : Nat) (w : Warp) : (s.setWarp core slot w).pcCtr = s.pcCtr := rfl
@[simp] theorem State.setWarp_life (s : State) (core slot : Nat) (w : Warp) : (s.setWarp core slot w).life = s.life := rfl
@[simp] theorem State.setWarp_flash (s : State) (core slot : Nat) (w : Warp) : (s.setWarp core slot w).flash = s.flash := rfl
@[simp] theorem State.setWarp_commits (s : State) (core slot : Nat) (w : Warp) : (s.setWarp core slot w).commits = s.commits := rfl
@[simp] theorem State.setWarp_poison (s : State) (core slot : Nat) (w : Warp) : (s.setWarp core slot w).poison = s.poison := rfl
@[simp] theorem State.setWarp_softKills (s : State) (core slot : Nat) (w : Warp) : (s.setWarp core slot w).softKills = s.softKills := rfl
@[simp] theorem State.setWarp_issued (s : State) (core slot : Nat) (w : Warp) : (s.setWarp core slot w).issued = s.issued := rfl
@[simp] theorem State.setWarp_ueCount (s : State) (core slot : Nat) (w : Warp) : (s.setWarp core slot w).ueCount = s.ueCount := rfl
@[simp] theorem State.setWarp_ueOut (s : State) (core slot : Nat) (w : Warp) : (s.setWarp core slot w).ueOut = s.ueOut := rfl

/-! ### `State.setCore` -/

@[simp] theorem State.setCore_cur (s : State) (c : Nat) (x : Core) : (s.setCore c x).cur = s.cur := rfl
@[simp] theorem State.setCore_agenda (s : State) (c : Nat) (x : Core) : (s.setCore c x).agenda = s.agenda := rfl
@[simp] theorem State.setCore_free (s : State) (c : Nat) (x : Core) : (s.setCore c x).free = s.free := rfl
@[simp] theorem State.setCore_self (s : State) (c : Nat) (x : Core) : (s.setCore c x).self = s.self := rfl
@[simp] theorem State.setCore_present (s : State) (c : Nat) (x : Core) : (s.setCore c x).present = s.present := rfl
@[simp] theorem State.setCore_mem (s : State) (c : Nat) (x : Core) : (s.setCore c x).mem = s.mem := rfl
@[simp] theorem State.setCore_stale (s : State) (c : Nat) (x : Core) : (s.setCore c x).stale = s.stale := rfl
@[simp] theorem State.setCore_scratch (s : State) (c : Nat) (x : Core) : (s.setCore c x).scratch = s.scratch := rfl
@[simp] theorem State.setCore_warps (s : State) (c : Nat) (x : Core) : (s.setCore c x).warps = s.warps := rfl
@[simp] theorem State.setCore_left (s : State) (c : Nat) (x : Core) : (s.setCore c x).left = s.left := rfl
@[simp] theorem State.setCore_cores (s : State) (c : Nat) (x : Core) : (s.setCore c x).cores = SMap.put s.cores c x := rfl
@[simp] theorem State.setCore_blocks (s : State) (c : Nat) (x : Core) : (s.setCore c x).blocks = s.blocks := rfl
@[simp] theorem State.setCore_bars (s : State) (c : Nat) (x : Core) : (s.setCore c x).bars = s.bars := rfl
@[simp] theorem State.setCore_launches (s : State) (c : Nat) (x : Core) : (s.setCore c x).launches = s.launches := rfl
@[simp] theorem State.setCore_queues (s : State) (c : Nat) (x : Core) : (s.setCore c x).queues = s.queues := rfl
@[simp] theorem State.setCore_turn (s : State) (c : Nat) (x : Core) : (s.setCore c x).turn = s.turn := rfl
@[simp] theorem State.setCore_entries (s : State) (c : Nat) (x : Core) : (s.setCore c x).entries = s.entries := rfl
@[simp] theorem State.setCore_nextEntry (s : State) (c : Nat) (x : Core) : (s.setCore c x).nextEntry = s.nextEntry := rfl
@[simp] theorem State.setCore_l1 (s : State) (c : Nat) (x : Core) : (s.setCore c x).l1 = s.l1 := rfl
@[simp] theorem State.setCore_tlb (s : State) (c : Nat) (x : Core) : (s.setCore c x).tlb = s.tlb := rfl
@[simp] theorem State.setCore_ctxs (s : State) (c : Nat) (x : Core) : (s.setCore c x).ctxs = s.ctxs := rfl
@[simp] theorem State.setCore_spbase (s : State) (c : Nat) (x : Core) : (s.setCore c x).spbase = s.spbase := rfl
@[simp] theorem State.setCore_held (s : State) (c : Nat) (x : Core) : (s.setCore c x).held = s.held := rfl
@[simp] theorem State.setCore_wanted (s : State) (c : Nat) (x : Core) : (s.setCore c x).wanted = s.wanted := rfl
@[simp] theorem State.setCore_hostIo (s : State) (c : Nat) (x : Core) : (s.setCore c x).hostIo = s.hostIo := rfl
@[simp] theorem State.setCore_mmio (s : State) (c : Nat) (x : Core) : (s.setCore c x).mmio = s.mmio := rfl
@[simp] theorem State.setCore_msix (s : State) (c : Nat) (x : Core) : (s.setCore c x).msix = s.msix := rfl
@[simp] theorem State.setCore_objs (s : State) (c : Nat) (x : Core) : (s.setCore c x).objs = s.objs := rfl
@[simp] theorem State.setCore_lulls (s : State) (c : Nat) (x : Core) : (s.setCore c x).lulls = s.lulls := rfl
@[simp] theorem State.setCore_reports (s : State) (c : Nat) (x : Core) : (s.setCore c x).reports = s.reports := rfl
@[simp] theorem State.setCore_owedStatus (s : State) (c : Nat) (x : Core) : (s.setCore c x).owedStatus = s.owedStatus := rfl
@[simp] theorem State.setCore_lullSeq (s : State) (c : Nat) (x : Core) : (s.setCore c x).lullSeq = s.lullSeq := rfl
@[simp] theorem State.setCore_plans (s : State) (c : Nat) (x : Core) : (s.setCore c x).plans = s.plans := rfl
@[simp] theorem State.setCore_insts (s : State) (c : Nat) (x : Core) : (s.setCore c x).insts = s.insts := rfl
@[simp] theorem State.setCore_nextInst (s : State) (c : Nat) (x : Core) : (s.setCore c x).nextInst = s.nextInst := rfl
@[simp] theorem State.setCore_ctxDevs (s : State) (c : Nat) (x : Core) : (s.setCore c x).ctxDevs = s.ctxDevs := rfl
@[simp] theorem State.setCore_heldWrites (s : State) (c : Nat) (x : Core) : (s.setCore c x).heldWrites = s.heldWrites := rfl
@[simp] theorem State.setCore_ports (s : State) (c : Nat) (x : Core) : (s.setCore c x).ports = s.ports := rfl
@[simp] theorem State.setCore_hubq (s : State) (c : Nat) (x : Core) : (s.setCore c x).hubq = s.hubq := rfl
@[simp] theorem State.setCore_pools (s : State) (c : Nat) (x : Core) : (s.setCore c x).pools = s.pools := rfl
@[simp] theorem State.setCore_dir (s : State) (c : Nat) (x : Core) : (s.setCore c x).dir = s.dir := rfl
@[simp] theorem State.setCore_hostSec (s : State) (c : Nat) (x : Core) : (s.setCore c x).hostSec = s.hostSec := rfl
@[simp] theorem State.setCore_backInv (s : State) (c : Nat) (x : Core) : (s.setCore c x).backInv = s.backInv := rfl
@[simp] theorem State.setCore_pages (s : State) (c : Nat) (x : Core) : (s.setCore c x).pages = s.pages := rfl
@[simp] theorem State.setCore_recalls (s : State) (c : Nat) (x : Core) : (s.setCore c x).recalls = s.recalls := rfl
@[simp] theorem State.setCore_updates (s : State) (c : Nat) (x : Core) : (s.setCore c x).updates = s.updates := rfl
@[simp] theorem State.setCore_revoked (s : State) (c : Nat) (x : Core) : (s.setCore c x).revoked = s.revoked := rfl
@[simp] theorem State.setCore_storesOut (s : State) (c : Nat) (x : Core) : (s.setCore c x).storesOut = s.storesOut := rfl
@[simp] theorem State.setCore_away (s : State) (c : Nat) (x : Core) : (s.setCore c x).away = s.away := rfl
@[simp] theorem State.setCore_lendFor (s : State) (c : Nat) (x : Core) : (s.setCore c x).lendFor = s.lendFor := rfl
@[simp] theorem State.setCore_voided (s : State) (c : Nat) (x : Core) : (s.setCore c x).voided = s.voided := rfl
@[simp] theorem State.setCore_prefs (s : State) (c : Nat) (x : Core) : (s.setCore c x).prefs = s.prefs := rfl
@[simp] theorem State.setCore_farBars (s : State) (c : Nat) (x : Core) : (s.setCore c x).farBars = s.farBars := rfl
@[simp] theorem State.setCore_loans (s : State) (c : Nat) (x : Core) : (s.setCore c x).loans = s.loans := rfl
@[simp] theorem State.setCore_peerWait (s : State) (c : Nat) (x : Core) : (s.setCore c x).peerWait = s.peerWait := rfl
@[simp] theorem State.setCore_efaults (s : State) (c : Nat) (x : Core) : (s.setCore c x).efaults = s.efaults := rfl
@[simp] theorem State.setCore_nextFid (s : State) (c : Nat) (x : Core) : (s.setCore c x).nextFid = s.nextFid := rfl
@[simp] theorem State.setCore_inval (s : State) (c : Nat) (x : Core) : (s.setCore c x).inval = s.inval := rfl
@[simp] theorem State.setCore_aborts (s : State) (c : Nat) (x : Core) : (s.setCore c x).aborts = s.aborts := rfl
@[simp] theorem State.setCore_preempt (s : State) (c : Nat) (x : Core) : (s.setCore c x).preempt = s.preempt := rfl
@[simp] theorem State.setCore_saved (s : State) (c : Nat) (x : Core) : (s.setCore c x).saved = s.saved := rfl
@[simp] theorem State.setCore_waiting (s : State) (c : Nat) (x : Core) : (s.setCore c x).waiting = s.waiting := rfl
@[simp] theorem State.setCore_keys (s : State) (c : Nat) (x : Core) : (s.setCore c x).keys = s.keys := rfl
@[simp] theorem State.setCore_kek (s : State) (c : Nat) (x : Core) : (s.setCore c x).kek = s.kek := rfl
@[simp] theorem State.setCore_ide (s : State) (c : Nat) (x : Core) : (s.setCore c x).ide = s.ide := rfl
@[simp] theorem State.setCore_spdm (s : State) (c : Nat) (x : Core) : (s.setCore c x).spdm = s.spdm := rfl
@[simp] theorem State.setCore_snap (s : State) (c : Nat) (x : Core) : (s.setCore c x).snap = s.snap := rfl
@[simp] theorem State.setCore_pass (s : State) (c : Nat) (x : Core) : (s.setCore c x).pass = s.pass := rfl
@[simp] theorem State.setCore_pcSeen (s : State) (c : Nat) (x : Core) : (s.setCore c x).pcSeen = s.pcSeen := rfl
@[simp] theorem State.setCore_pcCtr (s : State) (c : Nat) (x : Core) : (s.setCore c x).pcCtr = s.pcCtr := rfl
@[simp] theorem State.setCore_life (s : State) (c : Nat) (x : Core) : (s.setCore c x).life = s.life := rfl
@[simp] theorem State.setCore_flash (s : State) (c : Nat) (x : Core) : (s.setCore c x).flash = s.flash := rfl
@[simp] theorem State.setCore_commits (s : State) (c : Nat) (x : Core) : (s.setCore c x).commits = s.commits := rfl
@[simp] theorem State.setCore_poison (s : State) (c : Nat) (x : Core) : (s.setCore c x).poison = s.poison := rfl
@[simp] theorem State.setCore_softKills (s : State) (c : Nat) (x : Core) : (s.setCore c x).softKills = s.softKills := rfl
@[simp] theorem State.setCore_issued (s : State) (c : Nat) (x : Core) : (s.setCore c x).issued = s.issued := rfl
@[simp] theorem State.setCore_ueCount (s : State) (c : Nat) (x : Core) : (s.setCore c x).ueCount = s.ueCount := rfl
@[simp] theorem State.setCore_ueOut (s : State) (c : Nat) (x : Core) : (s.setCore c x).ueOut = s.ueOut := rfl

/-! ### `State.fresh` -/

@[simp] theorem State.fresh_cur (s : State) : (s.fresh).cur = s.cur := rfl
@[simp] theorem State.fresh_agenda (s : State) : (s.fresh).agenda = s.agenda := rfl
@[simp] theorem State.fresh_free (s : State) : (s.fresh).free = s.free + 1 := rfl
@[simp] theorem State.fresh_self (s : State) : (s.fresh).self = s.self := rfl
@[simp] theorem State.fresh_present (s : State) : (s.fresh).present = s.present := rfl
@[simp] theorem State.fresh_mem (s : State) : (s.fresh).mem = s.mem := rfl
@[simp] theorem State.fresh_stale (s : State) : (s.fresh).stale = s.stale := rfl
@[simp] theorem State.fresh_scratch (s : State) : (s.fresh).scratch = s.scratch := rfl
@[simp] theorem State.fresh_warps (s : State) : (s.fresh).warps = s.warps := rfl
@[simp] theorem State.fresh_left (s : State) : (s.fresh).left = s.left := rfl
@[simp] theorem State.fresh_cores (s : State) : (s.fresh).cores = s.cores := rfl
@[simp] theorem State.fresh_blocks (s : State) : (s.fresh).blocks = s.blocks := rfl
@[simp] theorem State.fresh_bars (s : State) : (s.fresh).bars = s.bars := rfl
@[simp] theorem State.fresh_launches (s : State) : (s.fresh).launches = s.launches := rfl
@[simp] theorem State.fresh_queues (s : State) : (s.fresh).queues = s.queues := rfl
@[simp] theorem State.fresh_turn (s : State) : (s.fresh).turn = s.turn := rfl
@[simp] theorem State.fresh_entries (s : State) : (s.fresh).entries = s.entries := rfl
@[simp] theorem State.fresh_nextEntry (s : State) : (s.fresh).nextEntry = s.nextEntry := rfl
@[simp] theorem State.fresh_l1 (s : State) : (s.fresh).l1 = s.l1 := rfl
@[simp] theorem State.fresh_tlb (s : State) : (s.fresh).tlb = s.tlb := rfl
@[simp] theorem State.fresh_ctxs (s : State) : (s.fresh).ctxs = s.ctxs := rfl
@[simp] theorem State.fresh_spbase (s : State) : (s.fresh).spbase = s.spbase := rfl
@[simp] theorem State.fresh_held (s : State) : (s.fresh).held = s.held := rfl
@[simp] theorem State.fresh_wanted (s : State) : (s.fresh).wanted = s.wanted := rfl
@[simp] theorem State.fresh_hostIo (s : State) : (s.fresh).hostIo = s.hostIo := rfl
@[simp] theorem State.fresh_mmio (s : State) : (s.fresh).mmio = s.mmio := rfl
@[simp] theorem State.fresh_msix (s : State) : (s.fresh).msix = s.msix := rfl
@[simp] theorem State.fresh_objs (s : State) : (s.fresh).objs = s.objs := rfl
@[simp] theorem State.fresh_lulls (s : State) : (s.fresh).lulls = s.lulls := rfl
@[simp] theorem State.fresh_reports (s : State) : (s.fresh).reports = s.reports := rfl
@[simp] theorem State.fresh_owedStatus (s : State) : (s.fresh).owedStatus = s.owedStatus := rfl
@[simp] theorem State.fresh_lullSeq (s : State) : (s.fresh).lullSeq = s.lullSeq := rfl
@[simp] theorem State.fresh_plans (s : State) : (s.fresh).plans = s.plans := rfl
@[simp] theorem State.fresh_insts (s : State) : (s.fresh).insts = s.insts := rfl
@[simp] theorem State.fresh_nextInst (s : State) : (s.fresh).nextInst = s.nextInst := rfl
@[simp] theorem State.fresh_ctxDevs (s : State) : (s.fresh).ctxDevs = s.ctxDevs := rfl
@[simp] theorem State.fresh_heldWrites (s : State) : (s.fresh).heldWrites = s.heldWrites := rfl
@[simp] theorem State.fresh_ports (s : State) : (s.fresh).ports = s.ports := rfl
@[simp] theorem State.fresh_hubq (s : State) : (s.fresh).hubq = s.hubq := rfl
@[simp] theorem State.fresh_pools (s : State) : (s.fresh).pools = s.pools := rfl
@[simp] theorem State.fresh_dir (s : State) : (s.fresh).dir = s.dir := rfl
@[simp] theorem State.fresh_hostSec (s : State) : (s.fresh).hostSec = s.hostSec := rfl
@[simp] theorem State.fresh_backInv (s : State) : (s.fresh).backInv = s.backInv := rfl
@[simp] theorem State.fresh_pages (s : State) : (s.fresh).pages = s.pages := rfl
@[simp] theorem State.fresh_recalls (s : State) : (s.fresh).recalls = s.recalls := rfl
@[simp] theorem State.fresh_updates (s : State) : (s.fresh).updates = s.updates := rfl
@[simp] theorem State.fresh_revoked (s : State) : (s.fresh).revoked = s.revoked := rfl
@[simp] theorem State.fresh_storesOut (s : State) : (s.fresh).storesOut = s.storesOut := rfl
@[simp] theorem State.fresh_away (s : State) : (s.fresh).away = s.away := rfl
@[simp] theorem State.fresh_lendFor (s : State) : (s.fresh).lendFor = s.lendFor := rfl
@[simp] theorem State.fresh_voided (s : State) : (s.fresh).voided = s.voided := rfl
@[simp] theorem State.fresh_prefs (s : State) : (s.fresh).prefs = s.prefs := rfl
@[simp] theorem State.fresh_farBars (s : State) : (s.fresh).farBars = s.farBars := rfl
@[simp] theorem State.fresh_loans (s : State) : (s.fresh).loans = s.loans := rfl
@[simp] theorem State.fresh_peerWait (s : State) : (s.fresh).peerWait = s.peerWait := rfl
@[simp] theorem State.fresh_efaults (s : State) : (s.fresh).efaults = s.efaults := rfl
@[simp] theorem State.fresh_nextFid (s : State) : (s.fresh).nextFid = s.nextFid := rfl
@[simp] theorem State.fresh_inval (s : State) : (s.fresh).inval = s.inval := rfl
@[simp] theorem State.fresh_aborts (s : State) : (s.fresh).aborts = s.aborts := rfl
@[simp] theorem State.fresh_preempt (s : State) : (s.fresh).preempt = s.preempt := rfl
@[simp] theorem State.fresh_saved (s : State) : (s.fresh).saved = s.saved := rfl
@[simp] theorem State.fresh_waiting (s : State) : (s.fresh).waiting = s.waiting := rfl
@[simp] theorem State.fresh_keys (s : State) : (s.fresh).keys = s.keys := rfl
@[simp] theorem State.fresh_kek (s : State) : (s.fresh).kek = s.kek := rfl
@[simp] theorem State.fresh_ide (s : State) : (s.fresh).ide = s.ide := rfl
@[simp] theorem State.fresh_spdm (s : State) : (s.fresh).spdm = s.spdm := rfl
@[simp] theorem State.fresh_snap (s : State) : (s.fresh).snap = s.snap := rfl
@[simp] theorem State.fresh_pass (s : State) : (s.fresh).pass = s.pass := rfl
@[simp] theorem State.fresh_pcSeen (s : State) : (s.fresh).pcSeen = s.pcSeen := rfl
@[simp] theorem State.fresh_pcCtr (s : State) : (s.fresh).pcCtr = s.pcCtr := rfl
@[simp] theorem State.fresh_life (s : State) : (s.fresh).life = s.life := rfl
@[simp] theorem State.fresh_flash (s : State) : (s.fresh).flash = s.flash := rfl
@[simp] theorem State.fresh_commits (s : State) : (s.fresh).commits = s.commits := rfl
@[simp] theorem State.fresh_poison (s : State) : (s.fresh).poison = s.poison := rfl
@[simp] theorem State.fresh_softKills (s : State) : (s.fresh).softKills = s.softKills := rfl
@[simp] theorem State.fresh_issued (s : State) : (s.fresh).issued = s.issued := rfl
@[simp] theorem State.fresh_ueCount (s : State) : (s.fresh).ueCount = s.ueCount := rfl
@[simp] theorem State.fresh_ueOut (s : State) : (s.fresh).ueOut = s.ueOut := rfl

/-! ### `State.setEntry` -/

@[simp] theorem State.setEntry_cur (s : State) (n : Nat) (e : Entry) : (s.setEntry n e).cur = s.cur := rfl
@[simp] theorem State.setEntry_agenda (s : State) (n : Nat) (e : Entry) : (s.setEntry n e).agenda = s.agenda := rfl
@[simp] theorem State.setEntry_free (s : State) (n : Nat) (e : Entry) : (s.setEntry n e).free = s.free := rfl
@[simp] theorem State.setEntry_self (s : State) (n : Nat) (e : Entry) : (s.setEntry n e).self = s.self := rfl
@[simp] theorem State.setEntry_present (s : State) (n : Nat) (e : Entry) : (s.setEntry n e).present = s.present := rfl
@[simp] theorem State.setEntry_mem (s : State) (n : Nat) (e : Entry) : (s.setEntry n e).mem = s.mem := rfl
@[simp] theorem State.setEntry_stale (s : State) (n : Nat) (e : Entry) : (s.setEntry n e).stale = s.stale := rfl
@[simp] theorem State.setEntry_scratch (s : State) (n : Nat) (e : Entry) : (s.setEntry n e).scratch = s.scratch := rfl
@[simp] theorem State.setEntry_warps (s : State) (n : Nat) (e : Entry) : (s.setEntry n e).warps = s.warps := rfl
@[simp] theorem State.setEntry_left (s : State) (n : Nat) (e : Entry) : (s.setEntry n e).left = s.left := rfl
@[simp] theorem State.setEntry_cores (s : State) (n : Nat) (e : Entry) : (s.setEntry n e).cores = s.cores := rfl
@[simp] theorem State.setEntry_blocks (s : State) (n : Nat) (e : Entry) : (s.setEntry n e).blocks = s.blocks := rfl
@[simp] theorem State.setEntry_bars (s : State) (n : Nat) (e : Entry) : (s.setEntry n e).bars = s.bars := rfl
@[simp] theorem State.setEntry_launches (s : State) (n : Nat) (e : Entry) : (s.setEntry n e).launches = s.launches := rfl
@[simp] theorem State.setEntry_queues (s : State) (n : Nat) (e : Entry) : (s.setEntry n e).queues = s.queues := rfl
@[simp] theorem State.setEntry_turn (s : State) (n : Nat) (e : Entry) : (s.setEntry n e).turn = s.turn := rfl
@[simp] theorem State.setEntry_entries (s : State) (n : Nat) (e : Entry) : (s.setEntry n e).entries = SMap.put s.entries n e := rfl
@[simp] theorem State.setEntry_nextEntry (s : State) (n : Nat) (e : Entry) : (s.setEntry n e).nextEntry = s.nextEntry := rfl
@[simp] theorem State.setEntry_l1 (s : State) (n : Nat) (e : Entry) : (s.setEntry n e).l1 = s.l1 := rfl
@[simp] theorem State.setEntry_tlb (s : State) (n : Nat) (e : Entry) : (s.setEntry n e).tlb = s.tlb := rfl
@[simp] theorem State.setEntry_ctxs (s : State) (n : Nat) (e : Entry) : (s.setEntry n e).ctxs = s.ctxs := rfl
@[simp] theorem State.setEntry_spbase (s : State) (n : Nat) (e : Entry) : (s.setEntry n e).spbase = s.spbase := rfl
@[simp] theorem State.setEntry_held (s : State) (n : Nat) (e : Entry) : (s.setEntry n e).held = s.held := rfl
@[simp] theorem State.setEntry_wanted (s : State) (n : Nat) (e : Entry) : (s.setEntry n e).wanted = s.wanted := rfl
@[simp] theorem State.setEntry_hostIo (s : State) (n : Nat) (e : Entry) : (s.setEntry n e).hostIo = s.hostIo := rfl
@[simp] theorem State.setEntry_mmio (s : State) (n : Nat) (e : Entry) : (s.setEntry n e).mmio = s.mmio := rfl
@[simp] theorem State.setEntry_msix (s : State) (n : Nat) (e : Entry) : (s.setEntry n e).msix = s.msix := rfl
@[simp] theorem State.setEntry_objs (s : State) (n : Nat) (e : Entry) : (s.setEntry n e).objs = s.objs := rfl
@[simp] theorem State.setEntry_lulls (s : State) (n : Nat) (e : Entry) : (s.setEntry n e).lulls = s.lulls := rfl
@[simp] theorem State.setEntry_reports (s : State) (n : Nat) (e : Entry) : (s.setEntry n e).reports = s.reports := rfl
@[simp] theorem State.setEntry_owedStatus (s : State) (n : Nat) (e : Entry) : (s.setEntry n e).owedStatus = s.owedStatus := rfl
@[simp] theorem State.setEntry_lullSeq (s : State) (n : Nat) (e : Entry) : (s.setEntry n e).lullSeq = s.lullSeq := rfl
@[simp] theorem State.setEntry_plans (s : State) (n : Nat) (e : Entry) : (s.setEntry n e).plans = s.plans := rfl
@[simp] theorem State.setEntry_insts (s : State) (n : Nat) (e : Entry) : (s.setEntry n e).insts = s.insts := rfl
@[simp] theorem State.setEntry_nextInst (s : State) (n : Nat) (e : Entry) : (s.setEntry n e).nextInst = s.nextInst := rfl
@[simp] theorem State.setEntry_ctxDevs (s : State) (n : Nat) (e : Entry) : (s.setEntry n e).ctxDevs = s.ctxDevs := rfl
@[simp] theorem State.setEntry_heldWrites (s : State) (n : Nat) (e : Entry) : (s.setEntry n e).heldWrites = s.heldWrites := rfl
@[simp] theorem State.setEntry_ports (s : State) (n : Nat) (e : Entry) : (s.setEntry n e).ports = s.ports := rfl
@[simp] theorem State.setEntry_hubq (s : State) (n : Nat) (e : Entry) : (s.setEntry n e).hubq = s.hubq := rfl
@[simp] theorem State.setEntry_pools (s : State) (n : Nat) (e : Entry) : (s.setEntry n e).pools = s.pools := rfl
@[simp] theorem State.setEntry_dir (s : State) (n : Nat) (e : Entry) : (s.setEntry n e).dir = s.dir := rfl
@[simp] theorem State.setEntry_hostSec (s : State) (n : Nat) (e : Entry) : (s.setEntry n e).hostSec = s.hostSec := rfl
@[simp] theorem State.setEntry_backInv (s : State) (n : Nat) (e : Entry) : (s.setEntry n e).backInv = s.backInv := rfl
@[simp] theorem State.setEntry_pages (s : State) (n : Nat) (e : Entry) : (s.setEntry n e).pages = s.pages := rfl
@[simp] theorem State.setEntry_recalls (s : State) (n : Nat) (e : Entry) : (s.setEntry n e).recalls = s.recalls := rfl
@[simp] theorem State.setEntry_updates (s : State) (n : Nat) (e : Entry) : (s.setEntry n e).updates = s.updates := rfl
@[simp] theorem State.setEntry_revoked (s : State) (n : Nat) (e : Entry) : (s.setEntry n e).revoked = s.revoked := rfl
@[simp] theorem State.setEntry_storesOut (s : State) (n : Nat) (e : Entry) : (s.setEntry n e).storesOut = s.storesOut := rfl
@[simp] theorem State.setEntry_away (s : State) (n : Nat) (e : Entry) : (s.setEntry n e).away = s.away := rfl
@[simp] theorem State.setEntry_lendFor (s : State) (n : Nat) (e : Entry) : (s.setEntry n e).lendFor = s.lendFor := rfl
@[simp] theorem State.setEntry_voided (s : State) (n : Nat) (e : Entry) : (s.setEntry n e).voided = s.voided := rfl
@[simp] theorem State.setEntry_prefs (s : State) (n : Nat) (e : Entry) : (s.setEntry n e).prefs = s.prefs := rfl
@[simp] theorem State.setEntry_farBars (s : State) (n : Nat) (e : Entry) : (s.setEntry n e).farBars = s.farBars := rfl
@[simp] theorem State.setEntry_loans (s : State) (n : Nat) (e : Entry) : (s.setEntry n e).loans = s.loans := rfl
@[simp] theorem State.setEntry_peerWait (s : State) (n : Nat) (e : Entry) : (s.setEntry n e).peerWait = s.peerWait := rfl
@[simp] theorem State.setEntry_efaults (s : State) (n : Nat) (e : Entry) : (s.setEntry n e).efaults = s.efaults := rfl
@[simp] theorem State.setEntry_nextFid (s : State) (n : Nat) (e : Entry) : (s.setEntry n e).nextFid = s.nextFid := rfl
@[simp] theorem State.setEntry_inval (s : State) (n : Nat) (e : Entry) : (s.setEntry n e).inval = s.inval := rfl
@[simp] theorem State.setEntry_aborts (s : State) (n : Nat) (e : Entry) : (s.setEntry n e).aborts = s.aborts := rfl
@[simp] theorem State.setEntry_preempt (s : State) (n : Nat) (e : Entry) : (s.setEntry n e).preempt = s.preempt := rfl
@[simp] theorem State.setEntry_saved (s : State) (n : Nat) (e : Entry) : (s.setEntry n e).saved = s.saved := rfl
@[simp] theorem State.setEntry_waiting (s : State) (n : Nat) (e : Entry) : (s.setEntry n e).waiting = s.waiting := rfl
@[simp] theorem State.setEntry_keys (s : State) (n : Nat) (e : Entry) : (s.setEntry n e).keys = s.keys := rfl
@[simp] theorem State.setEntry_kek (s : State) (n : Nat) (e : Entry) : (s.setEntry n e).kek = s.kek := rfl
@[simp] theorem State.setEntry_ide (s : State) (n : Nat) (e : Entry) : (s.setEntry n e).ide = s.ide := rfl
@[simp] theorem State.setEntry_spdm (s : State) (n : Nat) (e : Entry) : (s.setEntry n e).spdm = s.spdm := rfl
@[simp] theorem State.setEntry_snap (s : State) (n : Nat) (e : Entry) : (s.setEntry n e).snap = s.snap := rfl
@[simp] theorem State.setEntry_pass (s : State) (n : Nat) (e : Entry) : (s.setEntry n e).pass = s.pass := rfl
@[simp] theorem State.setEntry_pcSeen (s : State) (n : Nat) (e : Entry) : (s.setEntry n e).pcSeen = s.pcSeen := rfl
@[simp] theorem State.setEntry_pcCtr (s : State) (n : Nat) (e : Entry) : (s.setEntry n e).pcCtr = s.pcCtr := rfl
@[simp] theorem State.setEntry_life (s : State) (n : Nat) (e : Entry) : (s.setEntry n e).life = s.life := rfl
@[simp] theorem State.setEntry_flash (s : State) (n : Nat) (e : Entry) : (s.setEntry n e).flash = s.flash := rfl
@[simp] theorem State.setEntry_commits (s : State) (n : Nat) (e : Entry) : (s.setEntry n e).commits = s.commits := rfl
@[simp] theorem State.setEntry_poison (s : State) (n : Nat) (e : Entry) : (s.setEntry n e).poison = s.poison := rfl
@[simp] theorem State.setEntry_softKills (s : State) (n : Nat) (e : Entry) : (s.setEntry n e).softKills = s.softKills := rfl
@[simp] theorem State.setEntry_issued (s : State) (n : Nat) (e : Entry) : (s.setEntry n e).issued = s.issued := rfl
@[simp] theorem State.setEntry_ueCount (s : State) (n : Nat) (e : Entry) : (s.setEntry n e).ueCount = s.ueCount := rfl
@[simp] theorem State.setEntry_ueOut (s : State) (n : Nat) (e : Entry) : (s.setEntry n e).ueOut = s.ueOut := rfl

/-! ### `State.setReg` -/

@[simp] theorem State.setReg_cur (s : State) (off x : Nat) : (s.setReg off x).cur = s.cur := rfl
@[simp] theorem State.setReg_agenda (s : State) (off x : Nat) : (s.setReg off x).agenda = s.agenda := rfl
@[simp] theorem State.setReg_free (s : State) (off x : Nat) : (s.setReg off x).free = s.free := rfl
@[simp] theorem State.setReg_self (s : State) (off x : Nat) : (s.setReg off x).self = s.self := rfl
@[simp] theorem State.setReg_present (s : State) (off x : Nat) : (s.setReg off x).present = s.present := rfl
@[simp] theorem State.setReg_mem (s : State) (off x : Nat) : (s.setReg off x).mem = s.mem := rfl
@[simp] theorem State.setReg_stale (s : State) (off x : Nat) : (s.setReg off x).stale = s.stale := rfl
@[simp] theorem State.setReg_scratch (s : State) (off x : Nat) : (s.setReg off x).scratch = s.scratch := rfl
@[simp] theorem State.setReg_warps (s : State) (off x : Nat) : (s.setReg off x).warps = s.warps := rfl
@[simp] theorem State.setReg_left (s : State) (off x : Nat) : (s.setReg off x).left = s.left := rfl
@[simp] theorem State.setReg_cores (s : State) (off x : Nat) : (s.setReg off x).cores = s.cores := rfl
@[simp] theorem State.setReg_blocks (s : State) (off x : Nat) : (s.setReg off x).blocks = s.blocks := rfl
@[simp] theorem State.setReg_bars (s : State) (off x : Nat) : (s.setReg off x).bars = s.bars := rfl
@[simp] theorem State.setReg_launches (s : State) (off x : Nat) : (s.setReg off x).launches = s.launches := rfl
@[simp] theorem State.setReg_queues (s : State) (off x : Nat) : (s.setReg off x).queues = s.queues := rfl
@[simp] theorem State.setReg_turn (s : State) (off x : Nat) : (s.setReg off x).turn = s.turn := rfl
@[simp] theorem State.setReg_entries (s : State) (off x : Nat) : (s.setReg off x).entries = s.entries := rfl
@[simp] theorem State.setReg_nextEntry (s : State) (off x : Nat) : (s.setReg off x).nextEntry = s.nextEntry := rfl
@[simp] theorem State.setReg_l1 (s : State) (off x : Nat) : (s.setReg off x).l1 = s.l1 := rfl
@[simp] theorem State.setReg_tlb (s : State) (off x : Nat) : (s.setReg off x).tlb = s.tlb := rfl
@[simp] theorem State.setReg_ctxs (s : State) (off x : Nat) : (s.setReg off x).ctxs = s.ctxs := rfl
@[simp] theorem State.setReg_spbase (s : State) (off x : Nat) : (s.setReg off x).spbase = s.spbase := rfl
@[simp] theorem State.setReg_held (s : State) (off x : Nat) : (s.setReg off x).held = s.held := rfl
@[simp] theorem State.setReg_wanted (s : State) (off x : Nat) : (s.setReg off x).wanted = s.wanted := rfl
@[simp] theorem State.setReg_hostIo (s : State) (off x : Nat) : (s.setReg off x).hostIo = s.hostIo := rfl
@[simp] theorem State.setReg_mmio (s : State) (off x : Nat) : (s.setReg off x).mmio = SMap.put s.mmio off (BitVec.ofNat 64 x) := rfl
@[simp] theorem State.setReg_msix (s : State) (off x : Nat) : (s.setReg off x).msix = s.msix := rfl
@[simp] theorem State.setReg_objs (s : State) (off x : Nat) : (s.setReg off x).objs = s.objs := rfl
@[simp] theorem State.setReg_lulls (s : State) (off x : Nat) : (s.setReg off x).lulls = s.lulls := rfl
@[simp] theorem State.setReg_reports (s : State) (off x : Nat) : (s.setReg off x).reports = s.reports := rfl
@[simp] theorem State.setReg_owedStatus (s : State) (off x : Nat) : (s.setReg off x).owedStatus = s.owedStatus := rfl
@[simp] theorem State.setReg_lullSeq (s : State) (off x : Nat) : (s.setReg off x).lullSeq = s.lullSeq := rfl
@[simp] theorem State.setReg_plans (s : State) (off x : Nat) : (s.setReg off x).plans = s.plans := rfl
@[simp] theorem State.setReg_insts (s : State) (off x : Nat) : (s.setReg off x).insts = s.insts := rfl
@[simp] theorem State.setReg_nextInst (s : State) (off x : Nat) : (s.setReg off x).nextInst = s.nextInst := rfl
@[simp] theorem State.setReg_ctxDevs (s : State) (off x : Nat) : (s.setReg off x).ctxDevs = s.ctxDevs := rfl
@[simp] theorem State.setReg_heldWrites (s : State) (off x : Nat) : (s.setReg off x).heldWrites = s.heldWrites := rfl
@[simp] theorem State.setReg_ports (s : State) (off x : Nat) : (s.setReg off x).ports = s.ports := rfl
@[simp] theorem State.setReg_hubq (s : State) (off x : Nat) : (s.setReg off x).hubq = s.hubq := rfl
@[simp] theorem State.setReg_pools (s : State) (off x : Nat) : (s.setReg off x).pools = s.pools := rfl
@[simp] theorem State.setReg_dir (s : State) (off x : Nat) : (s.setReg off x).dir = s.dir := rfl
@[simp] theorem State.setReg_hostSec (s : State) (off x : Nat) : (s.setReg off x).hostSec = s.hostSec := rfl
@[simp] theorem State.setReg_backInv (s : State) (off x : Nat) : (s.setReg off x).backInv = s.backInv := rfl
@[simp] theorem State.setReg_pages (s : State) (off x : Nat) : (s.setReg off x).pages = s.pages := rfl
@[simp] theorem State.setReg_recalls (s : State) (off x : Nat) : (s.setReg off x).recalls = s.recalls := rfl
@[simp] theorem State.setReg_updates (s : State) (off x : Nat) : (s.setReg off x).updates = s.updates := rfl
@[simp] theorem State.setReg_revoked (s : State) (off x : Nat) : (s.setReg off x).revoked = s.revoked := rfl
@[simp] theorem State.setReg_storesOut (s : State) (off x : Nat) : (s.setReg off x).storesOut = s.storesOut := rfl
@[simp] theorem State.setReg_away (s : State) (off x : Nat) : (s.setReg off x).away = s.away := rfl
@[simp] theorem State.setReg_lendFor (s : State) (off x : Nat) : (s.setReg off x).lendFor = s.lendFor := rfl
@[simp] theorem State.setReg_voided (s : State) (off x : Nat) : (s.setReg off x).voided = s.voided := rfl
@[simp] theorem State.setReg_prefs (s : State) (off x : Nat) : (s.setReg off x).prefs = s.prefs := rfl
@[simp] theorem State.setReg_farBars (s : State) (off x : Nat) : (s.setReg off x).farBars = s.farBars := rfl
@[simp] theorem State.setReg_loans (s : State) (off x : Nat) : (s.setReg off x).loans = s.loans := rfl
@[simp] theorem State.setReg_peerWait (s : State) (off x : Nat) : (s.setReg off x).peerWait = s.peerWait := rfl
@[simp] theorem State.setReg_efaults (s : State) (off x : Nat) : (s.setReg off x).efaults = s.efaults := rfl
@[simp] theorem State.setReg_nextFid (s : State) (off x : Nat) : (s.setReg off x).nextFid = s.nextFid := rfl
@[simp] theorem State.setReg_inval (s : State) (off x : Nat) : (s.setReg off x).inval = s.inval := rfl
@[simp] theorem State.setReg_aborts (s : State) (off x : Nat) : (s.setReg off x).aborts = s.aborts := rfl
@[simp] theorem State.setReg_preempt (s : State) (off x : Nat) : (s.setReg off x).preempt = s.preempt := rfl
@[simp] theorem State.setReg_saved (s : State) (off x : Nat) : (s.setReg off x).saved = s.saved := rfl
@[simp] theorem State.setReg_waiting (s : State) (off x : Nat) : (s.setReg off x).waiting = s.waiting := rfl
@[simp] theorem State.setReg_keys (s : State) (off x : Nat) : (s.setReg off x).keys = s.keys := rfl
@[simp] theorem State.setReg_kek (s : State) (off x : Nat) : (s.setReg off x).kek = s.kek := rfl
@[simp] theorem State.setReg_ide (s : State) (off x : Nat) : (s.setReg off x).ide = s.ide := rfl
@[simp] theorem State.setReg_spdm (s : State) (off x : Nat) : (s.setReg off x).spdm = s.spdm := rfl
@[simp] theorem State.setReg_snap (s : State) (off x : Nat) : (s.setReg off x).snap = s.snap := rfl
@[simp] theorem State.setReg_pass (s : State) (off x : Nat) : (s.setReg off x).pass = s.pass := rfl
@[simp] theorem State.setReg_pcSeen (s : State) (off x : Nat) : (s.setReg off x).pcSeen = s.pcSeen := rfl
@[simp] theorem State.setReg_pcCtr (s : State) (off x : Nat) : (s.setReg off x).pcCtr = s.pcCtr := rfl
@[simp] theorem State.setReg_life (s : State) (off x : Nat) : (s.setReg off x).life = s.life := rfl
@[simp] theorem State.setReg_flash (s : State) (off x : Nat) : (s.setReg off x).flash = s.flash := rfl
@[simp] theorem State.setReg_commits (s : State) (off x : Nat) : (s.setReg off x).commits = s.commits := rfl
@[simp] theorem State.setReg_poison (s : State) (off x : Nat) : (s.setReg off x).poison = s.poison := rfl
@[simp] theorem State.setReg_softKills (s : State) (off x : Nat) : (s.setReg off x).softKills = s.softKills := rfl
@[simp] theorem State.setReg_issued (s : State) (off x : Nat) : (s.setReg off x).issued = s.issued := rfl
@[simp] theorem State.setReg_ueCount (s : State) (off x : Nat) : (s.setReg off x).ueCount = s.ueCount := rfl
@[simp] theorem State.setReg_ueOut (s : State) (off x : Nat) : (s.setReg off x).ueOut = s.ueOut := rfl

/-! ### `State.setPort` -/

@[simp] theorem State.setPort_cur (s : State) (p : Nat) (x : Port) : (s.setPort p x).cur = s.cur := rfl
@[simp] theorem State.setPort_agenda (s : State) (p : Nat) (x : Port) : (s.setPort p x).agenda = s.agenda := rfl
@[simp] theorem State.setPort_free (s : State) (p : Nat) (x : Port) : (s.setPort p x).free = s.free := rfl
@[simp] theorem State.setPort_self (s : State) (p : Nat) (x : Port) : (s.setPort p x).self = s.self := rfl
@[simp] theorem State.setPort_present (s : State) (p : Nat) (x : Port) : (s.setPort p x).present = s.present := rfl
@[simp] theorem State.setPort_mem (s : State) (p : Nat) (x : Port) : (s.setPort p x).mem = s.mem := rfl
@[simp] theorem State.setPort_stale (s : State) (p : Nat) (x : Port) : (s.setPort p x).stale = s.stale := rfl
@[simp] theorem State.setPort_scratch (s : State) (p : Nat) (x : Port) : (s.setPort p x).scratch = s.scratch := rfl
@[simp] theorem State.setPort_warps (s : State) (p : Nat) (x : Port) : (s.setPort p x).warps = s.warps := rfl
@[simp] theorem State.setPort_left (s : State) (p : Nat) (x : Port) : (s.setPort p x).left = s.left := rfl
@[simp] theorem State.setPort_cores (s : State) (p : Nat) (x : Port) : (s.setPort p x).cores = s.cores := rfl
@[simp] theorem State.setPort_blocks (s : State) (p : Nat) (x : Port) : (s.setPort p x).blocks = s.blocks := rfl
@[simp] theorem State.setPort_bars (s : State) (p : Nat) (x : Port) : (s.setPort p x).bars = s.bars := rfl
@[simp] theorem State.setPort_launches (s : State) (p : Nat) (x : Port) : (s.setPort p x).launches = s.launches := rfl
@[simp] theorem State.setPort_queues (s : State) (p : Nat) (x : Port) : (s.setPort p x).queues = s.queues := rfl
@[simp] theorem State.setPort_turn (s : State) (p : Nat) (x : Port) : (s.setPort p x).turn = s.turn := rfl
@[simp] theorem State.setPort_entries (s : State) (p : Nat) (x : Port) : (s.setPort p x).entries = s.entries := rfl
@[simp] theorem State.setPort_nextEntry (s : State) (p : Nat) (x : Port) : (s.setPort p x).nextEntry = s.nextEntry := rfl
@[simp] theorem State.setPort_l1 (s : State) (p : Nat) (x : Port) : (s.setPort p x).l1 = s.l1 := rfl
@[simp] theorem State.setPort_tlb (s : State) (p : Nat) (x : Port) : (s.setPort p x).tlb = s.tlb := rfl
@[simp] theorem State.setPort_ctxs (s : State) (p : Nat) (x : Port) : (s.setPort p x).ctxs = s.ctxs := rfl
@[simp] theorem State.setPort_spbase (s : State) (p : Nat) (x : Port) : (s.setPort p x).spbase = s.spbase := rfl
@[simp] theorem State.setPort_held (s : State) (p : Nat) (x : Port) : (s.setPort p x).held = s.held := rfl
@[simp] theorem State.setPort_wanted (s : State) (p : Nat) (x : Port) : (s.setPort p x).wanted = s.wanted := rfl
@[simp] theorem State.setPort_hostIo (s : State) (p : Nat) (x : Port) : (s.setPort p x).hostIo = s.hostIo := rfl
@[simp] theorem State.setPort_mmio (s : State) (p : Nat) (x : Port) : (s.setPort p x).mmio = s.mmio := rfl
@[simp] theorem State.setPort_msix (s : State) (p : Nat) (x : Port) : (s.setPort p x).msix = s.msix := rfl
@[simp] theorem State.setPort_objs (s : State) (p : Nat) (x : Port) : (s.setPort p x).objs = s.objs := rfl
@[simp] theorem State.setPort_lulls (s : State) (p : Nat) (x : Port) : (s.setPort p x).lulls = s.lulls := rfl
@[simp] theorem State.setPort_reports (s : State) (p : Nat) (x : Port) : (s.setPort p x).reports = s.reports := rfl
@[simp] theorem State.setPort_owedStatus (s : State) (p : Nat) (x : Port) : (s.setPort p x).owedStatus = s.owedStatus := rfl
@[simp] theorem State.setPort_lullSeq (s : State) (p : Nat) (x : Port) : (s.setPort p x).lullSeq = s.lullSeq := rfl
@[simp] theorem State.setPort_plans (s : State) (p : Nat) (x : Port) : (s.setPort p x).plans = s.plans := rfl
@[simp] theorem State.setPort_insts (s : State) (p : Nat) (x : Port) : (s.setPort p x).insts = s.insts := rfl
@[simp] theorem State.setPort_nextInst (s : State) (p : Nat) (x : Port) : (s.setPort p x).nextInst = s.nextInst := rfl
@[simp] theorem State.setPort_ctxDevs (s : State) (p : Nat) (x : Port) : (s.setPort p x).ctxDevs = s.ctxDevs := rfl
@[simp] theorem State.setPort_heldWrites (s : State) (p : Nat) (x : Port) : (s.setPort p x).heldWrites = s.heldWrites := rfl
@[simp] theorem State.setPort_ports (s : State) (p : Nat) (x : Port) : (s.setPort p x).ports = SMap.put s.ports p x := rfl
@[simp] theorem State.setPort_hubq (s : State) (p : Nat) (x : Port) : (s.setPort p x).hubq = s.hubq := rfl
@[simp] theorem State.setPort_pools (s : State) (p : Nat) (x : Port) : (s.setPort p x).pools = s.pools := rfl
@[simp] theorem State.setPort_dir (s : State) (p : Nat) (x : Port) : (s.setPort p x).dir = s.dir := rfl
@[simp] theorem State.setPort_hostSec (s : State) (p : Nat) (x : Port) : (s.setPort p x).hostSec = s.hostSec := rfl
@[simp] theorem State.setPort_backInv (s : State) (p : Nat) (x : Port) : (s.setPort p x).backInv = s.backInv := rfl
@[simp] theorem State.setPort_pages (s : State) (p : Nat) (x : Port) : (s.setPort p x).pages = s.pages := rfl
@[simp] theorem State.setPort_recalls (s : State) (p : Nat) (x : Port) : (s.setPort p x).recalls = s.recalls := rfl
@[simp] theorem State.setPort_updates (s : State) (p : Nat) (x : Port) : (s.setPort p x).updates = s.updates := rfl
@[simp] theorem State.setPort_revoked (s : State) (p : Nat) (x : Port) : (s.setPort p x).revoked = s.revoked := rfl
@[simp] theorem State.setPort_storesOut (s : State) (p : Nat) (x : Port) : (s.setPort p x).storesOut = s.storesOut := rfl
@[simp] theorem State.setPort_away (s : State) (p : Nat) (x : Port) : (s.setPort p x).away = s.away := rfl
@[simp] theorem State.setPort_lendFor (s : State) (p : Nat) (x : Port) : (s.setPort p x).lendFor = s.lendFor := rfl
@[simp] theorem State.setPort_voided (s : State) (p : Nat) (x : Port) : (s.setPort p x).voided = s.voided := rfl
@[simp] theorem State.setPort_prefs (s : State) (p : Nat) (x : Port) : (s.setPort p x).prefs = s.prefs := rfl
@[simp] theorem State.setPort_farBars (s : State) (p : Nat) (x : Port) : (s.setPort p x).farBars = s.farBars := rfl
@[simp] theorem State.setPort_loans (s : State) (p : Nat) (x : Port) : (s.setPort p x).loans = s.loans := rfl
@[simp] theorem State.setPort_peerWait (s : State) (p : Nat) (x : Port) : (s.setPort p x).peerWait = s.peerWait := rfl
@[simp] theorem State.setPort_efaults (s : State) (p : Nat) (x : Port) : (s.setPort p x).efaults = s.efaults := rfl
@[simp] theorem State.setPort_nextFid (s : State) (p : Nat) (x : Port) : (s.setPort p x).nextFid = s.nextFid := rfl
@[simp] theorem State.setPort_inval (s : State) (p : Nat) (x : Port) : (s.setPort p x).inval = s.inval := rfl
@[simp] theorem State.setPort_aborts (s : State) (p : Nat) (x : Port) : (s.setPort p x).aborts = s.aborts := rfl
@[simp] theorem State.setPort_preempt (s : State) (p : Nat) (x : Port) : (s.setPort p x).preempt = s.preempt := rfl
@[simp] theorem State.setPort_saved (s : State) (p : Nat) (x : Port) : (s.setPort p x).saved = s.saved := rfl
@[simp] theorem State.setPort_waiting (s : State) (p : Nat) (x : Port) : (s.setPort p x).waiting = s.waiting := rfl
@[simp] theorem State.setPort_keys (s : State) (p : Nat) (x : Port) : (s.setPort p x).keys = s.keys := rfl
@[simp] theorem State.setPort_kek (s : State) (p : Nat) (x : Port) : (s.setPort p x).kek = s.kek := rfl
@[simp] theorem State.setPort_ide (s : State) (p : Nat) (x : Port) : (s.setPort p x).ide = s.ide := rfl
@[simp] theorem State.setPort_spdm (s : State) (p : Nat) (x : Port) : (s.setPort p x).spdm = s.spdm := rfl
@[simp] theorem State.setPort_snap (s : State) (p : Nat) (x : Port) : (s.setPort p x).snap = s.snap := rfl
@[simp] theorem State.setPort_pass (s : State) (p : Nat) (x : Port) : (s.setPort p x).pass = s.pass := rfl
@[simp] theorem State.setPort_pcSeen (s : State) (p : Nat) (x : Port) : (s.setPort p x).pcSeen = s.pcSeen := rfl
@[simp] theorem State.setPort_pcCtr (s : State) (p : Nat) (x : Port) : (s.setPort p x).pcCtr = s.pcCtr := rfl
@[simp] theorem State.setPort_life (s : State) (p : Nat) (x : Port) : (s.setPort p x).life = s.life := rfl
@[simp] theorem State.setPort_flash (s : State) (p : Nat) (x : Port) : (s.setPort p x).flash = s.flash := rfl
@[simp] theorem State.setPort_commits (s : State) (p : Nat) (x : Port) : (s.setPort p x).commits = s.commits := rfl
@[simp] theorem State.setPort_poison (s : State) (p : Nat) (x : Port) : (s.setPort p x).poison = s.poison := rfl
@[simp] theorem State.setPort_softKills (s : State) (p : Nat) (x : Port) : (s.setPort p x).softKills = s.softKills := rfl
@[simp] theorem State.setPort_issued (s : State) (p : Nat) (x : Port) : (s.setPort p x).issued = s.issued := rfl
@[simp] theorem State.setPort_ueCount (s : State) (p : Nat) (x : Port) : (s.setPort p x).ueCount = s.ueCount := rfl
@[simp] theorem State.setPort_ueOut (s : State) (p : Nat) (x : Port) : (s.setPort p x).ueOut = s.ueOut := rfl

/-! ### `State.setQueue` -/

@[simp] theorem State.setQueue_cur (s : State) (n : Nat) (q : Queue) : (s.setQueue n q).cur = s.cur := rfl
@[simp] theorem State.setQueue_agenda (s : State) (n : Nat) (q : Queue) : (s.setQueue n q).agenda = s.agenda := rfl
@[simp] theorem State.setQueue_free (s : State) (n : Nat) (q : Queue) : (s.setQueue n q).free = s.free := rfl
@[simp] theorem State.setQueue_self (s : State) (n : Nat) (q : Queue) : (s.setQueue n q).self = s.self := rfl
@[simp] theorem State.setQueue_present (s : State) (n : Nat) (q : Queue) : (s.setQueue n q).present = s.present := rfl
@[simp] theorem State.setQueue_mem (s : State) (n : Nat) (q : Queue) : (s.setQueue n q).mem = s.mem := rfl
@[simp] theorem State.setQueue_stale (s : State) (n : Nat) (q : Queue) : (s.setQueue n q).stale = s.stale := rfl
@[simp] theorem State.setQueue_scratch (s : State) (n : Nat) (q : Queue) : (s.setQueue n q).scratch = s.scratch := rfl
@[simp] theorem State.setQueue_warps (s : State) (n : Nat) (q : Queue) : (s.setQueue n q).warps = s.warps := rfl
@[simp] theorem State.setQueue_left (s : State) (n : Nat) (q : Queue) : (s.setQueue n q).left = s.left := rfl
@[simp] theorem State.setQueue_cores (s : State) (n : Nat) (q : Queue) : (s.setQueue n q).cores = s.cores := rfl
@[simp] theorem State.setQueue_blocks (s : State) (n : Nat) (q : Queue) : (s.setQueue n q).blocks = s.blocks := rfl
@[simp] theorem State.setQueue_bars (s : State) (n : Nat) (q : Queue) : (s.setQueue n q).bars = s.bars := rfl
@[simp] theorem State.setQueue_launches (s : State) (n : Nat) (q : Queue) : (s.setQueue n q).launches = s.launches := rfl
@[simp] theorem State.setQueue_queues (s : State) (n : Nat) (q : Queue) : (s.setQueue n q).queues = SMap.put s.queues n q := rfl
@[simp] theorem State.setQueue_turn (s : State) (n : Nat) (q : Queue) : (s.setQueue n q).turn = s.turn := rfl
@[simp] theorem State.setQueue_entries (s : State) (n : Nat) (q : Queue) : (s.setQueue n q).entries = s.entries := rfl
@[simp] theorem State.setQueue_nextEntry (s : State) (n : Nat) (q : Queue) : (s.setQueue n q).nextEntry = s.nextEntry := rfl
@[simp] theorem State.setQueue_l1 (s : State) (n : Nat) (q : Queue) : (s.setQueue n q).l1 = s.l1 := rfl
@[simp] theorem State.setQueue_tlb (s : State) (n : Nat) (q : Queue) : (s.setQueue n q).tlb = s.tlb := rfl
@[simp] theorem State.setQueue_ctxs (s : State) (n : Nat) (q : Queue) : (s.setQueue n q).ctxs = s.ctxs := rfl
@[simp] theorem State.setQueue_spbase (s : State) (n : Nat) (q : Queue) : (s.setQueue n q).spbase = s.spbase := rfl
@[simp] theorem State.setQueue_held (s : State) (n : Nat) (q : Queue) : (s.setQueue n q).held = s.held := rfl
@[simp] theorem State.setQueue_wanted (s : State) (n : Nat) (q : Queue) : (s.setQueue n q).wanted = s.wanted := rfl
@[simp] theorem State.setQueue_hostIo (s : State) (n : Nat) (q : Queue) : (s.setQueue n q).hostIo = s.hostIo := rfl
@[simp] theorem State.setQueue_mmio (s : State) (n : Nat) (q : Queue) : (s.setQueue n q).mmio = s.mmio := rfl
@[simp] theorem State.setQueue_msix (s : State) (n : Nat) (q : Queue) : (s.setQueue n q).msix = s.msix := rfl
@[simp] theorem State.setQueue_objs (s : State) (n : Nat) (q : Queue) : (s.setQueue n q).objs = s.objs := rfl
@[simp] theorem State.setQueue_lulls (s : State) (n : Nat) (q : Queue) : (s.setQueue n q).lulls = s.lulls := rfl
@[simp] theorem State.setQueue_reports (s : State) (n : Nat) (q : Queue) : (s.setQueue n q).reports = s.reports := rfl
@[simp] theorem State.setQueue_owedStatus (s : State) (n : Nat) (q : Queue) : (s.setQueue n q).owedStatus = s.owedStatus := rfl
@[simp] theorem State.setQueue_lullSeq (s : State) (n : Nat) (q : Queue) : (s.setQueue n q).lullSeq = s.lullSeq := rfl
@[simp] theorem State.setQueue_plans (s : State) (n : Nat) (q : Queue) : (s.setQueue n q).plans = s.plans := rfl
@[simp] theorem State.setQueue_insts (s : State) (n : Nat) (q : Queue) : (s.setQueue n q).insts = s.insts := rfl
@[simp] theorem State.setQueue_nextInst (s : State) (n : Nat) (q : Queue) : (s.setQueue n q).nextInst = s.nextInst := rfl
@[simp] theorem State.setQueue_ctxDevs (s : State) (n : Nat) (q : Queue) : (s.setQueue n q).ctxDevs = s.ctxDevs := rfl
@[simp] theorem State.setQueue_heldWrites (s : State) (n : Nat) (q : Queue) : (s.setQueue n q).heldWrites = s.heldWrites := rfl
@[simp] theorem State.setQueue_ports (s : State) (n : Nat) (q : Queue) : (s.setQueue n q).ports = s.ports := rfl
@[simp] theorem State.setQueue_hubq (s : State) (n : Nat) (q : Queue) : (s.setQueue n q).hubq = s.hubq := rfl
@[simp] theorem State.setQueue_pools (s : State) (n : Nat) (q : Queue) : (s.setQueue n q).pools = s.pools := rfl
@[simp] theorem State.setQueue_dir (s : State) (n : Nat) (q : Queue) : (s.setQueue n q).dir = s.dir := rfl
@[simp] theorem State.setQueue_hostSec (s : State) (n : Nat) (q : Queue) : (s.setQueue n q).hostSec = s.hostSec := rfl
@[simp] theorem State.setQueue_backInv (s : State) (n : Nat) (q : Queue) : (s.setQueue n q).backInv = s.backInv := rfl
@[simp] theorem State.setQueue_pages (s : State) (n : Nat) (q : Queue) : (s.setQueue n q).pages = s.pages := rfl
@[simp] theorem State.setQueue_recalls (s : State) (n : Nat) (q : Queue) : (s.setQueue n q).recalls = s.recalls := rfl
@[simp] theorem State.setQueue_updates (s : State) (n : Nat) (q : Queue) : (s.setQueue n q).updates = s.updates := rfl
@[simp] theorem State.setQueue_revoked (s : State) (n : Nat) (q : Queue) : (s.setQueue n q).revoked = s.revoked := rfl
@[simp] theorem State.setQueue_storesOut (s : State) (n : Nat) (q : Queue) : (s.setQueue n q).storesOut = s.storesOut := rfl
@[simp] theorem State.setQueue_away (s : State) (n : Nat) (q : Queue) : (s.setQueue n q).away = s.away := rfl
@[simp] theorem State.setQueue_lendFor (s : State) (n : Nat) (q : Queue) : (s.setQueue n q).lendFor = s.lendFor := rfl
@[simp] theorem State.setQueue_voided (s : State) (n : Nat) (q : Queue) : (s.setQueue n q).voided = s.voided := rfl
@[simp] theorem State.setQueue_prefs (s : State) (n : Nat) (q : Queue) : (s.setQueue n q).prefs = s.prefs := rfl
@[simp] theorem State.setQueue_farBars (s : State) (n : Nat) (q : Queue) : (s.setQueue n q).farBars = s.farBars := rfl
@[simp] theorem State.setQueue_loans (s : State) (n : Nat) (q : Queue) : (s.setQueue n q).loans = s.loans := rfl
@[simp] theorem State.setQueue_peerWait (s : State) (n : Nat) (q : Queue) : (s.setQueue n q).peerWait = s.peerWait := rfl
@[simp] theorem State.setQueue_efaults (s : State) (n : Nat) (q : Queue) : (s.setQueue n q).efaults = s.efaults := rfl
@[simp] theorem State.setQueue_nextFid (s : State) (n : Nat) (q : Queue) : (s.setQueue n q).nextFid = s.nextFid := rfl
@[simp] theorem State.setQueue_inval (s : State) (n : Nat) (q : Queue) : (s.setQueue n q).inval = s.inval := rfl
@[simp] theorem State.setQueue_aborts (s : State) (n : Nat) (q : Queue) : (s.setQueue n q).aborts = s.aborts := rfl
@[simp] theorem State.setQueue_preempt (s : State) (n : Nat) (q : Queue) : (s.setQueue n q).preempt = s.preempt := rfl
@[simp] theorem State.setQueue_saved (s : State) (n : Nat) (q : Queue) : (s.setQueue n q).saved = s.saved := rfl
@[simp] theorem State.setQueue_waiting (s : State) (n : Nat) (q : Queue) : (s.setQueue n q).waiting = s.waiting := rfl
@[simp] theorem State.setQueue_keys (s : State) (n : Nat) (q : Queue) : (s.setQueue n q).keys = s.keys := rfl
@[simp] theorem State.setQueue_kek (s : State) (n : Nat) (q : Queue) : (s.setQueue n q).kek = s.kek := rfl
@[simp] theorem State.setQueue_ide (s : State) (n : Nat) (q : Queue) : (s.setQueue n q).ide = s.ide := rfl
@[simp] theorem State.setQueue_spdm (s : State) (n : Nat) (q : Queue) : (s.setQueue n q).spdm = s.spdm := rfl
@[simp] theorem State.setQueue_snap (s : State) (n : Nat) (q : Queue) : (s.setQueue n q).snap = s.snap := rfl
@[simp] theorem State.setQueue_pass (s : State) (n : Nat) (q : Queue) : (s.setQueue n q).pass = s.pass := rfl
@[simp] theorem State.setQueue_pcSeen (s : State) (n : Nat) (q : Queue) : (s.setQueue n q).pcSeen = s.pcSeen := rfl
@[simp] theorem State.setQueue_pcCtr (s : State) (n : Nat) (q : Queue) : (s.setQueue n q).pcCtr = s.pcCtr := rfl
@[simp] theorem State.setQueue_life (s : State) (n : Nat) (q : Queue) : (s.setQueue n q).life = s.life := rfl
@[simp] theorem State.setQueue_flash (s : State) (n : Nat) (q : Queue) : (s.setQueue n q).flash = s.flash := rfl
@[simp] theorem State.setQueue_commits (s : State) (n : Nat) (q : Queue) : (s.setQueue n q).commits = s.commits := rfl
@[simp] theorem State.setQueue_poison (s : State) (n : Nat) (q : Queue) : (s.setQueue n q).poison = s.poison := rfl
@[simp] theorem State.setQueue_softKills (s : State) (n : Nat) (q : Queue) : (s.setQueue n q).softKills = s.softKills := rfl
@[simp] theorem State.setQueue_issued (s : State) (n : Nat) (q : Queue) : (s.setQueue n q).issued = s.issued := rfl
@[simp] theorem State.setQueue_ueCount (s : State) (n : Nat) (q : Queue) : (s.setQueue n q).ueCount = s.ueCount := rfl
@[simp] theorem State.setQueue_ueOut (s : State) (n : Nat) (q : Queue) : (s.setQueue n q).ueOut = s.ueOut := rfl

/-! ### `State.setPool` -/

@[simp] theorem State.setPool_cur (s : State) (dev : Nat) (x : Pool) : (s.setPool dev x).cur = s.cur := rfl
@[simp] theorem State.setPool_agenda (s : State) (dev : Nat) (x : Pool) : (s.setPool dev x).agenda = s.agenda := rfl
@[simp] theorem State.setPool_free (s : State) (dev : Nat) (x : Pool) : (s.setPool dev x).free = s.free := rfl
@[simp] theorem State.setPool_self (s : State) (dev : Nat) (x : Pool) : (s.setPool dev x).self = s.self := rfl
@[simp] theorem State.setPool_present (s : State) (dev : Nat) (x : Pool) : (s.setPool dev x).present = s.present := rfl
@[simp] theorem State.setPool_mem (s : State) (dev : Nat) (x : Pool) : (s.setPool dev x).mem = s.mem := rfl
@[simp] theorem State.setPool_stale (s : State) (dev : Nat) (x : Pool) : (s.setPool dev x).stale = s.stale := rfl
@[simp] theorem State.setPool_scratch (s : State) (dev : Nat) (x : Pool) : (s.setPool dev x).scratch = s.scratch := rfl
@[simp] theorem State.setPool_warps (s : State) (dev : Nat) (x : Pool) : (s.setPool dev x).warps = s.warps := rfl
@[simp] theorem State.setPool_left (s : State) (dev : Nat) (x : Pool) : (s.setPool dev x).left = s.left := rfl
@[simp] theorem State.setPool_cores (s : State) (dev : Nat) (x : Pool) : (s.setPool dev x).cores = s.cores := rfl
@[simp] theorem State.setPool_blocks (s : State) (dev : Nat) (x : Pool) : (s.setPool dev x).blocks = s.blocks := rfl
@[simp] theorem State.setPool_bars (s : State) (dev : Nat) (x : Pool) : (s.setPool dev x).bars = s.bars := rfl
@[simp] theorem State.setPool_launches (s : State) (dev : Nat) (x : Pool) : (s.setPool dev x).launches = s.launches := rfl
@[simp] theorem State.setPool_queues (s : State) (dev : Nat) (x : Pool) : (s.setPool dev x).queues = s.queues := rfl
@[simp] theorem State.setPool_turn (s : State) (dev : Nat) (x : Pool) : (s.setPool dev x).turn = s.turn := rfl
@[simp] theorem State.setPool_entries (s : State) (dev : Nat) (x : Pool) : (s.setPool dev x).entries = s.entries := rfl
@[simp] theorem State.setPool_nextEntry (s : State) (dev : Nat) (x : Pool) : (s.setPool dev x).nextEntry = s.nextEntry := rfl
@[simp] theorem State.setPool_l1 (s : State) (dev : Nat) (x : Pool) : (s.setPool dev x).l1 = s.l1 := rfl
@[simp] theorem State.setPool_tlb (s : State) (dev : Nat) (x : Pool) : (s.setPool dev x).tlb = s.tlb := rfl
@[simp] theorem State.setPool_ctxs (s : State) (dev : Nat) (x : Pool) : (s.setPool dev x).ctxs = s.ctxs := rfl
@[simp] theorem State.setPool_spbase (s : State) (dev : Nat) (x : Pool) : (s.setPool dev x).spbase = s.spbase := rfl
@[simp] theorem State.setPool_held (s : State) (dev : Nat) (x : Pool) : (s.setPool dev x).held = s.held := rfl
@[simp] theorem State.setPool_wanted (s : State) (dev : Nat) (x : Pool) : (s.setPool dev x).wanted = s.wanted := rfl
@[simp] theorem State.setPool_hostIo (s : State) (dev : Nat) (x : Pool) : (s.setPool dev x).hostIo = s.hostIo := rfl
@[simp] theorem State.setPool_mmio (s : State) (dev : Nat) (x : Pool) : (s.setPool dev x).mmio = s.mmio := rfl
@[simp] theorem State.setPool_msix (s : State) (dev : Nat) (x : Pool) : (s.setPool dev x).msix = s.msix := rfl
@[simp] theorem State.setPool_objs (s : State) (dev : Nat) (x : Pool) : (s.setPool dev x).objs = s.objs := rfl
@[simp] theorem State.setPool_lulls (s : State) (dev : Nat) (x : Pool) : (s.setPool dev x).lulls = s.lulls := rfl
@[simp] theorem State.setPool_reports (s : State) (dev : Nat) (x : Pool) : (s.setPool dev x).reports = s.reports := rfl
@[simp] theorem State.setPool_owedStatus (s : State) (dev : Nat) (x : Pool) : (s.setPool dev x).owedStatus = s.owedStatus := rfl
@[simp] theorem State.setPool_lullSeq (s : State) (dev : Nat) (x : Pool) : (s.setPool dev x).lullSeq = s.lullSeq := rfl
@[simp] theorem State.setPool_plans (s : State) (dev : Nat) (x : Pool) : (s.setPool dev x).plans = s.plans := rfl
@[simp] theorem State.setPool_insts (s : State) (dev : Nat) (x : Pool) : (s.setPool dev x).insts = s.insts := rfl
@[simp] theorem State.setPool_nextInst (s : State) (dev : Nat) (x : Pool) : (s.setPool dev x).nextInst = s.nextInst := rfl
@[simp] theorem State.setPool_ctxDevs (s : State) (dev : Nat) (x : Pool) : (s.setPool dev x).ctxDevs = s.ctxDevs := rfl
@[simp] theorem State.setPool_heldWrites (s : State) (dev : Nat) (x : Pool) : (s.setPool dev x).heldWrites = s.heldWrites := rfl
@[simp] theorem State.setPool_ports (s : State) (dev : Nat) (x : Pool) : (s.setPool dev x).ports = s.ports := rfl
@[simp] theorem State.setPool_hubq (s : State) (dev : Nat) (x : Pool) : (s.setPool dev x).hubq = s.hubq := rfl
@[simp] theorem State.setPool_pools (s : State) (dev : Nat) (x : Pool) : (s.setPool dev x).pools = SMap.put s.pools dev x := rfl
@[simp] theorem State.setPool_dir (s : State) (dev : Nat) (x : Pool) : (s.setPool dev x).dir = s.dir := rfl
@[simp] theorem State.setPool_hostSec (s : State) (dev : Nat) (x : Pool) : (s.setPool dev x).hostSec = s.hostSec := rfl
@[simp] theorem State.setPool_backInv (s : State) (dev : Nat) (x : Pool) : (s.setPool dev x).backInv = s.backInv := rfl
@[simp] theorem State.setPool_pages (s : State) (dev : Nat) (x : Pool) : (s.setPool dev x).pages = s.pages := rfl
@[simp] theorem State.setPool_recalls (s : State) (dev : Nat) (x : Pool) : (s.setPool dev x).recalls = s.recalls := rfl
@[simp] theorem State.setPool_updates (s : State) (dev : Nat) (x : Pool) : (s.setPool dev x).updates = s.updates := rfl
@[simp] theorem State.setPool_revoked (s : State) (dev : Nat) (x : Pool) : (s.setPool dev x).revoked = s.revoked := rfl
@[simp] theorem State.setPool_storesOut (s : State) (dev : Nat) (x : Pool) : (s.setPool dev x).storesOut = s.storesOut := rfl
@[simp] theorem State.setPool_away (s : State) (dev : Nat) (x : Pool) : (s.setPool dev x).away = s.away := rfl
@[simp] theorem State.setPool_lendFor (s : State) (dev : Nat) (x : Pool) : (s.setPool dev x).lendFor = s.lendFor := rfl
@[simp] theorem State.setPool_voided (s : State) (dev : Nat) (x : Pool) : (s.setPool dev x).voided = s.voided := rfl
@[simp] theorem State.setPool_prefs (s : State) (dev : Nat) (x : Pool) : (s.setPool dev x).prefs = s.prefs := rfl
@[simp] theorem State.setPool_farBars (s : State) (dev : Nat) (x : Pool) : (s.setPool dev x).farBars = s.farBars := rfl
@[simp] theorem State.setPool_loans (s : State) (dev : Nat) (x : Pool) : (s.setPool dev x).loans = s.loans := rfl
@[simp] theorem State.setPool_peerWait (s : State) (dev : Nat) (x : Pool) : (s.setPool dev x).peerWait = s.peerWait := rfl
@[simp] theorem State.setPool_efaults (s : State) (dev : Nat) (x : Pool) : (s.setPool dev x).efaults = s.efaults := rfl
@[simp] theorem State.setPool_nextFid (s : State) (dev : Nat) (x : Pool) : (s.setPool dev x).nextFid = s.nextFid := rfl
@[simp] theorem State.setPool_inval (s : State) (dev : Nat) (x : Pool) : (s.setPool dev x).inval = s.inval := rfl
@[simp] theorem State.setPool_aborts (s : State) (dev : Nat) (x : Pool) : (s.setPool dev x).aborts = s.aborts := rfl
@[simp] theorem State.setPool_preempt (s : State) (dev : Nat) (x : Pool) : (s.setPool dev x).preempt = s.preempt := rfl
@[simp] theorem State.setPool_saved (s : State) (dev : Nat) (x : Pool) : (s.setPool dev x).saved = s.saved := rfl
@[simp] theorem State.setPool_waiting (s : State) (dev : Nat) (x : Pool) : (s.setPool dev x).waiting = s.waiting := rfl
@[simp] theorem State.setPool_keys (s : State) (dev : Nat) (x : Pool) : (s.setPool dev x).keys = s.keys := rfl
@[simp] theorem State.setPool_kek (s : State) (dev : Nat) (x : Pool) : (s.setPool dev x).kek = s.kek := rfl
@[simp] theorem State.setPool_ide (s : State) (dev : Nat) (x : Pool) : (s.setPool dev x).ide = s.ide := rfl
@[simp] theorem State.setPool_spdm (s : State) (dev : Nat) (x : Pool) : (s.setPool dev x).spdm = s.spdm := rfl
@[simp] theorem State.setPool_snap (s : State) (dev : Nat) (x : Pool) : (s.setPool dev x).snap = s.snap := rfl
@[simp] theorem State.setPool_pass (s : State) (dev : Nat) (x : Pool) : (s.setPool dev x).pass = s.pass := rfl
@[simp] theorem State.setPool_pcSeen (s : State) (dev : Nat) (x : Pool) : (s.setPool dev x).pcSeen = s.pcSeen := rfl
@[simp] theorem State.setPool_pcCtr (s : State) (dev : Nat) (x : Pool) : (s.setPool dev x).pcCtr = s.pcCtr := rfl
@[simp] theorem State.setPool_life (s : State) (dev : Nat) (x : Pool) : (s.setPool dev x).life = s.life := rfl
@[simp] theorem State.setPool_flash (s : State) (dev : Nat) (x : Pool) : (s.setPool dev x).flash = s.flash := rfl
@[simp] theorem State.setPool_commits (s : State) (dev : Nat) (x : Pool) : (s.setPool dev x).commits = s.commits := rfl
@[simp] theorem State.setPool_poison (s : State) (dev : Nat) (x : Pool) : (s.setPool dev x).poison = s.poison := rfl
@[simp] theorem State.setPool_softKills (s : State) (dev : Nat) (x : Pool) : (s.setPool dev x).softKills = s.softKills := rfl
@[simp] theorem State.setPool_issued (s : State) (dev : Nat) (x : Pool) : (s.setPool dev x).issued = s.issued := rfl
@[simp] theorem State.setPool_ueCount (s : State) (dev : Nat) (x : Pool) : (s.setPool dev x).ueCount = s.ueCount := rfl
@[simp] theorem State.setPool_ueOut (s : State) (dev : Nat) (x : Pool) : (s.setPool dev x).ueOut = s.ueOut := rfl

/-! ### `State.setObj` -/

@[simp] theorem State.setObj_cur (s : State) (n : Nat) (o : Obj) : (s.setObj n o).cur = s.cur := rfl
@[simp] theorem State.setObj_agenda (s : State) (n : Nat) (o : Obj) : (s.setObj n o).agenda = s.agenda := rfl
@[simp] theorem State.setObj_free (s : State) (n : Nat) (o : Obj) : (s.setObj n o).free = s.free := rfl
@[simp] theorem State.setObj_self (s : State) (n : Nat) (o : Obj) : (s.setObj n o).self = s.self := rfl
@[simp] theorem State.setObj_present (s : State) (n : Nat) (o : Obj) : (s.setObj n o).present = s.present := rfl
@[simp] theorem State.setObj_mem (s : State) (n : Nat) (o : Obj) : (s.setObj n o).mem = s.mem := rfl
@[simp] theorem State.setObj_stale (s : State) (n : Nat) (o : Obj) : (s.setObj n o).stale = s.stale := rfl
@[simp] theorem State.setObj_scratch (s : State) (n : Nat) (o : Obj) : (s.setObj n o).scratch = s.scratch := rfl
@[simp] theorem State.setObj_warps (s : State) (n : Nat) (o : Obj) : (s.setObj n o).warps = s.warps := rfl
@[simp] theorem State.setObj_left (s : State) (n : Nat) (o : Obj) : (s.setObj n o).left = s.left := rfl
@[simp] theorem State.setObj_cores (s : State) (n : Nat) (o : Obj) : (s.setObj n o).cores = s.cores := rfl
@[simp] theorem State.setObj_blocks (s : State) (n : Nat) (o : Obj) : (s.setObj n o).blocks = s.blocks := rfl
@[simp] theorem State.setObj_bars (s : State) (n : Nat) (o : Obj) : (s.setObj n o).bars = s.bars := rfl
@[simp] theorem State.setObj_launches (s : State) (n : Nat) (o : Obj) : (s.setObj n o).launches = s.launches := rfl
@[simp] theorem State.setObj_queues (s : State) (n : Nat) (o : Obj) : (s.setObj n o).queues = s.queues := rfl
@[simp] theorem State.setObj_turn (s : State) (n : Nat) (o : Obj) : (s.setObj n o).turn = s.turn := rfl
@[simp] theorem State.setObj_entries (s : State) (n : Nat) (o : Obj) : (s.setObj n o).entries = s.entries := rfl
@[simp] theorem State.setObj_nextEntry (s : State) (n : Nat) (o : Obj) : (s.setObj n o).nextEntry = s.nextEntry := rfl
@[simp] theorem State.setObj_l1 (s : State) (n : Nat) (o : Obj) : (s.setObj n o).l1 = s.l1 := rfl
@[simp] theorem State.setObj_tlb (s : State) (n : Nat) (o : Obj) : (s.setObj n o).tlb = s.tlb := rfl
@[simp] theorem State.setObj_ctxs (s : State) (n : Nat) (o : Obj) : (s.setObj n o).ctxs = s.ctxs := rfl
@[simp] theorem State.setObj_spbase (s : State) (n : Nat) (o : Obj) : (s.setObj n o).spbase = s.spbase := rfl
@[simp] theorem State.setObj_held (s : State) (n : Nat) (o : Obj) : (s.setObj n o).held = s.held := rfl
@[simp] theorem State.setObj_wanted (s : State) (n : Nat) (o : Obj) : (s.setObj n o).wanted = s.wanted := rfl
@[simp] theorem State.setObj_hostIo (s : State) (n : Nat) (o : Obj) : (s.setObj n o).hostIo = s.hostIo := rfl
@[simp] theorem State.setObj_mmio (s : State) (n : Nat) (o : Obj) : (s.setObj n o).mmio = s.mmio := rfl
@[simp] theorem State.setObj_msix (s : State) (n : Nat) (o : Obj) : (s.setObj n o).msix = s.msix := rfl
@[simp] theorem State.setObj_objs (s : State) (n : Nat) (o : Obj) : (s.setObj n o).objs = SMap.put s.objs n o := rfl
@[simp] theorem State.setObj_lulls (s : State) (n : Nat) (o : Obj) : (s.setObj n o).lulls = s.lulls := rfl
@[simp] theorem State.setObj_reports (s : State) (n : Nat) (o : Obj) : (s.setObj n o).reports = s.reports := rfl
@[simp] theorem State.setObj_owedStatus (s : State) (n : Nat) (o : Obj) : (s.setObj n o).owedStatus = s.owedStatus := rfl
@[simp] theorem State.setObj_lullSeq (s : State) (n : Nat) (o : Obj) : (s.setObj n o).lullSeq = s.lullSeq := rfl
@[simp] theorem State.setObj_plans (s : State) (n : Nat) (o : Obj) : (s.setObj n o).plans = s.plans := rfl
@[simp] theorem State.setObj_insts (s : State) (n : Nat) (o : Obj) : (s.setObj n o).insts = s.insts := rfl
@[simp] theorem State.setObj_nextInst (s : State) (n : Nat) (o : Obj) : (s.setObj n o).nextInst = s.nextInst := rfl
@[simp] theorem State.setObj_ctxDevs (s : State) (n : Nat) (o : Obj) : (s.setObj n o).ctxDevs = s.ctxDevs := rfl
@[simp] theorem State.setObj_heldWrites (s : State) (n : Nat) (o : Obj) : (s.setObj n o).heldWrites = s.heldWrites := rfl
@[simp] theorem State.setObj_ports (s : State) (n : Nat) (o : Obj) : (s.setObj n o).ports = s.ports := rfl
@[simp] theorem State.setObj_hubq (s : State) (n : Nat) (o : Obj) : (s.setObj n o).hubq = s.hubq := rfl
@[simp] theorem State.setObj_pools (s : State) (n : Nat) (o : Obj) : (s.setObj n o).pools = s.pools := rfl
@[simp] theorem State.setObj_dir (s : State) (n : Nat) (o : Obj) : (s.setObj n o).dir = s.dir := rfl
@[simp] theorem State.setObj_hostSec (s : State) (n : Nat) (o : Obj) : (s.setObj n o).hostSec = s.hostSec := rfl
@[simp] theorem State.setObj_backInv (s : State) (n : Nat) (o : Obj) : (s.setObj n o).backInv = s.backInv := rfl
@[simp] theorem State.setObj_pages (s : State) (n : Nat) (o : Obj) : (s.setObj n o).pages = s.pages := rfl
@[simp] theorem State.setObj_recalls (s : State) (n : Nat) (o : Obj) : (s.setObj n o).recalls = s.recalls := rfl
@[simp] theorem State.setObj_updates (s : State) (n : Nat) (o : Obj) : (s.setObj n o).updates = s.updates := rfl
@[simp] theorem State.setObj_revoked (s : State) (n : Nat) (o : Obj) : (s.setObj n o).revoked = s.revoked := rfl
@[simp] theorem State.setObj_storesOut (s : State) (n : Nat) (o : Obj) : (s.setObj n o).storesOut = s.storesOut := rfl
@[simp] theorem State.setObj_away (s : State) (n : Nat) (o : Obj) : (s.setObj n o).away = s.away := rfl
@[simp] theorem State.setObj_lendFor (s : State) (n : Nat) (o : Obj) : (s.setObj n o).lendFor = s.lendFor := rfl
@[simp] theorem State.setObj_voided (s : State) (n : Nat) (o : Obj) : (s.setObj n o).voided = s.voided := rfl
@[simp] theorem State.setObj_prefs (s : State) (n : Nat) (o : Obj) : (s.setObj n o).prefs = s.prefs := rfl
@[simp] theorem State.setObj_farBars (s : State) (n : Nat) (o : Obj) : (s.setObj n o).farBars = s.farBars := rfl
@[simp] theorem State.setObj_loans (s : State) (n : Nat) (o : Obj) : (s.setObj n o).loans = s.loans := rfl
@[simp] theorem State.setObj_peerWait (s : State) (n : Nat) (o : Obj) : (s.setObj n o).peerWait = s.peerWait := rfl
@[simp] theorem State.setObj_efaults (s : State) (n : Nat) (o : Obj) : (s.setObj n o).efaults = s.efaults := rfl
@[simp] theorem State.setObj_nextFid (s : State) (n : Nat) (o : Obj) : (s.setObj n o).nextFid = s.nextFid := rfl
@[simp] theorem State.setObj_inval (s : State) (n : Nat) (o : Obj) : (s.setObj n o).inval = s.inval := rfl
@[simp] theorem State.setObj_aborts (s : State) (n : Nat) (o : Obj) : (s.setObj n o).aborts = s.aborts := rfl
@[simp] theorem State.setObj_preempt (s : State) (n : Nat) (o : Obj) : (s.setObj n o).preempt = s.preempt := rfl
@[simp] theorem State.setObj_saved (s : State) (n : Nat) (o : Obj) : (s.setObj n o).saved = s.saved := rfl
@[simp] theorem State.setObj_waiting (s : State) (n : Nat) (o : Obj) : (s.setObj n o).waiting = s.waiting := rfl
@[simp] theorem State.setObj_keys (s : State) (n : Nat) (o : Obj) : (s.setObj n o).keys = s.keys := rfl
@[simp] theorem State.setObj_kek (s : State) (n : Nat) (o : Obj) : (s.setObj n o).kek = s.kek := rfl
@[simp] theorem State.setObj_ide (s : State) (n : Nat) (o : Obj) : (s.setObj n o).ide = s.ide := rfl
@[simp] theorem State.setObj_spdm (s : State) (n : Nat) (o : Obj) : (s.setObj n o).spdm = s.spdm := rfl
@[simp] theorem State.setObj_snap (s : State) (n : Nat) (o : Obj) : (s.setObj n o).snap = s.snap := rfl
@[simp] theorem State.setObj_pass (s : State) (n : Nat) (o : Obj) : (s.setObj n o).pass = s.pass := rfl
@[simp] theorem State.setObj_pcSeen (s : State) (n : Nat) (o : Obj) : (s.setObj n o).pcSeen = s.pcSeen := rfl
@[simp] theorem State.setObj_pcCtr (s : State) (n : Nat) (o : Obj) : (s.setObj n o).pcCtr = s.pcCtr := rfl
@[simp] theorem State.setObj_life (s : State) (n : Nat) (o : Obj) : (s.setObj n o).life = s.life := rfl
@[simp] theorem State.setObj_flash (s : State) (n : Nat) (o : Obj) : (s.setObj n o).flash = s.flash := rfl
@[simp] theorem State.setObj_commits (s : State) (n : Nat) (o : Obj) : (s.setObj n o).commits = s.commits := rfl
@[simp] theorem State.setObj_poison (s : State) (n : Nat) (o : Obj) : (s.setObj n o).poison = s.poison := rfl
@[simp] theorem State.setObj_softKills (s : State) (n : Nat) (o : Obj) : (s.setObj n o).softKills = s.softKills := rfl
@[simp] theorem State.setObj_issued (s : State) (n : Nat) (o : Obj) : (s.setObj n o).issued = s.issued := rfl
@[simp] theorem State.setObj_ueCount (s : State) (n : Nat) (o : Obj) : (s.setObj n o).ueCount = s.ueCount := rfl
@[simp] theorem State.setObj_ueOut (s : State) (n : Nat) (o : Obj) : (s.setObj n o).ueOut = s.ueOut := rfl

/-! ### `State.setLull` -/

@[simp] theorem State.setLull_cur (s : State) (k : Nat) (l : Lull) : (s.setLull k l).cur = s.cur := rfl
@[simp] theorem State.setLull_agenda (s : State) (k : Nat) (l : Lull) : (s.setLull k l).agenda = s.agenda := rfl
@[simp] theorem State.setLull_free (s : State) (k : Nat) (l : Lull) : (s.setLull k l).free = s.free := rfl
@[simp] theorem State.setLull_self (s : State) (k : Nat) (l : Lull) : (s.setLull k l).self = s.self := rfl
@[simp] theorem State.setLull_present (s : State) (k : Nat) (l : Lull) : (s.setLull k l).present = s.present := rfl
@[simp] theorem State.setLull_mem (s : State) (k : Nat) (l : Lull) : (s.setLull k l).mem = s.mem := rfl
@[simp] theorem State.setLull_stale (s : State) (k : Nat) (l : Lull) : (s.setLull k l).stale = s.stale := rfl
@[simp] theorem State.setLull_scratch (s : State) (k : Nat) (l : Lull) : (s.setLull k l).scratch = s.scratch := rfl
@[simp] theorem State.setLull_warps (s : State) (k : Nat) (l : Lull) : (s.setLull k l).warps = s.warps := rfl
@[simp] theorem State.setLull_left (s : State) (k : Nat) (l : Lull) : (s.setLull k l).left = s.left := rfl
@[simp] theorem State.setLull_cores (s : State) (k : Nat) (l : Lull) : (s.setLull k l).cores = s.cores := rfl
@[simp] theorem State.setLull_blocks (s : State) (k : Nat) (l : Lull) : (s.setLull k l).blocks = s.blocks := rfl
@[simp] theorem State.setLull_bars (s : State) (k : Nat) (l : Lull) : (s.setLull k l).bars = s.bars := rfl
@[simp] theorem State.setLull_launches (s : State) (k : Nat) (l : Lull) : (s.setLull k l).launches = s.launches := rfl
@[simp] theorem State.setLull_queues (s : State) (k : Nat) (l : Lull) : (s.setLull k l).queues = s.queues := rfl
@[simp] theorem State.setLull_turn (s : State) (k : Nat) (l : Lull) : (s.setLull k l).turn = s.turn := rfl
@[simp] theorem State.setLull_entries (s : State) (k : Nat) (l : Lull) : (s.setLull k l).entries = s.entries := rfl
@[simp] theorem State.setLull_nextEntry (s : State) (k : Nat) (l : Lull) : (s.setLull k l).nextEntry = s.nextEntry := rfl
@[simp] theorem State.setLull_l1 (s : State) (k : Nat) (l : Lull) : (s.setLull k l).l1 = s.l1 := rfl
@[simp] theorem State.setLull_tlb (s : State) (k : Nat) (l : Lull) : (s.setLull k l).tlb = s.tlb := rfl
@[simp] theorem State.setLull_ctxs (s : State) (k : Nat) (l : Lull) : (s.setLull k l).ctxs = s.ctxs := rfl
@[simp] theorem State.setLull_spbase (s : State) (k : Nat) (l : Lull) : (s.setLull k l).spbase = s.spbase := rfl
@[simp] theorem State.setLull_held (s : State) (k : Nat) (l : Lull) : (s.setLull k l).held = s.held := rfl
@[simp] theorem State.setLull_wanted (s : State) (k : Nat) (l : Lull) : (s.setLull k l).wanted = s.wanted := rfl
@[simp] theorem State.setLull_hostIo (s : State) (k : Nat) (l : Lull) : (s.setLull k l).hostIo = s.hostIo := rfl
@[simp] theorem State.setLull_mmio (s : State) (k : Nat) (l : Lull) : (s.setLull k l).mmio = s.mmio := rfl
@[simp] theorem State.setLull_msix (s : State) (k : Nat) (l : Lull) : (s.setLull k l).msix = s.msix := rfl
@[simp] theorem State.setLull_objs (s : State) (k : Nat) (l : Lull) : (s.setLull k l).objs = s.objs := rfl
@[simp] theorem State.setLull_lulls (s : State) (k : Nat) (l : Lull) : (s.setLull k l).lulls = SMap.put s.lulls k l := rfl
@[simp] theorem State.setLull_reports (s : State) (k : Nat) (l : Lull) : (s.setLull k l).reports = s.reports := rfl
@[simp] theorem State.setLull_owedStatus (s : State) (k : Nat) (l : Lull) : (s.setLull k l).owedStatus = s.owedStatus := rfl
@[simp] theorem State.setLull_lullSeq (s : State) (k : Nat) (l : Lull) : (s.setLull k l).lullSeq = s.lullSeq := rfl
@[simp] theorem State.setLull_plans (s : State) (k : Nat) (l : Lull) : (s.setLull k l).plans = s.plans := rfl
@[simp] theorem State.setLull_insts (s : State) (k : Nat) (l : Lull) : (s.setLull k l).insts = s.insts := rfl
@[simp] theorem State.setLull_nextInst (s : State) (k : Nat) (l : Lull) : (s.setLull k l).nextInst = s.nextInst := rfl
@[simp] theorem State.setLull_ctxDevs (s : State) (k : Nat) (l : Lull) : (s.setLull k l).ctxDevs = s.ctxDevs := rfl
@[simp] theorem State.setLull_heldWrites (s : State) (k : Nat) (l : Lull) : (s.setLull k l).heldWrites = s.heldWrites := rfl
@[simp] theorem State.setLull_ports (s : State) (k : Nat) (l : Lull) : (s.setLull k l).ports = s.ports := rfl
@[simp] theorem State.setLull_hubq (s : State) (k : Nat) (l : Lull) : (s.setLull k l).hubq = s.hubq := rfl
@[simp] theorem State.setLull_pools (s : State) (k : Nat) (l : Lull) : (s.setLull k l).pools = s.pools := rfl
@[simp] theorem State.setLull_dir (s : State) (k : Nat) (l : Lull) : (s.setLull k l).dir = s.dir := rfl
@[simp] theorem State.setLull_hostSec (s : State) (k : Nat) (l : Lull) : (s.setLull k l).hostSec = s.hostSec := rfl
@[simp] theorem State.setLull_backInv (s : State) (k : Nat) (l : Lull) : (s.setLull k l).backInv = s.backInv := rfl
@[simp] theorem State.setLull_pages (s : State) (k : Nat) (l : Lull) : (s.setLull k l).pages = s.pages := rfl
@[simp] theorem State.setLull_recalls (s : State) (k : Nat) (l : Lull) : (s.setLull k l).recalls = s.recalls := rfl
@[simp] theorem State.setLull_updates (s : State) (k : Nat) (l : Lull) : (s.setLull k l).updates = s.updates := rfl
@[simp] theorem State.setLull_revoked (s : State) (k : Nat) (l : Lull) : (s.setLull k l).revoked = s.revoked := rfl
@[simp] theorem State.setLull_storesOut (s : State) (k : Nat) (l : Lull) : (s.setLull k l).storesOut = s.storesOut := rfl
@[simp] theorem State.setLull_away (s : State) (k : Nat) (l : Lull) : (s.setLull k l).away = s.away := rfl
@[simp] theorem State.setLull_lendFor (s : State) (k : Nat) (l : Lull) : (s.setLull k l).lendFor = s.lendFor := rfl
@[simp] theorem State.setLull_voided (s : State) (k : Nat) (l : Lull) : (s.setLull k l).voided = s.voided := rfl
@[simp] theorem State.setLull_prefs (s : State) (k : Nat) (l : Lull) : (s.setLull k l).prefs = s.prefs := rfl
@[simp] theorem State.setLull_farBars (s : State) (k : Nat) (l : Lull) : (s.setLull k l).farBars = s.farBars := rfl
@[simp] theorem State.setLull_loans (s : State) (k : Nat) (l : Lull) : (s.setLull k l).loans = s.loans := rfl
@[simp] theorem State.setLull_peerWait (s : State) (k : Nat) (l : Lull) : (s.setLull k l).peerWait = s.peerWait := rfl
@[simp] theorem State.setLull_efaults (s : State) (k : Nat) (l : Lull) : (s.setLull k l).efaults = s.efaults := rfl
@[simp] theorem State.setLull_nextFid (s : State) (k : Nat) (l : Lull) : (s.setLull k l).nextFid = s.nextFid := rfl
@[simp] theorem State.setLull_inval (s : State) (k : Nat) (l : Lull) : (s.setLull k l).inval = s.inval := rfl
@[simp] theorem State.setLull_aborts (s : State) (k : Nat) (l : Lull) : (s.setLull k l).aborts = s.aborts := rfl
@[simp] theorem State.setLull_preempt (s : State) (k : Nat) (l : Lull) : (s.setLull k l).preempt = s.preempt := rfl
@[simp] theorem State.setLull_saved (s : State) (k : Nat) (l : Lull) : (s.setLull k l).saved = s.saved := rfl
@[simp] theorem State.setLull_waiting (s : State) (k : Nat) (l : Lull) : (s.setLull k l).waiting = s.waiting := rfl
@[simp] theorem State.setLull_keys (s : State) (k : Nat) (l : Lull) : (s.setLull k l).keys = s.keys := rfl
@[simp] theorem State.setLull_kek (s : State) (k : Nat) (l : Lull) : (s.setLull k l).kek = s.kek := rfl
@[simp] theorem State.setLull_ide (s : State) (k : Nat) (l : Lull) : (s.setLull k l).ide = s.ide := rfl
@[simp] theorem State.setLull_spdm (s : State) (k : Nat) (l : Lull) : (s.setLull k l).spdm = s.spdm := rfl
@[simp] theorem State.setLull_snap (s : State) (k : Nat) (l : Lull) : (s.setLull k l).snap = s.snap := rfl
@[simp] theorem State.setLull_pass (s : State) (k : Nat) (l : Lull) : (s.setLull k l).pass = s.pass := rfl
@[simp] theorem State.setLull_pcSeen (s : State) (k : Nat) (l : Lull) : (s.setLull k l).pcSeen = s.pcSeen := rfl
@[simp] theorem State.setLull_pcCtr (s : State) (k : Nat) (l : Lull) : (s.setLull k l).pcCtr = s.pcCtr := rfl
@[simp] theorem State.setLull_life (s : State) (k : Nat) (l : Lull) : (s.setLull k l).life = s.life := rfl
@[simp] theorem State.setLull_flash (s : State) (k : Nat) (l : Lull) : (s.setLull k l).flash = s.flash := rfl
@[simp] theorem State.setLull_commits (s : State) (k : Nat) (l : Lull) : (s.setLull k l).commits = s.commits := rfl
@[simp] theorem State.setLull_poison (s : State) (k : Nat) (l : Lull) : (s.setLull k l).poison = s.poison := rfl
@[simp] theorem State.setLull_softKills (s : State) (k : Nat) (l : Lull) : (s.setLull k l).softKills = s.softKills := rfl
@[simp] theorem State.setLull_issued (s : State) (k : Nat) (l : Lull) : (s.setLull k l).issued = s.issued := rfl
@[simp] theorem State.setLull_ueCount (s : State) (k : Nat) (l : Lull) : (s.setLull k l).ueCount = s.ueCount := rfl
@[simp] theorem State.setLull_ueOut (s : State) (k : Nat) (l : Lull) : (s.setLull k l).ueOut = s.ueOut := rfl

/-! ### `Warp.mark` -/

@[simp] theorem Warp.mark_launch (w : Warp) (dst : MarkDst) (m : LaneSet) (lat : Nat) (old : Lanes Word) : (w.mark dst m lat old).launch = w.launch := rfl
@[simp] theorem Warp.mark_block (w : Warp) (dst : MarkDst) (m : LaneSet) (lat : Nat) (old : Lanes Word) : (w.mark dst m lat old).block = w.block := rfl
@[simp] theorem Warp.mark_index (w : Warp) (dst : MarkDst) (m : LaneSet) (lat : Nat) (old : Lanes Word) : (w.mark dst m lat old).index = w.index := rfl
@[simp] theorem Warp.mark_age (w : Warp) (dst : MarkDst) (m : LaneSet) (lat : Nat) (old : Lanes Word) : (w.mark dst m lat old).age = w.age := rfl
@[simp] theorem Warp.mark_ctx (w : Warp) (dst : MarkDst) (m : LaneSet) (lat : Nat) (old : Lanes Word) : (w.mark dst m lat old).ctx = w.ctx := rfl
@[simp] theorem Warp.mark_code (w : Warp) (dst : MarkDst) (m : LaneSet) (lat : Nat) (old : Lanes Word) : (w.mark dst m lat old).code = w.code := rfl
@[simp] theorem Warp.mark_regCount (w : Warp) (dst : MarkDst) (m : LaneSet) (lat : Nat) (old : Lanes Word) : (w.mark dst m lat old).regCount = w.regCount := rfl
@[simp] theorem Warp.mark_regs (w : Warp) (dst : MarkDst) (m : LaneSet) (lat : Nat) (old : Lanes Word) : (w.mark dst m lat old).regs = w.regs := rfl
@[simp] theorem Warp.mark_v (w : Warp) (dst : MarkDst) (m : LaneSet) (lat : Nat) (old : Lanes Word) : (w.mark dst m lat old).v = w.v := rfl
@[simp] theorem Warp.mark_acc (w : Warp) (dst : MarkDst) (m : LaneSet) (lat : Nat) (old : Lanes Word) : (w.mark dst m lat old).acc = w.acc := rfl
@[simp] theorem Warp.mark_trees (w : Warp) (dst : MarkDst) (m : LaneSet) (lat : Nat) (old : Lanes Word) : (w.mark dst m lat old).trees = w.trees := rfl
@[simp] theorem Warp.mark_sbchk (w : Warp) (dst : MarkDst) (m : LaneSet) (lat : Nat) (old : Lanes Word) : (w.mark dst m lat old).sbchk = w.sbchk := rfl
@[simp] theorem Warp.mark_super (w : Warp) (dst : MarkDst) (m : LaneSet) (lat : Nat) (old : Lanes Word) : (w.mark dst m lat old).super = w.super := rfl
@[simp] theorem Warp.mark_trapinfo (w : Warp) (dst : MarkDst) (m : LaneSet) (lat : Nat) (old : Lanes Word) : (w.mark dst m lat old).trapinfo = w.trapinfo := rfl
@[simp] theorem Warp.mark_rollbacks (w : Warp) (dst : MarkDst) (m : LaneSet) (lat : Nat) (old : Lanes Word) : (w.mark dst m lat old).rollbacks = w.rollbacks := rfl
@[simp] theorem Warp.mark_clk (w : Warp) (dst : MarkDst) (m : LaneSet) (lat : Nat) (old : Lanes Word) : (w.mark dst m lat old).clk = w.clk := rfl
@[simp] theorem Warp.mark_start (w : Warp) (dst : MarkDst) (m : LaneSet) (lat : Nat) (old : Lanes Word) : (w.mark dst m lat old).start = w.start := rfl
@[simp] theorem Warp.mark_fFree (w : Warp) (dst : MarkDst) (m : LaneSet) (lat : Nat) (old : Lanes Word) : (w.mark dst m lat old).fFree = w.fFree := rfl
@[simp] theorem Warp.mark_marks (w : Warp) (dst : MarkDst) (m : LaneSet) (lat : Nat) (old : Lanes Word) : (w.mark dst m lat old).marks = w.marks ++ [{ dst := dst, lanes := m, due := w.clk + lat, old := old, chk := w.sbchk, win := w.winNow }] := rfl
@[simp] theorem Warp.mark_loads (w : Warp) (dst : MarkDst) (m : LaneSet) (lat : Nat) (old : Lanes Word) : (w.mark dst m lat old).loads = w.loads := rfl
@[simp] theorem Warp.mark_nextLoad (w : Warp) (dst : MarkDst) (m : LaneSet) (lat : Nat) (old : Lanes Word) : (w.mark dst m lat old).nextLoad = w.nextLoad := rfl
@[simp] theorem Warp.mark_windows (w : Warp) (dst : MarkDst) (m : LaneSet) (lat : Nat) (old : Lanes Word) : (w.mark dst m lat old).windows = w.windows := rfl
@[simp] theorem Warp.mark_nextWindow (w : Warp) (dst : MarkDst) (m : LaneSet) (lat : Nat) (old : Lanes Word) : (w.mark dst m lat old).nextWindow = w.nextWindow := rfl
@[simp] theorem Warp.mark_streak (w : Warp) (dst : MarkDst) (m : LaneSet) (lat : Nat) (old : Lanes Word) : (w.mark dst m lat old).streak = w.streak := rfl
@[simp] theorem Warp.mark_nextSteady (w : Warp) (dst : MarkDst) (m : LaneSet) (lat : Nat) (old : Lanes Word) : (w.mark dst m lat old).nextSteady = w.nextSteady := rfl
@[simp] theorem Warp.mark_guard (w : Warp) (dst : MarkDst) (m : LaneSet) (lat : Nat) (old : Lanes Word) : (w.mark dst m lat old).guard = w.guard := rfl
@[simp] theorem Warp.mark_pending (w : Warp) (dst : MarkDst) (m : LaneSet) (lat : Nat) (old : Lanes Word) : (w.mark dst m lat old).pending = w.pending := rfl
@[simp] theorem Warp.mark_wait (w : Warp) (dst : MarkDst) (m : LaneSet) (lat : Nat) (old : Lanes Word) : (w.mark dst m lat old).wait = w.wait := rfl
@[simp] theorem Warp.mark_halt (w : Warp) (dst : MarkDst) (m : LaneSet) (lat : Nat) (old : Lanes Word) : (w.mark dst m lat old).halt = w.halt := rfl
@[simp] theorem Warp.mark_pop (w : Warp) (dst : MarkDst) (m : LaneSet) (lat : Nat) (old : Lanes Word) : (w.mark dst m lat old).pop = w.pop := rfl
@[simp] theorem Warp.mark_since (w : Warp) (dst : MarkDst) (m : LaneSet) (lat : Nat) (old : Lanes Word) : (w.mark dst m lat old).since = w.since := rfl
@[simp] theorem Warp.mark_issues (w : Warp) (dst : MarkDst) (m : LaneSet) (lat : Nat) (old : Lanes Word) : (w.mark dst m lat old).issues = w.issues := rfl
@[simp] theorem Warp.mark_regrouped (w : Warp) (dst : MarkDst) (m : LaneSet) (lat : Nat) (old : Lanes Word) : (w.mark dst m lat old).regrouped = w.regrouped := rfl
@[simp] theorem Warp.mark_promoted (w : Warp) (dst : MarkDst) (m : LaneSet) (lat : Nat) (old : Lanes Word) : (w.mark dst m lat old).promoted = w.promoted := rfl
@[simp] theorem Warp.mark_yielded (w : Warp) (dst : MarkDst) (m : LaneSet) (lat : Nat) (old : Lanes Word) : (w.mark dst m lat old).yielded = w.yielded := rfl
@[simp] theorem Warp.mark_waits (w : Warp) (dst : MarkDst) (m : LaneSet) (lat : Nat) (old : Lanes Word) : (w.mark dst m lat old).waits = w.waits := rfl
@[simp] theorem Warp.mark_urgent (w : Warp) (dst : MarkDst) (m : LaneSet) (lat : Nat) (old : Lanes Word) : (w.mark dst m lat old).urgent = w.urgent := rfl
@[simp] theorem Warp.mark_yieldClock (w : Warp) (dst : MarkDst) (m : LaneSet) (lat : Nat) (old : Lanes Word) : (w.mark dst m lat old).yieldClock = w.yieldClock := rfl
@[simp] theorem Warp.mark_triggered (w : Warp) (dst : MarkDst) (m : LaneSet) (lat : Nat) (old : Lanes Word) : (w.mark dst m lat old).triggered = w.triggered := rfl
@[simp] theorem Warp.mark_arrived (w : Warp) (dst : MarkDst) (m : LaneSet) (lat : Nat) (old : Lanes Word) : (w.mark dst m lat old).arrived = w.arrived := rfl
@[simp] theorem Warp.mark_laneArrived (w : Warp) (dst : MarkDst) (m : LaneSet) (lat : Nat) (old : Lanes Word) : (w.mark dst m lat old).laneArrived = w.laneArrived := rfl
@[simp] theorem Warp.mark_barred (w : Warp) (dst : MarkDst) (m : LaneSet) (lat : Nat) (old : Lanes Word) : (w.mark dst m lat old).barred = w.barred := rfl
@[simp] theorem Warp.mark_wasLive (w : Warp) (dst : MarkDst) (m : LaneSet) (lat : Nat) (old : Lanes Word) : (w.mark dst m lat old).wasLive = w.wasLive := rfl
@[simp] theorem Warp.mark_late (w : Warp) (dst : MarkDst) (m : LaneSet) (lat : Nat) (old : Lanes Word) : (w.mark dst m lat old).late = w.late := rfl
@[simp] theorem Warp.mark_arrivals (w : Warp) (dst : MarkDst) (m : LaneSet) (lat : Nat) (old : Lanes Word) : (w.mark dst m lat old).arrivals = w.arrivals := rfl
@[simp] theorem Warp.mark_crossed (w : Warp) (dst : MarkDst) (m : LaneSet) (lat : Nat) (old : Lanes Word) : (w.mark dst m lat old).crossed = w.crossed := rfl
@[simp] theorem Warp.mark_soft (w : Warp) (dst : MarkDst) (m : LaneSet) (lat : Nat) (old : Lanes Word) : (w.mark dst m lat old).soft = w.soft := rfl
@[simp] theorem Warp.mark_declares (w : Warp) (dst : MarkDst) (m : LaneSet) (lat : Nat) (old : Lanes Word) : (w.mark dst m lat old).declares = w.declares := rfl

/-! ### `Warp.setQ` -/

@[simp] theorem Warp.setQ_launch (w : Warp) (n : Nat) (m : LaneSet) (f : Fin 32 → Word) (lat : Nat) : (w.setQ n m f lat).launch = w.launch := rfl
@[simp] theorem Warp.setQ_block (w : Warp) (n : Nat) (m : LaneSet) (f : Fin 32 → Word) (lat : Nat) : (w.setQ n m f lat).block = w.block := rfl
@[simp] theorem Warp.setQ_index (w : Warp) (n : Nat) (m : LaneSet) (f : Fin 32 → Word) (lat : Nat) : (w.setQ n m f lat).index = w.index := rfl
@[simp] theorem Warp.setQ_age (w : Warp) (n : Nat) (m : LaneSet) (f : Fin 32 → Word) (lat : Nat) : (w.setQ n m f lat).age = w.age := rfl
@[simp] theorem Warp.setQ_ctx (w : Warp) (n : Nat) (m : LaneSet) (f : Fin 32 → Word) (lat : Nat) : (w.setQ n m f lat).ctx = w.ctx := rfl
@[simp] theorem Warp.setQ_code (w : Warp) (n : Nat) (m : LaneSet) (f : Fin 32 → Word) (lat : Nat) : (w.setQ n m f lat).code = w.code := rfl
@[simp] theorem Warp.setQ_regCount (w : Warp) (n : Nat) (m : LaneSet) (f : Fin 32 → Word) (lat : Nat) : (w.setQ n m f lat).regCount = w.regCount := rfl
@[simp] theorem Warp.setQ_regs (w : Warp) (n : Nat) (m : LaneSet) (f : Fin 32 → Word) (lat : Nat) : (w.setQ n m f lat).regs = { w.regs with q := SMap.put w.regs.q n (Lanes.write (w.regs.qRow n) m f) } := rfl
@[simp] theorem Warp.setQ_v (w : Warp) (n : Nat) (m : LaneSet) (f : Fin 32 → Word) (lat : Nat) : (w.setQ n m f lat).v = w.v := rfl
@[simp] theorem Warp.setQ_acc (w : Warp) (n : Nat) (m : LaneSet) (f : Fin 32 → Word) (lat : Nat) : (w.setQ n m f lat).acc = w.acc := rfl
@[simp] theorem Warp.setQ_trees (w : Warp) (n : Nat) (m : LaneSet) (f : Fin 32 → Word) (lat : Nat) : (w.setQ n m f lat).trees = w.trees := rfl
@[simp] theorem Warp.setQ_sbchk (w : Warp) (n : Nat) (m : LaneSet) (f : Fin 32 → Word) (lat : Nat) : (w.setQ n m f lat).sbchk = w.sbchk := rfl
@[simp] theorem Warp.setQ_super (w : Warp) (n : Nat) (m : LaneSet) (f : Fin 32 → Word) (lat : Nat) : (w.setQ n m f lat).super = w.super := rfl
@[simp] theorem Warp.setQ_trapinfo (w : Warp) (n : Nat) (m : LaneSet) (f : Fin 32 → Word) (lat : Nat) : (w.setQ n m f lat).trapinfo = w.trapinfo := rfl
@[simp] theorem Warp.setQ_rollbacks (w : Warp) (n : Nat) (m : LaneSet) (f : Fin 32 → Word) (lat : Nat) : (w.setQ n m f lat).rollbacks = w.rollbacks := rfl
@[simp] theorem Warp.setQ_clk (w : Warp) (n : Nat) (m : LaneSet) (f : Fin 32 → Word) (lat : Nat) : (w.setQ n m f lat).clk = w.clk := rfl
@[simp] theorem Warp.setQ_start (w : Warp) (n : Nat) (m : LaneSet) (f : Fin 32 → Word) (lat : Nat) : (w.setQ n m f lat).start = w.start := rfl
@[simp] theorem Warp.setQ_fFree (w : Warp) (n : Nat) (m : LaneSet) (f : Fin 32 → Word) (lat : Nat) : (w.setQ n m f lat).fFree = w.fFree := rfl
@[simp] theorem Warp.setQ_marks (w : Warp) (n : Nat) (m : LaneSet) (f : Fin 32 → Word) (lat : Nat) : (w.setQ n m f lat).marks = (w.mark (.q n) m lat (w.regs.qRow n)).marks := rfl
@[simp] theorem Warp.setQ_loads (w : Warp) (n : Nat) (m : LaneSet) (f : Fin 32 → Word) (lat : Nat) : (w.setQ n m f lat).loads = w.loads := rfl
@[simp] theorem Warp.setQ_nextLoad (w : Warp) (n : Nat) (m : LaneSet) (f : Fin 32 → Word) (lat : Nat) : (w.setQ n m f lat).nextLoad = w.nextLoad := rfl
@[simp] theorem Warp.setQ_windows (w : Warp) (n : Nat) (m : LaneSet) (f : Fin 32 → Word) (lat : Nat) : (w.setQ n m f lat).windows = w.windows := rfl
@[simp] theorem Warp.setQ_nextWindow (w : Warp) (n : Nat) (m : LaneSet) (f : Fin 32 → Word) (lat : Nat) : (w.setQ n m f lat).nextWindow = w.nextWindow := rfl
@[simp] theorem Warp.setQ_streak (w : Warp) (n : Nat) (m : LaneSet) (f : Fin 32 → Word) (lat : Nat) : (w.setQ n m f lat).streak = w.streak := rfl
@[simp] theorem Warp.setQ_nextSteady (w : Warp) (n : Nat) (m : LaneSet) (f : Fin 32 → Word) (lat : Nat) : (w.setQ n m f lat).nextSteady = w.nextSteady := rfl
@[simp] theorem Warp.setQ_guard (w : Warp) (n : Nat) (m : LaneSet) (f : Fin 32 → Word) (lat : Nat) : (w.setQ n m f lat).guard = w.guard := rfl
@[simp] theorem Warp.setQ_pending (w : Warp) (n : Nat) (m : LaneSet) (f : Fin 32 → Word) (lat : Nat) : (w.setQ n m f lat).pending = w.pending := rfl
@[simp] theorem Warp.setQ_wait (w : Warp) (n : Nat) (m : LaneSet) (f : Fin 32 → Word) (lat : Nat) : (w.setQ n m f lat).wait = w.wait := rfl
@[simp] theorem Warp.setQ_halt (w : Warp) (n : Nat) (m : LaneSet) (f : Fin 32 → Word) (lat : Nat) : (w.setQ n m f lat).halt = w.halt := rfl
@[simp] theorem Warp.setQ_pop (w : Warp) (n : Nat) (m : LaneSet) (f : Fin 32 → Word) (lat : Nat) : (w.setQ n m f lat).pop = w.pop := rfl
@[simp] theorem Warp.setQ_since (w : Warp) (n : Nat) (m : LaneSet) (f : Fin 32 → Word) (lat : Nat) : (w.setQ n m f lat).since = w.since := rfl
@[simp] theorem Warp.setQ_issues (w : Warp) (n : Nat) (m : LaneSet) (f : Fin 32 → Word) (lat : Nat) : (w.setQ n m f lat).issues = w.issues := rfl
@[simp] theorem Warp.setQ_regrouped (w : Warp) (n : Nat) (m : LaneSet) (f : Fin 32 → Word) (lat : Nat) : (w.setQ n m f lat).regrouped = w.regrouped := rfl
@[simp] theorem Warp.setQ_promoted (w : Warp) (n : Nat) (m : LaneSet) (f : Fin 32 → Word) (lat : Nat) : (w.setQ n m f lat).promoted = w.promoted := rfl
@[simp] theorem Warp.setQ_yielded (w : Warp) (n : Nat) (m : LaneSet) (f : Fin 32 → Word) (lat : Nat) : (w.setQ n m f lat).yielded = w.yielded := rfl
@[simp] theorem Warp.setQ_waits (w : Warp) (n : Nat) (m : LaneSet) (f : Fin 32 → Word) (lat : Nat) : (w.setQ n m f lat).waits = w.waits := rfl
@[simp] theorem Warp.setQ_urgent (w : Warp) (n : Nat) (m : LaneSet) (f : Fin 32 → Word) (lat : Nat) : (w.setQ n m f lat).urgent = w.urgent := rfl
@[simp] theorem Warp.setQ_yieldClock (w : Warp) (n : Nat) (m : LaneSet) (f : Fin 32 → Word) (lat : Nat) : (w.setQ n m f lat).yieldClock = w.yieldClock := rfl
@[simp] theorem Warp.setQ_triggered (w : Warp) (n : Nat) (m : LaneSet) (f : Fin 32 → Word) (lat : Nat) : (w.setQ n m f lat).triggered = w.triggered := rfl
@[simp] theorem Warp.setQ_arrived (w : Warp) (n : Nat) (m : LaneSet) (f : Fin 32 → Word) (lat : Nat) : (w.setQ n m f lat).arrived = w.arrived := rfl
@[simp] theorem Warp.setQ_laneArrived (w : Warp) (n : Nat) (m : LaneSet) (f : Fin 32 → Word) (lat : Nat) : (w.setQ n m f lat).laneArrived = w.laneArrived := rfl
@[simp] theorem Warp.setQ_barred (w : Warp) (n : Nat) (m : LaneSet) (f : Fin 32 → Word) (lat : Nat) : (w.setQ n m f lat).barred = w.barred := rfl
@[simp] theorem Warp.setQ_wasLive (w : Warp) (n : Nat) (m : LaneSet) (f : Fin 32 → Word) (lat : Nat) : (w.setQ n m f lat).wasLive = w.wasLive := rfl
@[simp] theorem Warp.setQ_late (w : Warp) (n : Nat) (m : LaneSet) (f : Fin 32 → Word) (lat : Nat) : (w.setQ n m f lat).late = w.late := rfl
@[simp] theorem Warp.setQ_arrivals (w : Warp) (n : Nat) (m : LaneSet) (f : Fin 32 → Word) (lat : Nat) : (w.setQ n m f lat).arrivals = w.arrivals := rfl
@[simp] theorem Warp.setQ_crossed (w : Warp) (n : Nat) (m : LaneSet) (f : Fin 32 → Word) (lat : Nat) : (w.setQ n m f lat).crossed = w.crossed := rfl
@[simp] theorem Warp.setQ_soft (w : Warp) (n : Nat) (m : LaneSet) (f : Fin 32 → Word) (lat : Nat) : (w.setQ n m f lat).soft = w.soft := rfl
@[simp] theorem Warp.setQ_declares (w : Warp) (n : Nat) (m : LaneSet) (f : Fin 32 → Word) (lat : Nat) : (w.setQ n m f lat).declares = w.declares := rfl

/-! ### `Warp.setV` -/

@[simp] theorem Warp.setV_launch (w : Warp) (n : Nat) (m : LaneSet) (f : Fin 32 → Word) (lat : Nat) : (w.setV n m f lat).launch = w.launch := rfl
@[simp] theorem Warp.setV_block (w : Warp) (n : Nat) (m : LaneSet) (f : Fin 32 → Word) (lat : Nat) : (w.setV n m f lat).block = w.block := rfl
@[simp] theorem Warp.setV_index (w : Warp) (n : Nat) (m : LaneSet) (f : Fin 32 → Word) (lat : Nat) : (w.setV n m f lat).index = w.index := rfl
@[simp] theorem Warp.setV_age (w : Warp) (n : Nat) (m : LaneSet) (f : Fin 32 → Word) (lat : Nat) : (w.setV n m f lat).age = w.age := rfl
@[simp] theorem Warp.setV_ctx (w : Warp) (n : Nat) (m : LaneSet) (f : Fin 32 → Word) (lat : Nat) : (w.setV n m f lat).ctx = w.ctx := rfl
@[simp] theorem Warp.setV_code (w : Warp) (n : Nat) (m : LaneSet) (f : Fin 32 → Word) (lat : Nat) : (w.setV n m f lat).code = w.code := rfl
@[simp] theorem Warp.setV_regCount (w : Warp) (n : Nat) (m : LaneSet) (f : Fin 32 → Word) (lat : Nat) : (w.setV n m f lat).regCount = w.regCount := rfl
@[simp] theorem Warp.setV_regs (w : Warp) (n : Nat) (m : LaneSet) (f : Fin 32 → Word) (lat : Nat) : (w.setV n m f lat).regs = w.regs := rfl
@[simp] theorem Warp.setV_v (w : Warp) (n : Nat) (m : LaneSet) (f : Fin 32 → Word) (lat : Nat) : (w.setV n m f lat).v = SMap.put w.v n (Lanes.write (w.vRow n) m f) := rfl
@[simp] theorem Warp.setV_acc (w : Warp) (n : Nat) (m : LaneSet) (f : Fin 32 → Word) (lat : Nat) : (w.setV n m f lat).acc = w.acc := rfl
@[simp] theorem Warp.setV_trees (w : Warp) (n : Nat) (m : LaneSet) (f : Fin 32 → Word) (lat : Nat) : (w.setV n m f lat).trees = w.trees := rfl
@[simp] theorem Warp.setV_sbchk (w : Warp) (n : Nat) (m : LaneSet) (f : Fin 32 → Word) (lat : Nat) : (w.setV n m f lat).sbchk = w.sbchk := rfl
@[simp] theorem Warp.setV_super (w : Warp) (n : Nat) (m : LaneSet) (f : Fin 32 → Word) (lat : Nat) : (w.setV n m f lat).super = w.super := rfl
@[simp] theorem Warp.setV_trapinfo (w : Warp) (n : Nat) (m : LaneSet) (f : Fin 32 → Word) (lat : Nat) : (w.setV n m f lat).trapinfo = w.trapinfo := rfl
@[simp] theorem Warp.setV_rollbacks (w : Warp) (n : Nat) (m : LaneSet) (f : Fin 32 → Word) (lat : Nat) : (w.setV n m f lat).rollbacks = w.rollbacks := rfl
@[simp] theorem Warp.setV_clk (w : Warp) (n : Nat) (m : LaneSet) (f : Fin 32 → Word) (lat : Nat) : (w.setV n m f lat).clk = w.clk := rfl
@[simp] theorem Warp.setV_start (w : Warp) (n : Nat) (m : LaneSet) (f : Fin 32 → Word) (lat : Nat) : (w.setV n m f lat).start = w.start := rfl
@[simp] theorem Warp.setV_fFree (w : Warp) (n : Nat) (m : LaneSet) (f : Fin 32 → Word) (lat : Nat) : (w.setV n m f lat).fFree = w.fFree := rfl
@[simp] theorem Warp.setV_marks (w : Warp) (n : Nat) (m : LaneSet) (f : Fin 32 → Word) (lat : Nat) : (w.setV n m f lat).marks = (w.mark (.v n) m lat (w.vRow n)).marks := rfl
@[simp] theorem Warp.setV_loads (w : Warp) (n : Nat) (m : LaneSet) (f : Fin 32 → Word) (lat : Nat) : (w.setV n m f lat).loads = w.loads := rfl
@[simp] theorem Warp.setV_nextLoad (w : Warp) (n : Nat) (m : LaneSet) (f : Fin 32 → Word) (lat : Nat) : (w.setV n m f lat).nextLoad = w.nextLoad := rfl
@[simp] theorem Warp.setV_nextWindow (w : Warp) (n : Nat) (m : LaneSet) (f : Fin 32 → Word) (lat : Nat) : (w.setV n m f lat).nextWindow = w.nextWindow := rfl
@[simp] theorem Warp.setV_streak (w : Warp) (n : Nat) (m : LaneSet) (f : Fin 32 → Word) (lat : Nat) : (w.setV n m f lat).streak = w.streak := rfl
@[simp] theorem Warp.setV_nextSteady (w : Warp) (n : Nat) (m : LaneSet) (f : Fin 32 → Word) (lat : Nat) : (w.setV n m f lat).nextSteady = w.nextSteady := rfl
@[simp] theorem Warp.setV_guard (w : Warp) (n : Nat) (m : LaneSet) (f : Fin 32 → Word) (lat : Nat) : (w.setV n m f lat).guard = w.guard := rfl
@[simp] theorem Warp.setV_pending (w : Warp) (n : Nat) (m : LaneSet) (f : Fin 32 → Word) (lat : Nat) : (w.setV n m f lat).pending = w.pending := rfl
@[simp] theorem Warp.setV_wait (w : Warp) (n : Nat) (m : LaneSet) (f : Fin 32 → Word) (lat : Nat) : (w.setV n m f lat).wait = w.wait := rfl
@[simp] theorem Warp.setV_halt (w : Warp) (n : Nat) (m : LaneSet) (f : Fin 32 → Word) (lat : Nat) : (w.setV n m f lat).halt = w.halt := rfl
@[simp] theorem Warp.setV_pop (w : Warp) (n : Nat) (m : LaneSet) (f : Fin 32 → Word) (lat : Nat) : (w.setV n m f lat).pop = w.pop := rfl
@[simp] theorem Warp.setV_since (w : Warp) (n : Nat) (m : LaneSet) (f : Fin 32 → Word) (lat : Nat) : (w.setV n m f lat).since = w.since := rfl
@[simp] theorem Warp.setV_issues (w : Warp) (n : Nat) (m : LaneSet) (f : Fin 32 → Word) (lat : Nat) : (w.setV n m f lat).issues = w.issues := rfl
@[simp] theorem Warp.setV_regrouped (w : Warp) (n : Nat) (m : LaneSet) (f : Fin 32 → Word) (lat : Nat) : (w.setV n m f lat).regrouped = w.regrouped := rfl
@[simp] theorem Warp.setV_promoted (w : Warp) (n : Nat) (m : LaneSet) (f : Fin 32 → Word) (lat : Nat) : (w.setV n m f lat).promoted = w.promoted := rfl
@[simp] theorem Warp.setV_yielded (w : Warp) (n : Nat) (m : LaneSet) (f : Fin 32 → Word) (lat : Nat) : (w.setV n m f lat).yielded = w.yielded := rfl
@[simp] theorem Warp.setV_waits (w : Warp) (n : Nat) (m : LaneSet) (f : Fin 32 → Word) (lat : Nat) : (w.setV n m f lat).waits = w.waits := rfl
@[simp] theorem Warp.setV_urgent (w : Warp) (n : Nat) (m : LaneSet) (f : Fin 32 → Word) (lat : Nat) : (w.setV n m f lat).urgent = w.urgent := rfl
@[simp] theorem Warp.setV_yieldClock (w : Warp) (n : Nat) (m : LaneSet) (f : Fin 32 → Word) (lat : Nat) : (w.setV n m f lat).yieldClock = w.yieldClock := rfl
@[simp] theorem Warp.setV_triggered (w : Warp) (n : Nat) (m : LaneSet) (f : Fin 32 → Word) (lat : Nat) : (w.setV n m f lat).triggered = w.triggered := rfl
@[simp] theorem Warp.setV_arrived (w : Warp) (n : Nat) (m : LaneSet) (f : Fin 32 → Word) (lat : Nat) : (w.setV n m f lat).arrived = w.arrived := rfl
@[simp] theorem Warp.setV_laneArrived (w : Warp) (n : Nat) (m : LaneSet) (f : Fin 32 → Word) (lat : Nat) : (w.setV n m f lat).laneArrived = w.laneArrived := rfl
@[simp] theorem Warp.setV_barred (w : Warp) (n : Nat) (m : LaneSet) (f : Fin 32 → Word) (lat : Nat) : (w.setV n m f lat).barred = w.barred := rfl
@[simp] theorem Warp.setV_wasLive (w : Warp) (n : Nat) (m : LaneSet) (f : Fin 32 → Word) (lat : Nat) : (w.setV n m f lat).wasLive = w.wasLive := rfl
@[simp] theorem Warp.setV_late (w : Warp) (n : Nat) (m : LaneSet) (f : Fin 32 → Word) (lat : Nat) : (w.setV n m f lat).late = w.late := rfl
@[simp] theorem Warp.setV_arrivals (w : Warp) (n : Nat) (m : LaneSet) (f : Fin 32 → Word) (lat : Nat) : (w.setV n m f lat).arrivals = w.arrivals := rfl
@[simp] theorem Warp.setV_crossed (w : Warp) (n : Nat) (m : LaneSet) (f : Fin 32 → Word) (lat : Nat) : (w.setV n m f lat).crossed = w.crossed := rfl
@[simp] theorem Warp.setV_soft (w : Warp) (n : Nat) (m : LaneSet) (f : Fin 32 → Word) (lat : Nat) : (w.setV n m f lat).soft = w.soft := rfl
@[simp] theorem Warp.setV_declares (w : Warp) (n : Nat) (m : LaneSet) (f : Fin 32 → Word) (lat : Nat) : (w.setV n m f lat).declares = w.declares := rfl

/-! ### `Warp.setP` -/

@[simp] theorem Warp.setP_launch (w : Warp) (n : Nat) (m : LaneSet) (f : Fin 32 → Bool) (lat : Nat) : (w.setP n m f lat).launch = w.launch := rfl
@[simp] theorem Warp.setP_block (w : Warp) (n : Nat) (m : LaneSet) (f : Fin 32 → Bool) (lat : Nat) : (w.setP n m f lat).block = w.block := rfl
@[simp] theorem Warp.setP_index (w : Warp) (n : Nat) (m : LaneSet) (f : Fin 32 → Bool) (lat : Nat) : (w.setP n m f lat).index = w.index := rfl
@[simp] theorem Warp.setP_age (w : Warp) (n : Nat) (m : LaneSet) (f : Fin 32 → Bool) (lat : Nat) : (w.setP n m f lat).age = w.age := rfl
@[simp] theorem Warp.setP_ctx (w : Warp) (n : Nat) (m : LaneSet) (f : Fin 32 → Bool) (lat : Nat) : (w.setP n m f lat).ctx = w.ctx := rfl
@[simp] theorem Warp.setP_code (w : Warp) (n : Nat) (m : LaneSet) (f : Fin 32 → Bool) (lat : Nat) : (w.setP n m f lat).code = w.code := rfl
@[simp] theorem Warp.setP_regCount (w : Warp) (n : Nat) (m : LaneSet) (f : Fin 32 → Bool) (lat : Nat) : (w.setP n m f lat).regCount = w.regCount := rfl
@[simp] theorem Warp.setP_regs (w : Warp) (n : Nat) (m : LaneSet) (f : Fin 32 → Bool) (lat : Nat) : (w.setP n m f lat).regs = { w.regs with p := SMap.put w.regs.p n (Lanes.write (w.regs.pRow n) m f) } := rfl
@[simp] theorem Warp.setP_v (w : Warp) (n : Nat) (m : LaneSet) (f : Fin 32 → Bool) (lat : Nat) : (w.setP n m f lat).v = w.v := rfl
@[simp] theorem Warp.setP_acc (w : Warp) (n : Nat) (m : LaneSet) (f : Fin 32 → Bool) (lat : Nat) : (w.setP n m f lat).acc = w.acc := rfl
@[simp] theorem Warp.setP_trees (w : Warp) (n : Nat) (m : LaneSet) (f : Fin 32 → Bool) (lat : Nat) : (w.setP n m f lat).trees = w.trees := rfl
@[simp] theorem Warp.setP_sbchk (w : Warp) (n : Nat) (m : LaneSet) (f : Fin 32 → Bool) (lat : Nat) : (w.setP n m f lat).sbchk = w.sbchk := rfl
@[simp] theorem Warp.setP_super (w : Warp) (n : Nat) (m : LaneSet) (f : Fin 32 → Bool) (lat : Nat) : (w.setP n m f lat).super = w.super := rfl
@[simp] theorem Warp.setP_trapinfo (w : Warp) (n : Nat) (m : LaneSet) (f : Fin 32 → Bool) (lat : Nat) : (w.setP n m f lat).trapinfo = w.trapinfo := rfl
@[simp] theorem Warp.setP_rollbacks (w : Warp) (n : Nat) (m : LaneSet) (f : Fin 32 → Bool) (lat : Nat) : (w.setP n m f lat).rollbacks = w.rollbacks := rfl
@[simp] theorem Warp.setP_clk (w : Warp) (n : Nat) (m : LaneSet) (f : Fin 32 → Bool) (lat : Nat) : (w.setP n m f lat).clk = w.clk := rfl
@[simp] theorem Warp.setP_start (w : Warp) (n : Nat) (m : LaneSet) (f : Fin 32 → Bool) (lat : Nat) : (w.setP n m f lat).start = w.start := rfl
@[simp] theorem Warp.setP_fFree (w : Warp) (n : Nat) (m : LaneSet) (f : Fin 32 → Bool) (lat : Nat) : (w.setP n m f lat).fFree = w.fFree := rfl
@[simp] theorem Warp.setP_marks (w : Warp) (n : Nat) (m : LaneSet) (f : Fin 32 → Bool) (lat : Nat) : (w.setP n m f lat).marks = (w.mark (.p n) m lat (Lanes.ofFn fun l => predWord (w.regs.pRow n)[l])).marks := rfl
@[simp] theorem Warp.setP_loads (w : Warp) (n : Nat) (m : LaneSet) (f : Fin 32 → Bool) (lat : Nat) : (w.setP n m f lat).loads = w.loads := rfl
@[simp] theorem Warp.setP_nextLoad (w : Warp) (n : Nat) (m : LaneSet) (f : Fin 32 → Bool) (lat : Nat) : (w.setP n m f lat).nextLoad = w.nextLoad := rfl
@[simp] theorem Warp.setP_windows (w : Warp) (n : Nat) (m : LaneSet) (f : Fin 32 → Bool) (lat : Nat) : (w.setP n m f lat).windows = w.windows := rfl
@[simp] theorem Warp.setP_nextWindow (w : Warp) (n : Nat) (m : LaneSet) (f : Fin 32 → Bool) (lat : Nat) : (w.setP n m f lat).nextWindow = w.nextWindow := rfl
@[simp] theorem Warp.setP_streak (w : Warp) (n : Nat) (m : LaneSet) (f : Fin 32 → Bool) (lat : Nat) : (w.setP n m f lat).streak = w.streak := rfl
@[simp] theorem Warp.setP_nextSteady (w : Warp) (n : Nat) (m : LaneSet) (f : Fin 32 → Bool) (lat : Nat) : (w.setP n m f lat).nextSteady = w.nextSteady := rfl
@[simp] theorem Warp.setP_guard (w : Warp) (n : Nat) (m : LaneSet) (f : Fin 32 → Bool) (lat : Nat) : (w.setP n m f lat).guard = w.guard := rfl
@[simp] theorem Warp.setP_pending (w : Warp) (n : Nat) (m : LaneSet) (f : Fin 32 → Bool) (lat : Nat) : (w.setP n m f lat).pending = w.pending := rfl
@[simp] theorem Warp.setP_wait (w : Warp) (n : Nat) (m : LaneSet) (f : Fin 32 → Bool) (lat : Nat) : (w.setP n m f lat).wait = w.wait := rfl
@[simp] theorem Warp.setP_halt (w : Warp) (n : Nat) (m : LaneSet) (f : Fin 32 → Bool) (lat : Nat) : (w.setP n m f lat).halt = w.halt := rfl
@[simp] theorem Warp.setP_pop (w : Warp) (n : Nat) (m : LaneSet) (f : Fin 32 → Bool) (lat : Nat) : (w.setP n m f lat).pop = w.pop := rfl
@[simp] theorem Warp.setP_since (w : Warp) (n : Nat) (m : LaneSet) (f : Fin 32 → Bool) (lat : Nat) : (w.setP n m f lat).since = w.since := rfl
@[simp] theorem Warp.setP_issues (w : Warp) (n : Nat) (m : LaneSet) (f : Fin 32 → Bool) (lat : Nat) : (w.setP n m f lat).issues = w.issues := rfl
@[simp] theorem Warp.setP_regrouped (w : Warp) (n : Nat) (m : LaneSet) (f : Fin 32 → Bool) (lat : Nat) : (w.setP n m f lat).regrouped = w.regrouped := rfl
@[simp] theorem Warp.setP_promoted (w : Warp) (n : Nat) (m : LaneSet) (f : Fin 32 → Bool) (lat : Nat) : (w.setP n m f lat).promoted = w.promoted := rfl
@[simp] theorem Warp.setP_yielded (w : Warp) (n : Nat) (m : LaneSet) (f : Fin 32 → Bool) (lat : Nat) : (w.setP n m f lat).yielded = w.yielded := rfl
@[simp] theorem Warp.setP_waits (w : Warp) (n : Nat) (m : LaneSet) (f : Fin 32 → Bool) (lat : Nat) : (w.setP n m f lat).waits = w.waits := rfl
@[simp] theorem Warp.setP_urgent (w : Warp) (n : Nat) (m : LaneSet) (f : Fin 32 → Bool) (lat : Nat) : (w.setP n m f lat).urgent = w.urgent := rfl
@[simp] theorem Warp.setP_yieldClock (w : Warp) (n : Nat) (m : LaneSet) (f : Fin 32 → Bool) (lat : Nat) : (w.setP n m f lat).yieldClock = w.yieldClock := rfl
@[simp] theorem Warp.setP_triggered (w : Warp) (n : Nat) (m : LaneSet) (f : Fin 32 → Bool) (lat : Nat) : (w.setP n m f lat).triggered = w.triggered := rfl
@[simp] theorem Warp.setP_arrived (w : Warp) (n : Nat) (m : LaneSet) (f : Fin 32 → Bool) (lat : Nat) : (w.setP n m f lat).arrived = w.arrived := rfl
@[simp] theorem Warp.setP_laneArrived (w : Warp) (n : Nat) (m : LaneSet) (f : Fin 32 → Bool) (lat : Nat) : (w.setP n m f lat).laneArrived = w.laneArrived := rfl
@[simp] theorem Warp.setP_barred (w : Warp) (n : Nat) (m : LaneSet) (f : Fin 32 → Bool) (lat : Nat) : (w.setP n m f lat).barred = w.barred := rfl
@[simp] theorem Warp.setP_wasLive (w : Warp) (n : Nat) (m : LaneSet) (f : Fin 32 → Bool) (lat : Nat) : (w.setP n m f lat).wasLive = w.wasLive := rfl
@[simp] theorem Warp.setP_late (w : Warp) (n : Nat) (m : LaneSet) (f : Fin 32 → Bool) (lat : Nat) : (w.setP n m f lat).late = w.late := rfl
@[simp] theorem Warp.setP_arrivals (w : Warp) (n : Nat) (m : LaneSet) (f : Fin 32 → Bool) (lat : Nat) : (w.setP n m f lat).arrivals = w.arrivals := rfl
@[simp] theorem Warp.setP_crossed (w : Warp) (n : Nat) (m : LaneSet) (f : Fin 32 → Bool) (lat : Nat) : (w.setP n m f lat).crossed = w.crossed := rfl
@[simp] theorem Warp.setP_soft (w : Warp) (n : Nat) (m : LaneSet) (f : Fin 32 → Bool) (lat : Nat) : (w.setP n m f lat).soft = w.soft := rfl
@[simp] theorem Warp.setP_declares (w : Warp) (n : Nat) (m : LaneSet) (f : Fin 32 → Bool) (lat : Nat) : (w.setP n m f lat).declares = w.declares := rfl

/-! ### `Warp.setS` -/

@[simp] theorem Warp.setS_launch (w : Warp) (n : Nat) (x : Word) (lat : Nat) : (w.setS n x lat).launch = w.launch := rfl
@[simp] theorem Warp.setS_block (w : Warp) (n : Nat) (x : Word) (lat : Nat) : (w.setS n x lat).block = w.block := rfl
@[simp] theorem Warp.setS_index (w : Warp) (n : Nat) (x : Word) (lat : Nat) : (w.setS n x lat).index = w.index := rfl
@[simp] theorem Warp.setS_age (w : Warp) (n : Nat) (x : Word) (lat : Nat) : (w.setS n x lat).age = w.age := rfl
@[simp] theorem Warp.setS_ctx (w : Warp) (n : Nat) (x : Word) (lat : Nat) : (w.setS n x lat).ctx = w.ctx := rfl
@[simp] theorem Warp.setS_code (w : Warp) (n : Nat) (x : Word) (lat : Nat) : (w.setS n x lat).code = w.code := rfl
@[simp] theorem Warp.setS_regCount (w : Warp) (n : Nat) (x : Word) (lat : Nat) : (w.setS n x lat).regCount = w.regCount := rfl
@[simp] theorem Warp.setS_regs (w : Warp) (n : Nat) (x : Word) (lat : Nat) : (w.setS n x lat).regs = { w.regs with s := SMap.put w.regs.s n x } := rfl
@[simp] theorem Warp.setS_v (w : Warp) (n : Nat) (x : Word) (lat : Nat) : (w.setS n x lat).v = w.v := rfl
@[simp] theorem Warp.setS_acc (w : Warp) (n : Nat) (x : Word) (lat : Nat) : (w.setS n x lat).acc = w.acc := rfl
@[simp] theorem Warp.setS_trees (w : Warp) (n : Nat) (x : Word) (lat : Nat) : (w.setS n x lat).trees = w.trees := rfl
@[simp] theorem Warp.setS_sbchk (w : Warp) (n : Nat) (x : Word) (lat : Nat) : (w.setS n x lat).sbchk = w.sbchk := rfl
@[simp] theorem Warp.setS_super (w : Warp) (n : Nat) (x : Word) (lat : Nat) : (w.setS n x lat).super = w.super := rfl
@[simp] theorem Warp.setS_trapinfo (w : Warp) (n : Nat) (x : Word) (lat : Nat) : (w.setS n x lat).trapinfo = w.trapinfo := rfl
@[simp] theorem Warp.setS_rollbacks (w : Warp) (n : Nat) (x : Word) (lat : Nat) : (w.setS n x lat).rollbacks = w.rollbacks := rfl
@[simp] theorem Warp.setS_clk (w : Warp) (n : Nat) (x : Word) (lat : Nat) : (w.setS n x lat).clk = w.clk := rfl
@[simp] theorem Warp.setS_start (w : Warp) (n : Nat) (x : Word) (lat : Nat) : (w.setS n x lat).start = w.start := rfl
@[simp] theorem Warp.setS_fFree (w : Warp) (n : Nat) (x : Word) (lat : Nat) : (w.setS n x lat).fFree = w.fFree := rfl
@[simp] theorem Warp.setS_marks (w : Warp) (n : Nat) (x : Word) (lat : Nat) : (w.setS n x lat).marks = (w.mark (.s n) (Lanes.all true) lat (Lanes.all (w.regs.sReg n))).marks := rfl
@[simp] theorem Warp.setS_loads (w : Warp) (n : Nat) (x : Word) (lat : Nat) : (w.setS n x lat).loads = w.loads := rfl
@[simp] theorem Warp.setS_nextLoad (w : Warp) (n : Nat) (x : Word) (lat : Nat) : (w.setS n x lat).nextLoad = w.nextLoad := rfl
@[simp] theorem Warp.setS_windows (w : Warp) (n : Nat) (x : Word) (lat : Nat) : (w.setS n x lat).windows = w.windows := rfl
@[simp] theorem Warp.setS_nextWindow (w : Warp) (n : Nat) (x : Word) (lat : Nat) : (w.setS n x lat).nextWindow = w.nextWindow := rfl
@[simp] theorem Warp.setS_streak (w : Warp) (n : Nat) (x : Word) (lat : Nat) : (w.setS n x lat).streak = w.streak := rfl
@[simp] theorem Warp.setS_nextSteady (w : Warp) (n : Nat) (x : Word) (lat : Nat) : (w.setS n x lat).nextSteady = w.nextSteady := rfl
@[simp] theorem Warp.setS_guard (w : Warp) (n : Nat) (x : Word) (lat : Nat) : (w.setS n x lat).guard = w.guard := rfl
@[simp] theorem Warp.setS_pending (w : Warp) (n : Nat) (x : Word) (lat : Nat) : (w.setS n x lat).pending = w.pending := rfl
@[simp] theorem Warp.setS_wait (w : Warp) (n : Nat) (x : Word) (lat : Nat) : (w.setS n x lat).wait = w.wait := rfl
@[simp] theorem Warp.setS_halt (w : Warp) (n : Nat) (x : Word) (lat : Nat) : (w.setS n x lat).halt = w.halt := rfl
@[simp] theorem Warp.setS_pop (w : Warp) (n : Nat) (x : Word) (lat : Nat) : (w.setS n x lat).pop = w.pop := rfl
@[simp] theorem Warp.setS_since (w : Warp) (n : Nat) (x : Word) (lat : Nat) : (w.setS n x lat).since = w.since := rfl
@[simp] theorem Warp.setS_issues (w : Warp) (n : Nat) (x : Word) (lat : Nat) : (w.setS n x lat).issues = w.issues := rfl
@[simp] theorem Warp.setS_regrouped (w : Warp) (n : Nat) (x : Word) (lat : Nat) : (w.setS n x lat).regrouped = w.regrouped := rfl
@[simp] theorem Warp.setS_promoted (w : Warp) (n : Nat) (x : Word) (lat : Nat) : (w.setS n x lat).promoted = w.promoted := rfl
@[simp] theorem Warp.setS_yielded (w : Warp) (n : Nat) (x : Word) (lat : Nat) : (w.setS n x lat).yielded = w.yielded := rfl
@[simp] theorem Warp.setS_waits (w : Warp) (n : Nat) (x : Word) (lat : Nat) : (w.setS n x lat).waits = w.waits := rfl
@[simp] theorem Warp.setS_urgent (w : Warp) (n : Nat) (x : Word) (lat : Nat) : (w.setS n x lat).urgent = w.urgent := rfl
@[simp] theorem Warp.setS_yieldClock (w : Warp) (n : Nat) (x : Word) (lat : Nat) : (w.setS n x lat).yieldClock = w.yieldClock := rfl
@[simp] theorem Warp.setS_triggered (w : Warp) (n : Nat) (x : Word) (lat : Nat) : (w.setS n x lat).triggered = w.triggered := rfl
@[simp] theorem Warp.setS_arrived (w : Warp) (n : Nat) (x : Word) (lat : Nat) : (w.setS n x lat).arrived = w.arrived := rfl
@[simp] theorem Warp.setS_laneArrived (w : Warp) (n : Nat) (x : Word) (lat : Nat) : (w.setS n x lat).laneArrived = w.laneArrived := rfl
@[simp] theorem Warp.setS_barred (w : Warp) (n : Nat) (x : Word) (lat : Nat) : (w.setS n x lat).barred = w.barred := rfl
@[simp] theorem Warp.setS_wasLive (w : Warp) (n : Nat) (x : Word) (lat : Nat) : (w.setS n x lat).wasLive = w.wasLive := rfl
@[simp] theorem Warp.setS_late (w : Warp) (n : Nat) (x : Word) (lat : Nat) : (w.setS n x lat).late = w.late := rfl
@[simp] theorem Warp.setS_arrivals (w : Warp) (n : Nat) (x : Word) (lat : Nat) : (w.setS n x lat).arrivals = w.arrivals := rfl
@[simp] theorem Warp.setS_crossed (w : Warp) (n : Nat) (x : Word) (lat : Nat) : (w.setS n x lat).crossed = w.crossed := rfl
@[simp] theorem Warp.setS_soft (w : Warp) (n : Nat) (x : Word) (lat : Nat) : (w.setS n x lat).soft = w.soft := rfl
@[simp] theorem Warp.setS_declares (w : Warp) (n : Nat) (x : Word) (lat : Nat) : (w.setS n x lat).declares = w.declares := rfl

/-! ### `Warp.shiftY` -/

@[simp] theorem Warp.shiftY_launch (w : Warp) (m : LaneSet) (f : Fin 32 → DWord) (lat : Nat) (load : Option Nat) : (w.shiftY m f lat load).launch = w.launch := rfl
@[simp] theorem Warp.shiftY_block (w : Warp) (m : LaneSet) (f : Fin 32 → DWord) (lat : Nat) (load : Option Nat) : (w.shiftY m f lat load).block = w.block := rfl
@[simp] theorem Warp.shiftY_index (w : Warp) (m : LaneSet) (f : Fin 32 → DWord) (lat : Nat) (load : Option Nat) : (w.shiftY m f lat load).index = w.index := rfl
@[simp] theorem Warp.shiftY_age (w : Warp) (m : LaneSet) (f : Fin 32 → DWord) (lat : Nat) (load : Option Nat) : (w.shiftY m f lat load).age = w.age := rfl
@[simp] theorem Warp.shiftY_ctx (w : Warp) (m : LaneSet) (f : Fin 32 → DWord) (lat : Nat) (load : Option Nat) : (w.shiftY m f lat load).ctx = w.ctx := rfl
@[simp] theorem Warp.shiftY_code (w : Warp) (m : LaneSet) (f : Fin 32 → DWord) (lat : Nat) (load : Option Nat) : (w.shiftY m f lat load).code = w.code := rfl
@[simp] theorem Warp.shiftY_regCount (w : Warp) (m : LaneSet) (f : Fin 32 → DWord) (lat : Nat) (load : Option Nat) : (w.shiftY m f lat load).regCount = w.regCount := rfl
@[simp] theorem Warp.shiftY_regs (w : Warp) (m : LaneSet) (f : Fin 32 → DWord) (lat : Nat) (load : Option Nat) : (w.shiftY m f lat load).regs = { w.regs with y := Lanes.write w.regs.y m fun l => yPush w.regs.y[l] (f l) (w.clk + lat) load w.sbchk } := rfl
@[simp] theorem Warp.shiftY_v (w : Warp) (m : LaneSet) (f : Fin 32 → DWord) (lat : Nat) (load : Option Nat) : (w.shiftY m f lat load).v = w.v := rfl
@[simp] theorem Warp.shiftY_acc (w : Warp) (m : LaneSet) (f : Fin 32 → DWord) (lat : Nat) (load : Option Nat) : (w.shiftY m f lat load).acc = w.acc := rfl
@[simp] theorem Warp.shiftY_trees (w : Warp) (m : LaneSet) (f : Fin 32 → DWord) (lat : Nat) (load : Option Nat) : (w.shiftY m f lat load).trees = w.trees := rfl
@[simp] theorem Warp.shiftY_sbchk (w : Warp) (m : LaneSet) (f : Fin 32 → DWord) (lat : Nat) (load : Option Nat) : (w.shiftY m f lat load).sbchk = w.sbchk := rfl
@[simp] theorem Warp.shiftY_super (w : Warp) (m : LaneSet) (f : Fin 32 → DWord) (lat : Nat) (load : Option Nat) : (w.shiftY m f lat load).super = w.super := rfl
@[simp] theorem Warp.shiftY_trapinfo (w : Warp) (m : LaneSet) (f : Fin 32 → DWord) (lat : Nat) (load : Option Nat) : (w.shiftY m f lat load).trapinfo = w.trapinfo := rfl
@[simp] theorem Warp.shiftY_rollbacks (w : Warp) (m : LaneSet) (f : Fin 32 → DWord) (lat : Nat) (load : Option Nat) : (w.shiftY m f lat load).rollbacks = w.rollbacks := rfl
@[simp] theorem Warp.shiftY_clk (w : Warp) (m : LaneSet) (f : Fin 32 → DWord) (lat : Nat) (load : Option Nat) : (w.shiftY m f lat load).clk = w.clk := rfl
@[simp] theorem Warp.shiftY_start (w : Warp) (m : LaneSet) (f : Fin 32 → DWord) (lat : Nat) (load : Option Nat) : (w.shiftY m f lat load).start = w.start := rfl
@[simp] theorem Warp.shiftY_fFree (w : Warp) (m : LaneSet) (f : Fin 32 → DWord) (lat : Nat) (load : Option Nat) : (w.shiftY m f lat load).fFree = w.fFree := rfl
@[simp] theorem Warp.shiftY_marks (w : Warp) (m : LaneSet) (f : Fin 32 → DWord) (lat : Nat) (load : Option Nat) : (w.shiftY m f lat load).marks = w.marks := rfl
@[simp] theorem Warp.shiftY_loads (w : Warp) (m : LaneSet) (f : Fin 32 → DWord) (lat : Nat) (load : Option Nat) : (w.shiftY m f lat load).loads = w.loads := rfl
@[simp] theorem Warp.shiftY_nextLoad (w : Warp) (m : LaneSet) (f : Fin 32 → DWord) (lat : Nat) (load : Option Nat) : (w.shiftY m f lat load).nextLoad = w.nextLoad := rfl
@[simp] theorem Warp.shiftY_windows (w : Warp) (m : LaneSet) (f : Fin 32 → DWord) (lat : Nat) (load : Option Nat) : (w.shiftY m f lat load).windows = w.windows := rfl
@[simp] theorem Warp.shiftY_nextWindow (w : Warp) (m : LaneSet) (f : Fin 32 → DWord) (lat : Nat) (load : Option Nat) : (w.shiftY m f lat load).nextWindow = w.nextWindow := rfl
@[simp] theorem Warp.shiftY_streak (w : Warp) (m : LaneSet) (f : Fin 32 → DWord) (lat : Nat) (load : Option Nat) : (w.shiftY m f lat load).streak = w.streak := rfl
@[simp] theorem Warp.shiftY_nextSteady (w : Warp) (m : LaneSet) (f : Fin 32 → DWord) (lat : Nat) (load : Option Nat) : (w.shiftY m f lat load).nextSteady = w.nextSteady := rfl
@[simp] theorem Warp.shiftY_guard (w : Warp) (m : LaneSet) (f : Fin 32 → DWord) (lat : Nat) (load : Option Nat) : (w.shiftY m f lat load).guard = w.guard := rfl
@[simp] theorem Warp.shiftY_pending (w : Warp) (m : LaneSet) (f : Fin 32 → DWord) (lat : Nat) (load : Option Nat) : (w.shiftY m f lat load).pending = w.pending := rfl
@[simp] theorem Warp.shiftY_wait (w : Warp) (m : LaneSet) (f : Fin 32 → DWord) (lat : Nat) (load : Option Nat) : (w.shiftY m f lat load).wait = w.wait := rfl
@[simp] theorem Warp.shiftY_halt (w : Warp) (m : LaneSet) (f : Fin 32 → DWord) (lat : Nat) (load : Option Nat) : (w.shiftY m f lat load).halt = w.halt := rfl
@[simp] theorem Warp.shiftY_pop (w : Warp) (m : LaneSet) (f : Fin 32 → DWord) (lat : Nat) (load : Option Nat) : (w.shiftY m f lat load).pop = w.pop := rfl
@[simp] theorem Warp.shiftY_since (w : Warp) (m : LaneSet) (f : Fin 32 → DWord) (lat : Nat) (load : Option Nat) : (w.shiftY m f lat load).since = w.since := rfl
@[simp] theorem Warp.shiftY_issues (w : Warp) (m : LaneSet) (f : Fin 32 → DWord) (lat : Nat) (load : Option Nat) : (w.shiftY m f lat load).issues = w.issues := rfl
@[simp] theorem Warp.shiftY_regrouped (w : Warp) (m : LaneSet) (f : Fin 32 → DWord) (lat : Nat) (load : Option Nat) : (w.shiftY m f lat load).regrouped = w.regrouped := rfl
@[simp] theorem Warp.shiftY_promoted (w : Warp) (m : LaneSet) (f : Fin 32 → DWord) (lat : Nat) (load : Option Nat) : (w.shiftY m f lat load).promoted = w.promoted := rfl
@[simp] theorem Warp.shiftY_yielded (w : Warp) (m : LaneSet) (f : Fin 32 → DWord) (lat : Nat) (load : Option Nat) : (w.shiftY m f lat load).yielded = w.yielded := rfl
@[simp] theorem Warp.shiftY_waits (w : Warp) (m : LaneSet) (f : Fin 32 → DWord) (lat : Nat) (load : Option Nat) : (w.shiftY m f lat load).waits = w.waits := rfl
@[simp] theorem Warp.shiftY_urgent (w : Warp) (m : LaneSet) (f : Fin 32 → DWord) (lat : Nat) (load : Option Nat) : (w.shiftY m f lat load).urgent = w.urgent := rfl
@[simp] theorem Warp.shiftY_yieldClock (w : Warp) (m : LaneSet) (f : Fin 32 → DWord) (lat : Nat) (load : Option Nat) : (w.shiftY m f lat load).yieldClock = w.yieldClock := rfl
@[simp] theorem Warp.shiftY_triggered (w : Warp) (m : LaneSet) (f : Fin 32 → DWord) (lat : Nat) (load : Option Nat) : (w.shiftY m f lat load).triggered = w.triggered := rfl
@[simp] theorem Warp.shiftY_arrived (w : Warp) (m : LaneSet) (f : Fin 32 → DWord) (lat : Nat) (load : Option Nat) : (w.shiftY m f lat load).arrived = w.arrived := rfl
@[simp] theorem Warp.shiftY_laneArrived (w : Warp) (m : LaneSet) (f : Fin 32 → DWord) (lat : Nat) (load : Option Nat) : (w.shiftY m f lat load).laneArrived = w.laneArrived := rfl
@[simp] theorem Warp.shiftY_barred (w : Warp) (m : LaneSet) (f : Fin 32 → DWord) (lat : Nat) (load : Option Nat) : (w.shiftY m f lat load).barred = w.barred := rfl
@[simp] theorem Warp.shiftY_wasLive (w : Warp) (m : LaneSet) (f : Fin 32 → DWord) (lat : Nat) (load : Option Nat) : (w.shiftY m f lat load).wasLive = w.wasLive := rfl
@[simp] theorem Warp.shiftY_late (w : Warp) (m : LaneSet) (f : Fin 32 → DWord) (lat : Nat) (load : Option Nat) : (w.shiftY m f lat load).late = w.late := rfl
@[simp] theorem Warp.shiftY_arrivals (w : Warp) (m : LaneSet) (f : Fin 32 → DWord) (lat : Nat) (load : Option Nat) : (w.shiftY m f lat load).arrivals = w.arrivals := rfl
@[simp] theorem Warp.shiftY_crossed (w : Warp) (m : LaneSet) (f : Fin 32 → DWord) (lat : Nat) (load : Option Nat) : (w.shiftY m f lat load).crossed = w.crossed := rfl
@[simp] theorem Warp.shiftY_soft (w : Warp) (m : LaneSet) (f : Fin 32 → DWord) (lat : Nat) (load : Option Nat) : (w.shiftY m f lat load).soft = w.soft := rfl
@[simp] theorem Warp.shiftY_declares (w : Warp) (m : LaneSet) (f : Fin 32 → DWord) (lat : Nat) (load : Option Nat) : (w.shiftY m f lat load).declares = w.declares := rfl

/-! ### `Warp.setPcs` -/

@[simp] theorem Warp.setPcs_launch (w : Warp) (m : LaneSet) (f : Fin 32 → Pc) : (w.setPcs m f).launch = w.launch := rfl
@[simp] theorem Warp.setPcs_block (w : Warp) (m : LaneSet) (f : Fin 32 → Pc) : (w.setPcs m f).block = w.block := rfl
@[simp] theorem Warp.setPcs_index (w : Warp) (m : LaneSet) (f : Fin 32 → Pc) : (w.setPcs m f).index = w.index := rfl
@[simp] theorem Warp.setPcs_age (w : Warp) (m : LaneSet) (f : Fin 32 → Pc) : (w.setPcs m f).age = w.age := rfl
@[simp] theorem Warp.setPcs_ctx (w : Warp) (m : LaneSet) (f : Fin 32 → Pc) : (w.setPcs m f).ctx = w.ctx := rfl
@[simp] theorem Warp.setPcs_code (w : Warp) (m : LaneSet) (f : Fin 32 → Pc) : (w.setPcs m f).code = w.code := rfl
@[simp] theorem Warp.setPcs_regCount (w : Warp) (m : LaneSet) (f : Fin 32 → Pc) : (w.setPcs m f).regCount = w.regCount := rfl
@[simp] theorem Warp.setPcs_regs (w : Warp) (m : LaneSet) (f : Fin 32 → Pc) : (w.setPcs m f).regs = { w.regs with threads := Lanes.write w.regs.threads m fun l => { (w.regs.threads[l]) with pc := f l } } := rfl
@[simp] theorem Warp.setPcs_v (w : Warp) (m : LaneSet) (f : Fin 32 → Pc) : (w.setPcs m f).v = w.v := rfl
@[simp] theorem Warp.setPcs_acc (w : Warp) (m : LaneSet) (f : Fin 32 → Pc) : (w.setPcs m f).acc = w.acc := rfl
@[simp] theorem Warp.setPcs_trees (w : Warp) (m : LaneSet) (f : Fin 32 → Pc) : (w.setPcs m f).trees = w.trees := rfl
@[simp] theorem Warp.setPcs_sbchk (w : Warp) (m : LaneSet) (f : Fin 32 → Pc) : (w.setPcs m f).sbchk = w.sbchk := rfl
@[simp] theorem Warp.setPcs_super (w : Warp) (m : LaneSet) (f : Fin 32 → Pc) : (w.setPcs m f).super = w.super := rfl
@[simp] theorem Warp.setPcs_trapinfo (w : Warp) (m : LaneSet) (f : Fin 32 → Pc) : (w.setPcs m f).trapinfo = w.trapinfo := rfl
@[simp] theorem Warp.setPcs_rollbacks (w : Warp) (m : LaneSet) (f : Fin 32 → Pc) : (w.setPcs m f).rollbacks = w.rollbacks := rfl
@[simp] theorem Warp.setPcs_clk (w : Warp) (m : LaneSet) (f : Fin 32 → Pc) : (w.setPcs m f).clk = w.clk := rfl
@[simp] theorem Warp.setPcs_start (w : Warp) (m : LaneSet) (f : Fin 32 → Pc) : (w.setPcs m f).start = w.start := rfl
@[simp] theorem Warp.setPcs_fFree (w : Warp) (m : LaneSet) (f : Fin 32 → Pc) : (w.setPcs m f).fFree = w.fFree := rfl
@[simp] theorem Warp.setPcs_marks (w : Warp) (m : LaneSet) (f : Fin 32 → Pc) : (w.setPcs m f).marks = w.marks := rfl
@[simp] theorem Warp.setPcs_loads (w : Warp) (m : LaneSet) (f : Fin 32 → Pc) : (w.setPcs m f).loads = w.loads := rfl
@[simp] theorem Warp.setPcs_nextLoad (w : Warp) (m : LaneSet) (f : Fin 32 → Pc) : (w.setPcs m f).nextLoad = w.nextLoad := rfl
@[simp] theorem Warp.setPcs_windows (w : Warp) (m : LaneSet) (f : Fin 32 → Pc) : (w.setPcs m f).windows = w.windows := rfl
@[simp] theorem Warp.setPcs_nextWindow (w : Warp) (m : LaneSet) (f : Fin 32 → Pc) : (w.setPcs m f).nextWindow = w.nextWindow := rfl
@[simp] theorem Warp.setPcs_streak (w : Warp) (m : LaneSet) (f : Fin 32 → Pc) : (w.setPcs m f).streak = w.streak := rfl
@[simp] theorem Warp.setPcs_nextSteady (w : Warp) (m : LaneSet) (f : Fin 32 → Pc) : (w.setPcs m f).nextSteady = w.nextSteady := rfl
@[simp] theorem Warp.setPcs_guard (w : Warp) (m : LaneSet) (f : Fin 32 → Pc) : (w.setPcs m f).guard = w.guard := rfl
@[simp] theorem Warp.setPcs_pending (w : Warp) (m : LaneSet) (f : Fin 32 → Pc) : (w.setPcs m f).pending = w.pending := rfl
@[simp] theorem Warp.setPcs_wait (w : Warp) (m : LaneSet) (f : Fin 32 → Pc) : (w.setPcs m f).wait = w.wait := rfl
@[simp] theorem Warp.setPcs_halt (w : Warp) (m : LaneSet) (f : Fin 32 → Pc) : (w.setPcs m f).halt = w.halt := rfl
@[simp] theorem Warp.setPcs_pop (w : Warp) (m : LaneSet) (f : Fin 32 → Pc) : (w.setPcs m f).pop = w.pop := rfl
@[simp] theorem Warp.setPcs_since (w : Warp) (m : LaneSet) (f : Fin 32 → Pc) : (w.setPcs m f).since = w.since := rfl
@[simp] theorem Warp.setPcs_issues (w : Warp) (m : LaneSet) (f : Fin 32 → Pc) : (w.setPcs m f).issues = w.issues := rfl
@[simp] theorem Warp.setPcs_regrouped (w : Warp) (m : LaneSet) (f : Fin 32 → Pc) : (w.setPcs m f).regrouped = w.regrouped := rfl
@[simp] theorem Warp.setPcs_promoted (w : Warp) (m : LaneSet) (f : Fin 32 → Pc) : (w.setPcs m f).promoted = w.promoted := rfl
@[simp] theorem Warp.setPcs_yielded (w : Warp) (m : LaneSet) (f : Fin 32 → Pc) : (w.setPcs m f).yielded = w.yielded := rfl
@[simp] theorem Warp.setPcs_waits (w : Warp) (m : LaneSet) (f : Fin 32 → Pc) : (w.setPcs m f).waits = w.waits := rfl
@[simp] theorem Warp.setPcs_urgent (w : Warp) (m : LaneSet) (f : Fin 32 → Pc) : (w.setPcs m f).urgent = w.urgent := rfl
@[simp] theorem Warp.setPcs_yieldClock (w : Warp) (m : LaneSet) (f : Fin 32 → Pc) : (w.setPcs m f).yieldClock = w.yieldClock := rfl
@[simp] theorem Warp.setPcs_triggered (w : Warp) (m : LaneSet) (f : Fin 32 → Pc) : (w.setPcs m f).triggered = w.triggered := rfl
@[simp] theorem Warp.setPcs_arrived (w : Warp) (m : LaneSet) (f : Fin 32 → Pc) : (w.setPcs m f).arrived = w.arrived := rfl
@[simp] theorem Warp.setPcs_laneArrived (w : Warp) (m : LaneSet) (f : Fin 32 → Pc) : (w.setPcs m f).laneArrived = w.laneArrived := rfl
@[simp] theorem Warp.setPcs_barred (w : Warp) (m : LaneSet) (f : Fin 32 → Pc) : (w.setPcs m f).barred = w.barred := rfl
@[simp] theorem Warp.setPcs_wasLive (w : Warp) (m : LaneSet) (f : Fin 32 → Pc) : (w.setPcs m f).wasLive = w.wasLive := rfl
@[simp] theorem Warp.setPcs_late (w : Warp) (m : LaneSet) (f : Fin 32 → Pc) : (w.setPcs m f).late = w.late := rfl
@[simp] theorem Warp.setPcs_arrivals (w : Warp) (m : LaneSet) (f : Fin 32 → Pc) : (w.setPcs m f).arrivals = w.arrivals := rfl
@[simp] theorem Warp.setPcs_crossed (w : Warp) (m : LaneSet) (f : Fin 32 → Pc) : (w.setPcs m f).crossed = w.crossed := rfl
@[simp] theorem Warp.setPcs_soft (w : Warp) (m : LaneSet) (f : Fin 32 → Pc) : (w.setPcs m f).soft = w.soft := rfl
@[simp] theorem Warp.setPcs_declares (w : Warp) (m : LaneSet) (f : Fin 32 → Pc) : (w.setPcs m f).declares = w.declares := rfl

/-! ### `Warp.addSticky` -/

@[simp] theorem Warp.addSticky_launch (w : Warp) (lat : Nat) (sat fflags : Word) : (w.addSticky lat sat fflags).launch = w.launch := rfl
@[simp] theorem Warp.addSticky_block (w : Warp) (lat : Nat) (sat fflags : Word) : (w.addSticky lat sat fflags).block = w.block := rfl
@[simp] theorem Warp.addSticky_index (w : Warp) (lat : Nat) (sat fflags : Word) : (w.addSticky lat sat fflags).index = w.index := rfl
@[simp] theorem Warp.addSticky_age (w : Warp) (lat : Nat) (sat fflags : Word) : (w.addSticky lat sat fflags).age = w.age := rfl
@[simp] theorem Warp.addSticky_ctx (w : Warp) (lat : Nat) (sat fflags : Word) : (w.addSticky lat sat fflags).ctx = w.ctx := rfl
@[simp] theorem Warp.addSticky_code (w : Warp) (lat : Nat) (sat fflags : Word) : (w.addSticky lat sat fflags).code = w.code := rfl
@[simp] theorem Warp.addSticky_regCount (w : Warp) (lat : Nat) (sat fflags : Word) : (w.addSticky lat sat fflags).regCount = w.regCount := rfl
@[simp] theorem Warp.addSticky_regs (w : Warp) (lat : Nat) (sat fflags : Word) : (w.addSticky lat sat fflags).regs = { w.regs with sticky := w.regs.sticky ++ [{ due := w.clk + lat, sat := sat, fflags := fflags }] } := rfl
@[simp] theorem Warp.addSticky_v (w : Warp) (lat : Nat) (sat fflags : Word) : (w.addSticky lat sat fflags).v = w.v := rfl
@[simp] theorem Warp.addSticky_acc (w : Warp) (lat : Nat) (sat fflags : Word) : (w.addSticky lat sat fflags).acc = w.acc := rfl
@[simp] theorem Warp.addSticky_trees (w : Warp) (lat : Nat) (sat fflags : Word) : (w.addSticky lat sat fflags).trees = w.trees := rfl
@[simp] theorem Warp.addSticky_sbchk (w : Warp) (lat : Nat) (sat fflags : Word) : (w.addSticky lat sat fflags).sbchk = w.sbchk := rfl
@[simp] theorem Warp.addSticky_super (w : Warp) (lat : Nat) (sat fflags : Word) : (w.addSticky lat sat fflags).super = w.super := rfl
@[simp] theorem Warp.addSticky_trapinfo (w : Warp) (lat : Nat) (sat fflags : Word) : (w.addSticky lat sat fflags).trapinfo = w.trapinfo := rfl
@[simp] theorem Warp.addSticky_rollbacks (w : Warp) (lat : Nat) (sat fflags : Word) : (w.addSticky lat sat fflags).rollbacks = w.rollbacks := rfl
@[simp] theorem Warp.addSticky_clk (w : Warp) (lat : Nat) (sat fflags : Word) : (w.addSticky lat sat fflags).clk = w.clk := rfl
@[simp] theorem Warp.addSticky_start (w : Warp) (lat : Nat) (sat fflags : Word) : (w.addSticky lat sat fflags).start = w.start := rfl
@[simp] theorem Warp.addSticky_fFree (w : Warp) (lat : Nat) (sat fflags : Word) : (w.addSticky lat sat fflags).fFree = w.fFree := rfl
@[simp] theorem Warp.addSticky_marks (w : Warp) (lat : Nat) (sat fflags : Word) : (w.addSticky lat sat fflags).marks = w.marks := rfl
@[simp] theorem Warp.addSticky_loads (w : Warp) (lat : Nat) (sat fflags : Word) : (w.addSticky lat sat fflags).loads = w.loads := rfl
@[simp] theorem Warp.addSticky_nextLoad (w : Warp) (lat : Nat) (sat fflags : Word) : (w.addSticky lat sat fflags).nextLoad = w.nextLoad := rfl
@[simp] theorem Warp.addSticky_windows (w : Warp) (lat : Nat) (sat fflags : Word) : (w.addSticky lat sat fflags).windows = w.windows := rfl
@[simp] theorem Warp.addSticky_nextWindow (w : Warp) (lat : Nat) (sat fflags : Word) : (w.addSticky lat sat fflags).nextWindow = w.nextWindow := rfl
@[simp] theorem Warp.addSticky_streak (w : Warp) (lat : Nat) (sat fflags : Word) : (w.addSticky lat sat fflags).streak = w.streak := rfl
@[simp] theorem Warp.addSticky_nextSteady (w : Warp) (lat : Nat) (sat fflags : Word) : (w.addSticky lat sat fflags).nextSteady = w.nextSteady := rfl
@[simp] theorem Warp.addSticky_guard (w : Warp) (lat : Nat) (sat fflags : Word) : (w.addSticky lat sat fflags).guard = w.guard := rfl
@[simp] theorem Warp.addSticky_pending (w : Warp) (lat : Nat) (sat fflags : Word) : (w.addSticky lat sat fflags).pending = w.pending := rfl
@[simp] theorem Warp.addSticky_wait (w : Warp) (lat : Nat) (sat fflags : Word) : (w.addSticky lat sat fflags).wait = w.wait := rfl
@[simp] theorem Warp.addSticky_halt (w : Warp) (lat : Nat) (sat fflags : Word) : (w.addSticky lat sat fflags).halt = w.halt := rfl
@[simp] theorem Warp.addSticky_pop (w : Warp) (lat : Nat) (sat fflags : Word) : (w.addSticky lat sat fflags).pop = w.pop := rfl
@[simp] theorem Warp.addSticky_since (w : Warp) (lat : Nat) (sat fflags : Word) : (w.addSticky lat sat fflags).since = w.since := rfl
@[simp] theorem Warp.addSticky_issues (w : Warp) (lat : Nat) (sat fflags : Word) : (w.addSticky lat sat fflags).issues = w.issues := rfl
@[simp] theorem Warp.addSticky_regrouped (w : Warp) (lat : Nat) (sat fflags : Word) : (w.addSticky lat sat fflags).regrouped = w.regrouped := rfl
@[simp] theorem Warp.addSticky_promoted (w : Warp) (lat : Nat) (sat fflags : Word) : (w.addSticky lat sat fflags).promoted = w.promoted := rfl
@[simp] theorem Warp.addSticky_yielded (w : Warp) (lat : Nat) (sat fflags : Word) : (w.addSticky lat sat fflags).yielded = w.yielded := rfl
@[simp] theorem Warp.addSticky_waits (w : Warp) (lat : Nat) (sat fflags : Word) : (w.addSticky lat sat fflags).waits = w.waits := rfl
@[simp] theorem Warp.addSticky_urgent (w : Warp) (lat : Nat) (sat fflags : Word) : (w.addSticky lat sat fflags).urgent = w.urgent := rfl
@[simp] theorem Warp.addSticky_yieldClock (w : Warp) (lat : Nat) (sat fflags : Word) : (w.addSticky lat sat fflags).yieldClock = w.yieldClock := rfl
@[simp] theorem Warp.addSticky_triggered (w : Warp) (lat : Nat) (sat fflags : Word) : (w.addSticky lat sat fflags).triggered = w.triggered := rfl
@[simp] theorem Warp.addSticky_arrived (w : Warp) (lat : Nat) (sat fflags : Word) : (w.addSticky lat sat fflags).arrived = w.arrived := rfl
@[simp] theorem Warp.addSticky_laneArrived (w : Warp) (lat : Nat) (sat fflags : Word) : (w.addSticky lat sat fflags).laneArrived = w.laneArrived := rfl
@[simp] theorem Warp.addSticky_barred (w : Warp) (lat : Nat) (sat fflags : Word) : (w.addSticky lat sat fflags).barred = w.barred := rfl
@[simp] theorem Warp.addSticky_wasLive (w : Warp) (lat : Nat) (sat fflags : Word) : (w.addSticky lat sat fflags).wasLive = w.wasLive := rfl
@[simp] theorem Warp.addSticky_late (w : Warp) (lat : Nat) (sat fflags : Word) : (w.addSticky lat sat fflags).late = w.late := rfl
@[simp] theorem Warp.addSticky_arrivals (w : Warp) (lat : Nat) (sat fflags : Word) : (w.addSticky lat sat fflags).arrivals = w.arrivals := rfl
@[simp] theorem Warp.addSticky_crossed (w : Warp) (lat : Nat) (sat fflags : Word) : (w.addSticky lat sat fflags).crossed = w.crossed := rfl
@[simp] theorem Warp.addSticky_soft (w : Warp) (lat : Nat) (sat fflags : Word) : (w.addSticky lat sat fflags).soft = w.soft := rfl
@[simp] theorem Warp.addSticky_declares (w : Warp) (lat : Nat) (sat fflags : Word) : (w.addSticky lat sat fflags).declares = w.declares := rfl

/-! ### `Warp.occupy` -/

@[simp] theorem Warp.occupy_launch (w : Warp) (extra : Nat) : (w.occupy extra).launch = w.launch := rfl
@[simp] theorem Warp.occupy_block (w : Warp) (extra : Nat) : (w.occupy extra).block = w.block := rfl
@[simp] theorem Warp.occupy_index (w : Warp) (extra : Nat) : (w.occupy extra).index = w.index := rfl
@[simp] theorem Warp.occupy_age (w : Warp) (extra : Nat) : (w.occupy extra).age = w.age := rfl
@[simp] theorem Warp.occupy_ctx (w : Warp) (extra : Nat) : (w.occupy extra).ctx = w.ctx := rfl
@[simp] theorem Warp.occupy_code (w : Warp) (extra : Nat) : (w.occupy extra).code = w.code := rfl
@[simp] theorem Warp.occupy_regCount (w : Warp) (extra : Nat) : (w.occupy extra).regCount = w.regCount := rfl
@[simp] theorem Warp.occupy_regs (w : Warp) (extra : Nat) : (w.occupy extra).regs = w.regs := rfl
@[simp] theorem Warp.occupy_v (w : Warp) (extra : Nat) : (w.occupy extra).v = w.v := rfl
@[simp] theorem Warp.occupy_acc (w : Warp) (extra : Nat) : (w.occupy extra).acc = w.acc := rfl
@[simp] theorem Warp.occupy_trees (w : Warp) (extra : Nat) : (w.occupy extra).trees = w.trees := rfl
@[simp] theorem Warp.occupy_sbchk (w : Warp) (extra : Nat) : (w.occupy extra).sbchk = w.sbchk := rfl
@[simp] theorem Warp.occupy_super (w : Warp) (extra : Nat) : (w.occupy extra).super = w.super := rfl
@[simp] theorem Warp.occupy_trapinfo (w : Warp) (extra : Nat) : (w.occupy extra).trapinfo = w.trapinfo := rfl
@[simp] theorem Warp.occupy_rollbacks (w : Warp) (extra : Nat) : (w.occupy extra).rollbacks = w.rollbacks := rfl
@[simp] theorem Warp.occupy_clk (w : Warp) (extra : Nat) : (w.occupy extra).clk = w.clk := rfl
@[simp] theorem Warp.occupy_start (w : Warp) (extra : Nat) : (w.occupy extra).start = w.start := rfl
@[simp] theorem Warp.occupy_fFree (w : Warp) (extra : Nat) : (w.occupy extra).fFree = w.clk + 1 + extra := rfl
@[simp] theorem Warp.occupy_marks (w : Warp) (extra : Nat) : (w.occupy extra).marks = w.marks := rfl
@[simp] theorem Warp.occupy_loads (w : Warp) (extra : Nat) : (w.occupy extra).loads = w.loads := rfl
@[simp] theorem Warp.occupy_nextLoad (w : Warp) (extra : Nat) : (w.occupy extra).nextLoad = w.nextLoad := rfl
@[simp] theorem Warp.occupy_windows (w : Warp) (extra : Nat) : (w.occupy extra).windows = w.windows := rfl
@[simp] theorem Warp.occupy_nextWindow (w : Warp) (extra : Nat) : (w.occupy extra).nextWindow = w.nextWindow := rfl
@[simp] theorem Warp.occupy_streak (w : Warp) (extra : Nat) : (w.occupy extra).streak = w.streak := rfl
@[simp] theorem Warp.occupy_nextSteady (w : Warp) (extra : Nat) : (w.occupy extra).nextSteady = w.nextSteady := rfl
@[simp] theorem Warp.occupy_guard (w : Warp) (extra : Nat) : (w.occupy extra).guard = w.guard := rfl
@[simp] theorem Warp.occupy_pending (w : Warp) (extra : Nat) : (w.occupy extra).pending = w.pending := rfl
@[simp] theorem Warp.occupy_wait (w : Warp) (extra : Nat) : (w.occupy extra).wait = w.wait := rfl
@[simp] theorem Warp.occupy_halt (w : Warp) (extra : Nat) : (w.occupy extra).halt = w.halt := rfl
@[simp] theorem Warp.occupy_pop (w : Warp) (extra : Nat) : (w.occupy extra).pop = w.pop := rfl
@[simp] theorem Warp.occupy_since (w : Warp) (extra : Nat) : (w.occupy extra).since = w.since := rfl
@[simp] theorem Warp.occupy_issues (w : Warp) (extra : Nat) : (w.occupy extra).issues = w.issues := rfl
@[simp] theorem Warp.occupy_regrouped (w : Warp) (extra : Nat) : (w.occupy extra).regrouped = w.regrouped := rfl
@[simp] theorem Warp.occupy_promoted (w : Warp) (extra : Nat) : (w.occupy extra).promoted = w.promoted := rfl
@[simp] theorem Warp.occupy_yielded (w : Warp) (extra : Nat) : (w.occupy extra).yielded = w.yielded := rfl
@[simp] theorem Warp.occupy_waits (w : Warp) (extra : Nat) : (w.occupy extra).waits = w.waits := rfl
@[simp] theorem Warp.occupy_urgent (w : Warp) (extra : Nat) : (w.occupy extra).urgent = w.urgent := rfl
@[simp] theorem Warp.occupy_yieldClock (w : Warp) (extra : Nat) : (w.occupy extra).yieldClock = w.yieldClock := rfl
@[simp] theorem Warp.occupy_triggered (w : Warp) (extra : Nat) : (w.occupy extra).triggered = w.triggered := rfl
@[simp] theorem Warp.occupy_arrived (w : Warp) (extra : Nat) : (w.occupy extra).arrived = w.arrived := rfl
@[simp] theorem Warp.occupy_laneArrived (w : Warp) (extra : Nat) : (w.occupy extra).laneArrived = w.laneArrived := rfl
@[simp] theorem Warp.occupy_barred (w : Warp) (extra : Nat) : (w.occupy extra).barred = w.barred := rfl
@[simp] theorem Warp.occupy_wasLive (w : Warp) (extra : Nat) : (w.occupy extra).wasLive = w.wasLive := rfl
@[simp] theorem Warp.occupy_late (w : Warp) (extra : Nat) : (w.occupy extra).late = w.late := rfl
@[simp] theorem Warp.occupy_arrivals (w : Warp) (extra : Nat) : (w.occupy extra).arrivals = w.arrivals := rfl
@[simp] theorem Warp.occupy_crossed (w : Warp) (extra : Nat) : (w.occupy extra).crossed = w.crossed := rfl
@[simp] theorem Warp.occupy_soft (w : Warp) (extra : Nat) : (w.occupy extra).soft = w.soft := rfl
@[simp] theorem Warp.occupy_declares (w : Warp) (extra : Nat) : (w.occupy extra).declares = w.declares := rfl

end Sys2Proof.Machine
end

