-- ==== Sys2Proof/Laws/Words.lean ====
section
/-! SUPPORT. One lemma for each shared operation of the words: what it does once a word is ready. -/
namespace Sys2Proof.Laws.Words
open Sys2Proof.Machine Sys2Proof.Safety

/-- A ready word executes: `withWord` hands over the warp, the issue and `active`. -/
theorem withWord_ready {i : Instr} {h : Hdr} {s : State} {cur : Cur} {w : Warp} {k : Warp → Cur → LaneSet → Res}
    (r : Ready i s cur w) : withWord i h s k = k w cur (cur.before.active h cur.lanes) := by
  have e := r.early
  simp only [readLanes] at e
  simp only [withWord, r.issue, r.warp, r.legal, r.file, e, r.loads]
  rfl

/-- A ready word that a window takes executes with the warp it is counted in. -/
theorem ordinary_opens {i : Instr} {h : Hdr} {acc : Nat} {vs : List Nat} {s : State} {cur : Cur} {w w1 : Warp}
    {k : Warp → Cur → LaneSet → Res} (r : Opens i acc vs s cur w w1) :
    ordinary i h acc vs s k = k w1 cur (cur.before.active h cur.lanes) := by
  simp only [ordinary, withWord_ready r.toReady, r.window]

/-- A ready word that no window takes waits: the warp issues it again (R316). -/
theorem ordinary_waits {i : Instr} {h : Hdr} {acc : Nat} {vs : List Nat} {s : State} {cur : Cur} {w : Warp}
    {k : Warp → Cur → LaneSet → Res} (r : Ready i s cur w) (n : w.inWindow cur.second acc vs = none) :
    ordinary i h acc vs s k = .next (s.holdWord cur w w.wait) := by
  simp only [ordinary, withWord_ready r, n]

/-- A register-only word that a window takes: its warp changes by `f`, its threads pass on. -/
theorem regWord_opens {i : Instr} {h : Hdr} {s : State} {vs : List Nat} {lits : Nat}
    {f : Warp → LaneSet → Warp → Warp} {cur : Cur} {w w1 : Warp} (r : Opens i 0 vs s cur w w1) :
    regWord i h s vs lits f = .next (s.setWarp cur.core cur.slot
      ((f cur.before (cur.before.active h cur.lanes) w1).advance cur.pc cur.lanes lits)) := by
  simp only [regWord, ordinary_opens r, finish]

/-- A register-only word that may trap, where it does not: its warp changes, its threads pass on. -/
theorem regWordT_ok {i : Instr} {h : Hdr} {s : State} {vs : List Nat}
    {f : Cur → LaneSet → Warp → Except Trap Warp} {cur : Cur} {w w1 w2 : Warp} (r : Opens i 0 vs s cur w w1)
    (e : f cur (cur.before.active h cur.lanes) w1 = .ok w2) :
    regWordT i h s vs f = .next (passOn s cur w2) := by
  simp only [regWordT, ordinary_opens r, e, finish, passOn]

/-- A register-only word that may trap, where it does: the trap is raised with the word counted, nothing else written. -/
theorem regWordT_error {i : Instr} {h : Hdr} {s : State} {vs : List Nat}
    {f : Cur → LaneSet → Warp → Except Trap Warp} {cur : Cur} {w w1 : Warp} {t : Trap} (r : Opens i 0 vs s cur w w1)
    (e : f cur (cur.before.active h cur.lanes) w1 = .error t) :
    regWordT i h s vs f = .next ((s.setWarp cur.core cur.slot w1).raise cur (cur.before.active h cur.lanes) t) := by
  simp only [regWordT, ordinary_opens r, e]

/-- A warp-scope word acts for the lowest lane of `active` (R132). -/
theorem warpScope_opens {i : Instr} {h : Hdr} {s : State} {f : Warp → Fin 32 → Warp → Warp} {cur : Cur} {w w1 : Warp}
    (r : Opens i 0 [] s cur w w1) :
    warpScope i h s f = .next (passOn s cur (match LaneSet.lowest (cur.before.active h cur.lanes) with
      | none => w1
      | some l => f cur.before l w1)) := by
  rw [warpScope, regWord_opens r]
  rfl

/-- An irrevocable word at its commit point acts. -/
theorem irrevocable_commits {i : Instr} {h : Hdr} {s : State} {cur : Cur} {w : Warp} {k : Warp → Cur → LaneSet → Res}
    (r : Commits i h s cur w) : irrevocable i h s k = k w cur (cur.before.active h cur.lanes) := by
  simp [irrevocable, withWord_ready r.toReady, r.some_lane, Warp.atCommit, r.committed, r.performed]

/-- An irrevocable word that no lane executes passes on (R93). -/
theorem irrevocable_empty {i : Instr} {h : Hdr} {s : State} {cur : Cur} {w w1 : Warp} {k : Warp → Cur → LaneSet → Res}
    (r : Opens i 0 [] s cur w w1) (n : LaneSet.any (cur.before.active h cur.lanes) = false) :
    irrevocable i h s k = .next (passOn s cur w1) := by
  simp only [irrevocable, withWord_ready r.toReady, n, r.window, finish, passOn]
  rfl

/-- An irrevocable word with an uncommitted window closes it and waits for the commit point (R93, R329). -/
theorem irrevocable_waits {i : Instr} {h : Hdr} {s : State} {cur : Cur} {w : Warp} {k : Warp → Cur → LaneSet → Res}
    (r : Ready i s cur w) (a : LaneSet.any (cur.before.active h cur.lanes) = true) (n : w.windows ≠ []) :
    irrevocable i h s k = .next (s.holdWord cur w.closeOpen (some .commit)) := by
  have e : w.atCommit = false := by simp [Warp.atCommit, n]
  simp [irrevocable, withWord_ready r, a, e]

/-- The warp of a word done is the one in its slot. -/
@[simp] theorem warp_setWarp (s : State) (core slot : Nat) (w : Warp) : (s.setWarp core slot w).warp core slot = some w :=
  SMap.get?_put_self _ _ _

end Sys2Proof.Laws.Words
end

