-- ==== Sys2Proof/Tests/Slice0.lean ====
section
/-! SUPPORT. Tests: words written out from their encodings, ill-formed instructions refused, single steps on a small state, and
for every statement with hypotheses a state and operands that meet them. -/
namespace Sys2Proof.Tests
set_option Elab.async false
open Sys2Proof Sys2Proof.Machine Sys2Proof.Safety Sys2Proof.Claims

/-! ### A small state -/

/-- A word without guard, chain bit or stall. -/
def plain : Hdr := ⟨false, none, 0⟩

/-- Lane numbers as register content. -/
def laneNumbers : Lanes Word := Lanes.ofFn fun l => BitVec.ofNat 32 l.val

/-- The registers of the probe: `q1` the lane numbers, `q2` 5, `q3` −3, `q4:q5` and `q6:q7` the FP64 1.0 and 2.0, `q8:q9` the
address 0x20000, `q10` and `q11` the FP32 1.5 and 2.5, `q12` 64, `q13` 0; `p3` true in the even lanes; `s4` 0x11111111, `s5` 3. -/
def probeRegs (r : Regs) : Regs :=
  { r with
    q := [(0, Lanes.all 7), (1, laneNumbers), (2, Lanes.all 5), (3, Lanes.all (-3)), (4, Lanes.all 0), (5, Lanes.all 0x3FF00000),
      (6, Lanes.all 0), (7, Lanes.all 0x40000000), (8, Lanes.all 0x20000), (9, Lanes.all 0), (10, Lanes.all 0x3FC00000),
      (11, Lanes.all 0x40200000), (12, Lanes.all 64), (13, Lanes.all 0), (14, Lanes.all 0), (15, Lanes.all 0)]
    p := [(3, Lanes.ofFn fun l => l.val % 2 = 0)]
    s := [(4, 0x11111111), (5, 3)] ++ r.s.filter fun e => 5 < e.1 }

/-- A warp in slot 0 of core 0 with the probe's registers. -/
def probe : Warp :=
  let w := newWarp (bootLaunch 0) 0 0 0 0 0 0
  { w with regs := probeRegs w.regs, regCount := 128 }

/-- The issue of a word of `w` in the lanes of `m`, at word 0 of packet 0. -/
def issueBy (w : Warp) (m : LaneSet) : Cur :=
  { core := 0, slot := 0, pc := { packet := 0, word := 0 }, lanes := m, before := w, second := false, ended := .done }

/-- Every lane. -/
def every : LaneSet := Lanes.all true

/-- The device while `w` issues a word in the lanes of `m`; its block has 64 KiB of scratchpad. -/
def issuing (w : Warp) (m : LaneSet := every) : State :=
  { State.reset.withCode [] with
    agenda := [], warps := [(0, w)], blocks := [(0, { bootBlock with size := 65536 })], cur := some (issueBy w m) }

/-- The warp after a word that has taken effect. -/
def after (i : Instr) (s : State := issuing probe) : Option Warp :=
  match exec i s with
  | .next t => if t.ended = .done then t.warp 0 0 else none
  | _ => none

/-- The state after a word or a step, if there is one. -/
def stepped (i : Instr) (s : State := issuing probe) : Option State :=
  match exec i s with
  | .next t => some t
  | _ => none

/-- `q`n in lane `l` after a word. -/
def qAfter (i : Instr) (n : Nat) (l : Fin 32) (s : State := issuing probe) : Option Word := (after i s).map fun w => (w.regs.qRow n)[l]

/-- The checks of `Ready` as one value. -/
def readyB (i : Instr) (w : Warp) (m : LaneSet := every) : Bool :=
  i.wellFormed && !beyondFile i w.regCount && w.stallShort i (readLanes i m) == none && !w.heldByLoad i

/-- The checks of `Opens` as one value. -/
def opensB (i : Instr) (acc : Nat := 0) (vs : List Nat := []) (w : Warp := probe) (m : LaneSet := every) : Bool :=
  readyB i w m && (w.inWindow false acc vs).isSome

theorem ready_of {i : Instr} {w : Warp} {m : LaneSet} (h : readyB i w m = true) : Ready i (issuing w m) (issueBy w m) w := by
  simp only [readyB, Bool.and_eq_true, Bool.not_eq_true', beq_iff_eq] at h
  obtain ⟨⟨⟨a, b⟩, c⟩, d⟩ := h
  exact ⟨rfl, rfl, a, b, c, d⟩

/-- What `opensB` says of an issue of the probe. -/
theorem opens_of {i : Instr} {acc : Nat} {vs : List Nat} {w : Warp} {m : LaneSet} (h : opensB i acc vs w m = true) :
    ∃ w1, Opens i acc vs (issuing w m) (issueBy w m) w w1 := by
  simp only [opensB, Bool.and_eq_true] at h
  obtain ⟨w1, e⟩ := Option.isSome_iff_exists.mp h.2
  exact ⟨w1, ready_of h.1, e⟩

/-! ### Words of one literal or two, and ill-formed instructions -/

/-- `LIT q4` with its literal (05_encoding.md, worked packet) and `LIT2 q4:q5`, low word first; without room for the literal they are no
instructions (R108). -/
theorem test_decode_literals :
    (decode [0x00762000, 0x08000040]).toOption = some (.lit plain (.q 4) 0x08000040) ∧
    (decode [0x00772000, 0x11111111, 0x22222222]).toOption = some (.lit2 plain (.q 4) 0x2222222211111111) ∧
    (decode [0x00762000]).toOption = none ∧ (decode [0x00772000, 1]).toOption = none := by decide +kernel

/-- For each check of item 4 of R124 an instruction that fails it: destinations and wide sources outside their roles, then the modes
of R113 to R119, R192 to R196 and R225. -/
theorem test_ill_formed_refused : ∀ i ∈ ([
    .iadd plain (.y 0) (.q 1) (.q 2), .faddF64 plain (.q 3) (.q 4) (.q 6), .ldB128 plain (.q 2) (.q 8) 0,
    .cas plain (.q 4) 0 2, .faddF64 plain (.q 2) (.q 5) (.q 6), .faddF64 plain (.q 2) (.k 0) (.q 6), .stB128 plain (.q 2) (.q 8) 0,
    .frndF32 plain (.q 0) (.q 1) (.q 2), .fcvtd plain (.q 0) (.q 1) 0, .get2 plain 1 (.q 2), .put2 plain 3 (.q 2),
    .bar plain 0 4 0, .bar plain 7 4 0, .bar plain 1 4 3, .bar plain 2 5 0, .settile plain 0, .settile plain 6,
    .getsr plain (.q 0) 24, .getsr plain (.q 1) 19, .setsr plain (.q 0) 8, .setsr plain (.q 0) 15, .setsr plain (.q 0) 24,
    .peers plain (.q 0) (.q 1) 2, .mma plain 0 5 0 1, .mma plain 1 4 0 1, .mmas plain 0 7 0 1, .mst plain 0 3 false (.q 0),
    .mst plain 0 0 true (.q 0), .sweep plain 0 0 1 2, .pref plain (.q 8) 1 3, .atomIadd plain (.q 0) 12 0,
    .atomIadd plain (.q 0) 4 2, .atomImin plain (.q 0) 4 4, .atomImax plain (.q 0) 15 0, .atomLogic plain (.q 0) 4 6,
    .atomXchg plain (.q 0) 4 7, .atomFmin plain (.q 0) 4 4, .atomFmax plain (.q 1) 4 3, .cas plain (.q 0) 4 3] : List Instr),
    i.wellFormed = false := by decide +kernel

/-- An instruction of each of those kinds that passes. -/
theorem test_well_formed_accepted : ∀ i ∈ ([
    .iadd plain (.q 15) (.y 3) (.k 3), .faddF64 plain (.q 14) (.s 6) (.q 6), .ldB128 plain (.q 12) (.q 8) 0, .cas plain (.q 8) 11 2,
    .frndF32 plain (.q 0) (.q 1) (.k 3), .fcvtd plain (.q 0) (.q 2) 8, .get2 plain 126 (.q 2), .bar plain 6 31 2,
    .bar plain 2 4 0, .settile plain 1, .settile plain 5, .getsr plain (.q 0) 23, .setsr plain (.q 0) 21, .mma plain 2 4 0 1,
    .mst plain 0 2 true (.q 0), .sweep plain 5 0 1 2, .pref plain (.q 8) 31 2, .atomLogic plain (.q 0) 11 5] : List Instr),
    i.wellFormed = true := by decide +kernel

/-- A register beyond the warp's file fails its check (R124): `v127` of a warp with 64 registers. -/
theorem test_beyond_file : beyondFile (.get plain 127 (.q 0)) 64 = true ∧ beyondFile (.get plain 63 (.q 0)) 64 = false := by
  decide +kernel
/-! ### Words that the manual spells out -/

/-- The encodings that the manual prints beside its examples (05 to 13 of spec/). -/
theorem test_printed_words : ∀ r ∈ ([
    (0x00019043, .ffmaF32 plain (.q 4) (.q 2) (.q 3)), (0x00000801, .faddF32 plain (.q 2) (.q 0) (.q 1)),
    (0x00A018DD, .iadd ⟨false, none, 1⟩ (.q 6) (.q 6) (.k 1)), (0x00190443, .fcmpLtF32 plain false 1 (.q 2) (.q 3)),
    (0x006F1204, .contribF32 plain (.q 2) (.q 8) false (.q 4)), (0x007C0000, .nop plain), (0x00789820, .loop plain 3 2),
    (0x007CF180, .getsr plain (.q 3) 0), (0x007C1000, .exit plain), (0x007C5000, .yield plain),
    (0x001C0885, .icmpLtI32 plain false 2 (.q 4) (.q 5)), (0x001C4885, .icmpLtI32 plain true 2 (.q 4) (.q 5)),
    (0x003F8C22, .plopAndn plain 3 1 2), (0x00101002, .faddF64 plain (.q 4) (.q 0) (.q 2)), (0x00141050, .fcvt plain (.q 4) (.q 2) 16),
    (0x00388C5D, .xlaneShift plain (.q 3) (.q 2) (.k 1)), (0x00388C5E, .xlaneShift plain (.q 3) (.q 2) (.k 2)),
    (0x00390C5D, .xlaneRot plain (.q 3) (.q 2) (.k 1)), (0x00398C5D, .xlaneBfly plain (.q 3) (.q 2) (.k 1)),
    (0x00404440, .get plain 17 (.q 2)), (0x00424440, .put plain 17 (.q 2)), (0x00485043, .vfmaF32 plain 20 (.q 2) (.q 3)),
    (0x004E5040, .vswap plain 20 (.q 2)), (0x007D8400, .rdecl plain (.q 8)), (0x007C8400, .launch plain (.q 8)),
    (0x007C6481, .bar plain 2 8 1), (0x007C6630, .bar plain 3 3 0), (0x007C6480, .bar plain 2 8 0), (0x007CD003, .settile plain 3),
    (0x007D9120, .kset plain 1 (.q 4)), (0x007DA128, .kwait plain 1 (.q 5)), (0x007DB100, .krel plain 1),
    (0x007DC100, .kprod plain 1), (0x007DD120, .kroom plain 1 (.q 4)), (0x0015190A, .cpy plain (.q 6) (.q 8) (.q 10)),
    (0x0015990C, .gath plain (.q 6) (.q 8) (.q 12)), (0x0016190C, .scat plain (.q 6) (.q 8) (.q 12)),
    (0x0016990B, .cpym plain (.q 6) (.q 8) (.q 11)), (0x007DE005, .qfence plain 5), (0x007DF002, .drain plain 2),
    (0x007E0000, .mbegin plain 0), (0x007E1000, .mend plain 0), (0x007E2025, .mma plain 0 0 4 5), (0x007E3465, .mmas plain 2 1 4 5),
    (0x007E4000, .mzero plain 0), (0x007E50C8, .mst plain 0 1 true (.q 4)), (0x007E620C, .mld plain 1 (.q 6)),
    (0x007E7108, .mcontrib plain 0 4 (.q 4)), (0x007E8480, .itset plain 2 (.q 8)), (0x007E9281, .sweep plain 1 2 0 1),
    (0x007F6320, .gemvn plain (.q 6) (.q 8)), (0x007F7320, .coll plain (.q 6) (.q 8)), (0x007F8005, .snap plain 5),
    (0x007C9012, .trap plain 0x12), (0x007CA003, .svc plain 3), (0x007CB000, .rft plain),
    (0x00ACA6A0, .mov ⟨false, none, 1⟩ (.q 9) (.s 1)), (0x00622201, .ldB128 plain (.q 4) (.q 8) 1), (0x007D139C, .sget plain 7 (.q 7)),
    (0x00AEA904, .iadd64 ⟨false, none, 1⟩ (.q 10) (.q 8) (.q 4)), (0x006002B0, .ldB32 plain (.q 0) (.q 10) (-16)),
    (0x00328814, .pdot2sI16x2 plain (.q 2) (.q 0) (.s 0)), (0x00BA801C, .slideUp ⟨false, none, 1⟩ (.q 0) (.q 0) (.k 0)),
    (0x00B48C67, .shrrsI16 ⟨false, none, 1⟩ (.q 3) (.q 3) (.q 7)), (0x00B51062, .packB16 ⟨false, none, 1⟩ (.q 4) (.q 3) (.q 2)),
    (0x00FCF289, .getsr ⟨false, none, 1⟩ (.q 5) 9), (0x00652290, .stB32 plain (.q 4) (.q 10) 16), (0x00F03A00, .movi ⟨false, none, 1⟩ (.q 7) 512),
    (0x007D038C, .setsr plain (.q 7) 12), (0x00F13801, .addi ⟨false, none, 1⟩ (.q 7) 1), (0x007D0E0C, .setsr plain (.k 0) 12),
    (0x007CF613, .getsr plain (.q 12) 19), (0x001B841E, .icmpNeI32 plain false 1 (.q 0) (.k 2))] : List (Word × Instr)),
    (decode [r.1]).toOption = some r.2 := by decide +kernel

/-! ### Results that the manual prints, and a few by hand -/

/-- The probe with other words in some `q` registers, the same in every lane. -/
def having (qs : List (Nat × Word)) : State :=
  issuing { probe with regs := { probe.regs with q := qs.foldl (fun m e => SMap.put m e.1 (Lanes.all e.2)) probe.regs.q } }

/-- `sr.sat` and `sr.fflags` once everything has arrived. -/
def flagsAfter (i : Instr) (s : State) : Option (Word × Word) := (after i s).map fun w => ((w.regs.settle 100).sat, (w.regs.settle 100).fflags)

/-- `BFE`, `BMIX`, `CLZ` of 07_control_integer.md. -/
theorem test_bit_words :
    qAfter (.bfe plain (.q 4) (.q 2) (.q 3)) 4 0 (having [(2, 0xF30), (3, 0x8604)]) = some 0xFFFFFFF3 ∧
    qAfter (.bfe plain (.q 4) (.q 2) (.q 3)) 4 9 (having [(2, 0xF30), (3, 0x0604)]) = some 0x33 ∧
    qAfter (.bmix plain (.q 4) (.q 2) (.q 3)) 4 0 (having [(2, 0x44332211), (3, 0x88776655), (4, 0x790E0)]) = some 0xFF558811 ∧
    qAfter (.bmix plain (.q 4) (.q 2) (.q 3)) 4 0 (having [(2, 0x44332211), (3, 0x88776655), (4, 0x20230)]) = some 0x5511FF00 ∧
    qAfter (.clz plain (.q 4) (.q 2)) 4 0 (having [(2, 0xF30)]) = some 0x14 := by decide +kernel

/-- `IMULH`, `SAR` and `ROTL` at their edges, by hand from R149: the high half of −1 × −1 signed and unsigned, a shift by 32. -/
theorem test_integer_edges :
    qAfter (.imulhI32 plain (.q 0) (.q 2) (.q 2)) 0 0 (having [(2, -1)]) = some 0 ∧
    qAfter (.imulhN32 plain (.q 0) (.q 2) (.q 2)) 0 0 (having [(2, -1)]) = some 0xFFFFFFFE ∧
    qAfter (.sar plain (.q 0) (.q 2) (.q 3)) 0 0 (having [(2, 0x80000000), (3, 32)]) = some 0xFFFFFFFF ∧
    qAfter (.shl plain (.q 0) (.q 2) (.q 3)) 0 0 (having [(2, 1), (3, 32)]) = some 0 ∧
    qAfter (.rotl plain (.q 0) (.q 2) (.q 3)) 0 0 (having [(2, 0x80000001), (3, 33)]) = some 3 ∧
    qAfter (.iabs plain (.q 0) (.q 2)) 0 0 (having [(2, 0x80000000)]) = some 0x80000000 ∧
    qAfter (.iadd plain (.q 1) (.q 1) (.k 1)) 1 31 = some 32 := by decide +kernel

/-- The saturating words of 08_float_lanes.md, with bit l of `sr.sat`. -/
theorem test_saturating_words :
    qAfter (.pdot2I16x2 plain (.q 4) (.q 2) (.q 3)) 4 0 (having [(2, 0x7FFF7FFF), (3, 0x7FFF7FFF), (4, 0x7FFFFFFF)]) = some 0xFFFE0001 ∧
    qAfter (.pdot2sI16x2 plain (.q 4) (.q 2) (.q 3)) 4 0 (having [(2, 0x7FFF7FFF), (3, 0x7FFF7FFF), (4, 0x7FFFFFFF)]) = some 0x7FFFFFFF ∧
    flagsAfter (.pdot2sI16x2 plain (.q 4) (.q 2) (.q 3)) (having [(2, 0x7FFF7FFF), (3, 0x7FFF7FFF), (4, 0x7FFFFFFF)]) = some (-1, 0) ∧
    qAfter (.sataddI16x2 plain (.q 4) (.q 2) (.q 3)) 4 0 (having [(2, 0x7FF00001), (3, 0x0020FFFE)]) = some 0x7FFFFFFF ∧
    qAfter (.shrrI32 plain (.q 4) (.q 2) (.q 3)) 4 0 (having [(2, 0x12345), (3, 4)]) = some 0x1234 ∧
    qAfter (.shrrsI16 plain (.q 4) (.q 2) (.q 3)) 4 0 (having [(2, 0x12345), (3, 1)]) = some 0x7FFF ∧
    qAfter (.shrrsI16 plain (.q 4) (.q 2) (.q 3)) 4 0 (having [(2, 0xFFFFFFFB), (3, 1)]) = some 0xFFFFFFFE ∧
    flagsAfter (.shrrsI16 plain (.q 4) (.q 2) (.q 3)) (having [(2, 0xFFFFFFFB), (3, 1)]) = some (0, 0) := by decide +kernel

/-- The conversions of 08_float_lanes.md with their flags (nx is bit 0, nv bit 4), and the dither example of 03_numbers.md. -/
theorem test_conversions :
    qAfter (.fcvt plain (.q 4) (.q 2) 1) 4 0 (having [(2, 0xC0200000)]) = some 0xFFFFFFFE ∧
    qAfter (.fcvt plain (.q 4) (.q 2) 0) 4 0 (having [(2, 0x40200000)]) = some 2 ∧
    qAfter (.fcvt plain (.q 4) (.q 2) 0) 4 0 (having [(2, 0x4F32D05E)]) = some 0x7FFFFFFF ∧
    (flagsAfter (.fcvt plain (.q 4) (.q 2) 0) (having [(2, 0x4F32D05E)])).map (·.1) = some (-1) ∧
    qAfter (.fcvt plain (.q 4) (.q 2) 16) 4 0 (having [(2, 0x3F808000), (3, 0x3F818000)]) = some 0x3F823F80 ∧
    qAfter (.fcvt plain (.q 4) (.q 2) 28) 4 0 (having [(2, 0x7E013C00)]) = some 0x3F800000 ∧
    qAfter (.fcvt plain (.q 4) (.q 2) 28) 5 0 (having [(2, 0x7E013C00)]) = some 0x7FC00000 ∧
    (qAfter (.fcvtd plain (.q 4) (.q 2) 16) 4 2 (having [(2, 0x3F804000), (3, 0x3F804000)])).map (fun (x : Word) => x >>> 16) = some 0x3F80 ∧
    (qAfter (.fcvtd plain (.q 4) (.q 2) 16) 4 8 (having [(2, 0x3F804000), (3, 0x3F804000)])).map (fun (x : Word) => x &&& 0xFFFF) = some 0x3F81 := by
  decide +kernel

/-- Sums and products by hand: 1.5 + 2.5 = 4; 1 + 2^−24 ties to even; the largest FP32 doubles to +∞; FP64 1 + 2 = 3; −0 is the
smaller zero. -/
theorem test_float_words :
    qAfter (.faddF32 plain (.q 0) (.q 10) (.q 11)) 0 0 = some 0x40800000 ∧
    qAfter (.faddF32 plain (.q 0) (.q 2) (.q 3)) 0 0 (having [(2, 0x3F800000), (3, 0x33800000)]) = some 0x3F800000 ∧
    qAfter (.faddF32 plain (.q 0) (.q 2) (.q 2)) 0 0 (having [(2, 0x7F7FFFFF)]) = some 0x7F800000 ∧
    qAfter (.ffmaF32 plain (.q 0) (.q 10) (.q 11)) 0 0 (having [(0, 0x3F800000)]) = some 0x40980000 ∧
    qAfter (.faddF64 plain (.q 0) (.q 4) (.q 6)) 1 0 = some 0x40080000 ∧
    qAfter (.fminF32 plain (.q 0) (.q 2) (.q 3)) 0 0 (having [(2, 0), (3, 0x80000000)]) = some 0x80000000 ∧
    qAfter (.fsqrtF32 plain (.q 0) (.q 2)) 0 0 (having [(2, 0x40800000)]) = some 0x40000000 := by decide +kernel

/-- `XLANE`, `SCAN`, `SLIDE` and `WRED.fadd` of 08_float_lanes.md in tiles of 4 lanes. -/
theorem test_lane_words :
    let tiled := fun (q : Lanes Word) => issuing { probe with regs := { probe.regs with tile := 4, q := SMap.put probe.regs.q 2 q } }
    let s := tiled (Lanes.ofFn fun l => BitVec.ofNat 32 (10 + l.val % 4))
    let e := tiled (Lanes.ofFn fun l => BitVec.ofNat 16 (2 * (l.val % 4) + 2) ++ BitVec.ofNat 16 (2 * (l.val % 4) + 1))
    let f := tiled (Lanes.ofFn fun l => if l.val % 4 = 0 then 0x3F800000 else if l.val % 4 = 3 then 0xBF800000 else 0x33800000)
    let row := fun (i : Instr) (s : State) => [qAfter i 3 0 s, qAfter i 3 1 s, qAfter i 3 2 s, qAfter i 3 3 s]
    row (.xlaneShift plain (.q 3) (.q 2) (.k 1)) s = [some 10, some 10, some 11, some 12] ∧
    row (.xlaneShift plain (.q 3) (.q 2) (.k 2)) s = [some 11, some 12, some 13, some 13] ∧
    row (.xlaneRot plain (.q 3) (.q 2) (.k 1)) s = [some 13, some 10, some 11, some 12] ∧
    row (.xlaneBfly plain (.q 3) (.q 2) (.k 1)) s = [some 11, some 10, some 13, some 12] ∧
    row (.scanIadd plain (.q 3) (.q 2)) s = [some 10, some 21, some 33, some 46] ∧
    row (.slideUp plain (.q 3) (.q 2) (.k 0)) e = [some 0x00010000, some 0x00030002, some 0x00050004, some 0x00070006] ∧
    row (.wredFadd plain (.q 3) (.q 2)) f = [some 0x33800000, some 0x33800000, some 0x33800000, some 0x33800000] := by decide +kernel

/-- By hand (R109): a word that was 0, then 09 at its third byte, then 06, has had three values since its launch's start. -/
theorem test_words_since : wordsSince 8 [4, 5, 6, 7] [(8, [0, 0, 0, 0]), (10, [9])] = [[0, 0, 0, 0], [4, 5, 9, 7], [4, 5, 6, 7]] := by
  decide +kernel
/-- Float words (R156 to R170): each word is its row of the opcode table with the operand and header fields of its instruction set by hand. -/
theorem test_decode_float : ∀ r ∈ ([
    (0x81805443, .faddF32 ⟨true, none, 3⟩ (.s 1) (.q 2) (.q 3)),
    (0x44008DCE, .fsubF32 ⟨false, some (1, false), 0⟩ (.q 3) (.q 14) (.q 14)),
    (0x000149C2, .fmulF32 ⟨false, none, 0⟩ (.y 2) (.q 14) (.q 2)),
    (0x0001CE6D, .ffmaF32 ⟨false, none, 0⟩ (.y 3) (.y 3) (.q 13)),
    (0x00024B85, .fminF32 ⟨false, none, 0⟩ (.y 2) (.k 0) (.q 5)),
    (0xD102CB76, .fmaxF32 ⟨true, some (4, false), 2⟩ (.y 2) (.s 7) (.s 2)),
    (0x00833080, .fabsF32 ⟨false, none, 1⟩ (.q 12) (.q 4)),
    (0x0083C2C0, .fnegF32 ⟨false, none, 1⟩ (.y 0) (.s 2)),
    (0xFB04291A, .frndF32 ⟨true, some (14, true), 2⟩ (.q 10) (.q 8) (.s 6)),
    (0x0004CD51, .fscaleF32 ⟨false, none, 0⟩ (.y 3) (.q 10) (.y 1)),
    (0xFA051220, .frcpF32 ⟨true, some (14, true), 0⟩ (.q 4) (.y 1)),
    (0x810597C0, .frsqF32 ⟨true, none, 2⟩ (.q 5) (.k 2)),
    (0xC5062EE0, .fsqrtF32 ⟨true, some (1, false), 2⟩ (.q 11) (.s 3)),
    (0xF806FD20, .fex2F32 ⟨true, some (14, false), 0⟩ (.k 3) (.q 9)),
    (0x800762E0, .flg2F32 ⟨true, none, 0⟩ (.s 4) (.s 3)),
    (0xE70787E0, .fclassF32 ⟨true, some (9, true), 2⟩ (.q 1) (.k 3)),
    (0xD58808F9, .faddF16x2 ⟨true, some (5, false), 3⟩ (.q 2) (.q 7) (.s 5)),
    (0x8088B5BE, .fsubF16x2 ⟨true, none, 1⟩ (.q 13) (.q 13) (.k 2)),
    (0x80893DB2, .fmulF16x2 ⟨true, none, 1⟩ (.q 15) (.q 13) (.y 2)),
    (0x8189F249, .ffmaF16x2 ⟨true, none, 3⟩ (.k 0) (.y 2) (.q 9)),
    (0xF08A0CC5, .fminF16x2 ⟨true, some (12, false), 1⟩ (.q 3) (.q 6) (.q 5)),
    (0x000AC373, .fmaxF16x2 ⟨false, none, 0⟩ (.y 0) (.s 7) (.y 3)),
    (0x648B3A4C, .fdot2F16x2 ⟨false, some (9, false), 1⟩ (.q 14) (.y 2) (.q 12)),
    (0x800C3FBC, .faddBf16x2 ⟨true, none, 0⟩ (.q 15) (.k 1) (.k 0)),
    (0xF20CC2AD, .fsubBf16x2 ⟨true, some (12, true), 0⟩ (.y 0) (.s 1) (.q 13)),
    (0x000D1DE6, .fmulBf16x2 ⟨false, none, 0⟩ (.q 7) (.q 15) (.q 6)),
    (0x440DCCB2, .ffmaBf16x2 ⟨false, some (1, false), 0⟩ (.y 3) (.q 5) (.y 2)),
    (0x408E51A5, .fminBf16x2 ⟨false, some (0, false), 1⟩ (.s 0) (.q 13) (.q 5)),
    (0xEE0E9390, .fmaxBf16x2 ⟨true, some (11, true), 0⟩ (.q 4) (.k 0) (.y 0)),
    (0xFE0F1498, .fdot2Bf16x2 ⟨true, some (15, true), 0⟩ (.q 5) (.q 4) (.s 4)),
    (0xFC101FFF, .faddF64 ⟨true, some (15, false), 0⟩ (.q 7) (.k 3) (.k 3)),
    (0x8010E62A, .fsubF64 ⟨true, none, 0⟩ (.s 5) (.y 1) (.q 10)),
    (0x6D116512, .fmulF64 ⟨false, some (11, false), 2⟩ (.s 5) (.q 8) (.y 2)),
    (0x8091E91B, .ffmaF64 ⟨true, none, 1⟩ (.s 6) (.q 8) (.s 7)),
    (0x8092460C, .fminF64 ⟨true, none, 1⟩ (.y 1) (.y 0) (.q 12)),
    (0x0112C127, .fmaxF64 ⟨false, none, 2⟩ (.y 0) (.q 9) (.q 7)),
    (0xEE130910, .fcmpLtF64 ⟨true, some (11, true), 0⟩ false 2 (.q 8) (.y 0)),
    (0x5A13FEAC, .fcmpEqF64 ⟨false, some (6, true), 0⟩ true 15 (.s 1) (.q 12)),
    (0x01946AF9, .fcvt ⟨false, none, 3⟩ (.s 6) (.s 3) 25),
    (0x57148F5F, .fcvtd ⟨false, some (5, true), 2⟩ (.q 3) (.s 6) 31)
] : List (Word × Instr)), (decode [r.1]).toOption = some r.2 := by decide +kernel

/-- Copy and fabric words (R218 to R243): each word is its row of the opcode table with the operand and header fields of its instruction set by hand. -/
theorem test_decode_engine : ∀ r ∈ ([
    (0xF09518A1, .cpy ⟨true, some (12, false), 1⟩ (.q 6) (.q 5) (.q 1)),
    (0x53159652, .gath ⟨false, some (4, true), 2⟩ (.q 5) (.y 2) (.y 2)),
    (0x00166B15, .scat ⟨false, none, 0⟩ (.s 6) (.s 4) (.s 1)),
    (0x0196F0FB, .cpym ⟨false, none, 3⟩ (.k 0) (.q 7) (.s 7)),
    (0x01171C00, .xfer ⟨false, none, 2⟩ (.q 7)),
    (0x8117A400, .xmc ⟨true, none, 2⟩ (.q 9))
] : List (Word × Instr)), (decode [r.1]).toOption = some r.2 := by decide +kernel

/-- Compares (R145): each word is its row of the opcode table with the operand and header fields of its instruction set by hand. -/
theorem test_decode_compare : ∀ r ∈ ([
    (0x80187DF6, .fcmpEqF32 ⟨true, none, 0⟩ true 15 (.q 15) (.s 2)),
    (0x8098B9F9, .fcmpNeF32 ⟨true, none, 1⟩ false 14 (.q 15) (.s 5)),
    (0x00990E14, .fcmpLtF32 ⟨false, none, 1⟩ false 3 (.y 0) (.s 0)),
    (0x0119F724, .fcmpLeF32 ⟨false, none, 2⟩ true 13 (.s 5) (.q 4)),
    (0x009A4724, .fcmpGtF32 ⟨false, none, 1⟩ true 1 (.s 5) (.q 4)),
    (0x801ADA91, .fcmpGeF32 ⟨true, none, 0⟩ true 6 (.s 0) (.y 1)),
    (0x7A9B7E5D, .icmpEqI32 ⟨false, some (14, true), 1⟩ true 15 (.y 2) (.k 1)),
    (0x521BE163, .icmpNeI32 ⟨false, some (4, true), 0⟩ true 8 (.q 11) (.q 3)),
    (0x491C3F25, .icmpLtI32 ⟨false, some (2, false), 2⟩ false 15 (.s 5) (.q 5)),
    (0x811CA118, .icmpLeI32 ⟨true, none, 2⟩ false 8 (.q 8) (.s 4)),
    (0x7C9D31D1, .icmpGtI32 ⟨false, some (15, false), 1⟩ false 12 (.q 14) (.y 1)),
    (0xF51DCB0C, .icmpGeI32 ⟨true, some (13, false), 2⟩ true 2 (.s 4) (.q 12)),
    (0x7A1E5A34, .icmpLtN32 ⟨false, some (14, true), 0⟩ true 6 (.y 1) (.s 0)),
    (0x801EBC83, .icmpLeN32 ⟨true, none, 0⟩ false 15 (.q 4) (.q 3)),
    (0xC51F39DC, .icmpGtN32 ⟨true, some (1, false), 2⟩ false 14 (.q 14) (.k 0)),
    (0xD31F945A, .icmpGeN32 ⟨true, some (4, true), 2⟩ false 5 (.q 2) (.s 6))
] : List (Word × Instr)), (decode [r.1]).toOption = some r.2 := by decide +kernel

/-- Integer words (R147 to R152): each word is its row of the opcode table with the operand and header fields of its instruction set by hand. -/
theorem test_decode_integer : ∀ r ∈ ([
    (0x4A20547A, .iadd ⟨false, some (2, true), 0⟩ (.s 1) (.q 3) (.s 6)),
    (0x80A08D3C, .isub ⟨true, none, 1⟩ (.q 3) (.q 9) (.k 0)),
    (0x43A17BC9, .imul ⟨false, some (0, true), 3⟩ (.k 2) (.k 2) (.q 9)),
    (0x00A1FC86, .imulhI32 ⟨false, none, 1⟩ (.k 3) (.q 4) (.q 6)),
    (0x80A21FCA, .imulhN32 ⟨true, none, 1⟩ (.q 7) (.k 2) (.q 10)),
    (0x8122BE36, .imad ⟨true, none, 2⟩ (.q 15) (.y 1) (.s 2)),
    (0x6D230821, .iminI32 ⟨false, some (11, false), 2⟩ (.q 2) (.q 1) (.q 1)),
    (0x5E23DB75, .iminN32 ⟨false, some (7, true), 0⟩ (.s 2) (.s 7) (.s 1)),
    (0xF2A42167, .imaxI32 ⟨true, some (12, true), 1⟩ (.q 8) (.q 11) (.q 7)),
    (0x6CA48475, .imaxN32 ⟨false, some (11, false), 1⟩ (.q 1) (.q 3) (.s 1)),
    (0xD4255B60, .iabs ⟨true, some (5, false), 0⟩ (.s 2) (.s 7)),
    (0xDE25BCC6, .and ⟨true, some (7, true), 0⟩ (.q 15) (.q 6) (.q 6)),
    (0xC3267D72, .or ⟨true, some (0, true), 2⟩ (.k 3) (.q 11) (.y 2)),
    (0x8026FFAA, .xor ⟨true, none, 0⟩ (.k 3) (.k 1) (.q 10)),
    (0x55273470, .andn ⟨false, some (5, false), 2⟩ (.q 13) (.q 3) (.y 0)),
    (0x80A7C721, .shl ⟨true, none, 1⟩ (.y 1) (.s 5) (.q 1)),
    (0x49A84C4D, .shr ⟨false, some (2, false), 3⟩ (.y 3) (.q 2) (.q 13)),
    (0x6428CFF1, .sar ⟨false, some (9, false), 0⟩ (.y 3) (.k 3) (.y 1)),
    (0x6AA92B14, .rotl ⟨false, some (10, true), 1⟩ (.q 10) (.s 4) (.s 0)),
    (0x01A9E2FA, .bfe ⟨false, none, 3⟩ (.s 4) (.s 3) (.s 6)),
    (0x00AA0C22, .bfi ⟨false, none, 1⟩ (.q 3) (.q 1) (.q 2)),
    (0x4FAAC840, .clz ⟨false, some (3, true), 3⟩ (.y 2) (.q 2)),
    (0x01AB2420, .popc ⟨false, none, 3⟩ (.q 9) (.q 1)),
    (0x802BDA20, .brev ⟨true, none, 0⟩ (.s 2) (.y 1))
] : List (Word × Instr)), (decode [r.1]).toOption = some r.2 := by decide +kernel

/-- Packed, lane and predicate words (R146, R171 to R178): each word is its row of the opcode table with the operand and header fields of its instruction set by hand. -/
theorem test_decode_packed : ∀ r ∈ ([
    (0x612C2319, .sel ⟨false, some (8, false), 2⟩ (.q 8) (.s 4) (.s 5)),
    (0x01ACC380, .mov ⟨false, none, 3⟩ (.y 0) (.k 0)),
    (0x81AD7ACA, .bmix ⟨true, none, 3⟩ (.k 2) (.s 2) (.q 10)),
    (0x002DD0AB, .leaS2 ⟨false, none, 0⟩ (.s 0) (.q 5) (.q 11)),
    (0xD1AE0A09, .leaS3 ⟨true, some (4, false), 3⟩ (.q 2) (.y 0) (.q 9)),
    (0x01AEAAF1, .iadd64 ⟨false, none, 3⟩ (.q 10) (.s 3) (.y 1)),
    (0xFA2F7647, .sataddI32 ⟨true, some (14, true), 0⟩ (.k 1) (.y 2) (.q 7)),
    (0x81AF854F, .satsubI32 ⟨true, none, 3⟩ (.q 1) (.q 10) (.q 15)),
    (0x62B07BFE, .iaddI16x2 ⟨false, some (8, true), 1⟩ (.k 2) (.k 3) (.k 2)),
    (0x00309711, .isubI16x2 ⟨false, none, 0⟩ (.q 5) (.s 4) (.y 1)),
    (0xD2315D88, .iminI16x2 ⟨true, some (4, true), 0⟩ (.s 3) (.q 12) (.q 8)),
    (0xF0B187F0, .imaxI16x2 ⟨true, some (12, false), 1⟩ (.q 1) (.k 3) (.y 0)),
    (0xE5B231AB, .pdot2I16x2 ⟨true, some (9, false), 3⟩ (.q 12) (.q 13) (.q 11)),
    (0x4332EDA4, .pdot2sI16x2 ⟨false, some (0, true), 2⟩ (.s 7) (.q 13) (.q 4)),
    (0x01332583, .pdot4I8x4 ⟨false, none, 2⟩ (.q 9) (.q 12) (.q 3)),
    (0xCBB3E53C, .pdot4sI8x4 ⟨true, some (2, true), 3⟩ (.s 5) (.q 9) (.k 0)),
    (0x4D3457C5, .shrrI32 ⟨false, some (3, false), 2⟩ (.s 1) (.k 2) (.q 5)),
    (0x76B4E59A, .shrrsI16 ⟨false, some (13, true), 1⟩ (.s 5) (.q 12) (.s 6)),
    (0x81B57BBF, .packB16 ⟨true, none, 3⟩ (.k 2) (.k 1) (.k 3)),
    (0x0035FB00, .unpklI16 ⟨false, none, 0⟩ (.k 2) (.s 4)),
    (0xD3B60BC0, .unpkhI16 ⟨true, some (4, true), 3⟩ (.q 2) (.k 2)),
    (0x01B6B96A, .sataddI16x2 ⟨false, none, 3⟩ (.q 14) (.q 11) (.q 10)),
    (0xE2B82A12, .xlaneGet ⟨true, some (8, true), 1⟩ (.q 10) (.y 0) (.y 2)),
    (0x80B8D4C3, .xlaneShift ⟨true, none, 1⟩ (.s 1) (.q 6) (.q 3)),
    (0x5F3965EE, .xlaneRot ⟨false, some (7, true), 2⟩ (.s 5) (.q 15) (.q 14)),
    (0x00B98CCB, .xlaneBfly ⟨false, none, 1⟩ (.q 3) (.q 6) (.q 11)),
    (0x5F3A6A67, .push ⟨false, some (7, true), 2⟩ (.s 6) (.y 3) (.q 7)),
    (0x72BAB52B, .slideUp ⟨false, some (12, true), 1⟩ (.q 13) (.q 9) (.q 11)),
    (0x62BB5A31, .slideDown ⟨false, some (8, true), 1⟩ (.s 2) (.y 1) (.y 1)),
    (0x013BF500, .wredIadd ⟨false, none, 2⟩ (.k 1) (.q 8)),
    (0xFB3C7360, .wredImin ⟨true, some (14, true), 2⟩ (.k 0) (.s 7)),
    (0x003CBAE0, .wredImax ⟨false, none, 0⟩ (.q 14) (.s 3)),
    (0xC1BD7BC0, .wredFadd ⟨true, some (0, false), 3⟩ (.k 2) (.k 2)),
    (0xDCBD94A0, .scanIadd ⟨true, some (7, false), 1⟩ (.q 5) (.q 5)),
    (0x483E3464, .plopAnd ⟨false, some (2, false), 0⟩ 13 3 4),
    (0x53BEB1A2, .plopOr ⟨false, some (4, true), 3⟩ 12 13 2),
    (0x013F2544, .plopXor ⟨false, none, 2⟩ 9 10 4),
    (0xDC3FA4A8, .plopAndn ⟨true, some (7, false), 0⟩ 9 5 8)
] : List (Word × Instr)), (decode [r.1]).toOption = some r.2 := by decide +kernel

/-- Main-file words and atomics (R179, R192): each word is its row of the opcode table with the operand and header fields of its instruction set by hand. -/
theorem test_decode_mainfile : ∀ r ∈ ([
    (0xDEC11D00, .get ⟨true, some (7, true), 1⟩ 71 (.q 8)),
    (0x64426600, .put ⟨false, some (9, false), 0⟩ 25 (.y 0)),
    (0x81447AC0, .get2 ⟨true, none, 2⟩ 30 (.s 2)),
    (0xDE476960, .put2 ⟨true, some (7, true), 0⟩ 90 (.q 11)),
    (0xF0499D58, .vfmaF32 ⟨true, some (12, false), 0⟩ 103 (.q 10) (.s 4)),
    (0x01CBF4E0, .vaddF32 ⟨false, none, 3⟩ 125 (.q 7)),
    (0x80CCF100, .vaddI32 ⟨true, none, 1⟩ 60 (.q 8)),
    (0xCECFCD00, .vswap ⟨true, some (3, true), 1⟩ 115 (.q 8))
] : List (Word × Instr)), (decode [r.1]).toOption = some r.2 := by decide +kernel

/-- Loads and stores (R183, R187, R200): each word is its row of the opcode table with the operand and header fields of its instruction set by hand. -/
theorem test_decode_memory : ∀ r ∈ ([
    (0xC5E011C2, .ldB32 ⟨true, some (1, false), 3⟩ (.q 2) (.q 7) 2),
    (0x44E16BFA, .ldB64 ⟨false, some (1, false), 1⟩ (.q 13) (.q 15) 58),
    (0x8062F196, .ldB128 ⟨true, none, 0⟩ (.k 2) (.q 6) 22),
    (0x01E312AB, .ldB16 ⟨false, none, 3⟩ (.q 2) (.q 10) 43),
    (0xEAE42046, .ldB8 ⟨true, some (10, true), 1⟩ (.q 4) (.q 1) 6),
    (0x816577F9, .stB32 ⟨true, none, 2⟩ (.q 14) (.k 3) 57),
    (0x01E66675, .stB64 ⟨false, none, 3⟩ (.q 12) (.s 5) 53),
    (0xC9E73B23, .stB128 ⟨true, some (2, false), 3⟩ (.q 7) (.q 12) 35),
    (0x8168663A, .stB16 ⟨true, none, 2⟩ (.q 12) (.s 4) 58),
    (0x81E946A9, .stB8 ⟨true, none, 3⟩ (.q 8) (.s 6) 41),
    (0x81EA13C5, .ldsB32 ⟨true, none, 3⟩ (.q 2) (.q 15) 5),
    (0x596B6256, .ldsB64 ⟨false, some (6, false), 2⟩ (.q 12) (.q 9) 22),
    (0x6B6C0E31, .stsB32 ⟨false, some (10, true), 2⟩ (.q 1) (.s 4) 49),
    (0x00ED242E, .stsB64 ⟨false, none, 1⟩ (.q 4) (.y 0) 46),
    (0xE3EE2FA0, .ldnB32 ⟨true, some (8, true), 3⟩ (.q 5) (.k 2) 32),
    (0x016FDDD4, .contribF32 ⟨false, none, 2⟩ (.s 7) (.s 3) false (.s 0))
] : List (Word × Instr)), (decode [r.1]).toOption = some r.2 := by decide +kernel

/-- Immediate words (R147): each word is its row of the opcode table with the operand and header fields of its instruction set by hand. -/
theorem test_decode_immediate : ∀ r ∈ ([
    (0x6B70D643, .movi ⟨false, some (10, true), 2⟩ (.s 6) 1603),
    (0x01F1C948, .addi ⟨false, none, 3⟩ (.s 5) 328),
    (0x49F2945C, .andi ⟨false, some (2, false), 3⟩ (.y 2) 1116),
    (0x81F3E8D8, .ori ⟨true, none, 3⟩ (.k 1) 216),
    (0x48747010, .shli ⟨false, some (2, false), 0⟩ (.q 14) 16),
    (0x80F5280E, .shri ⟨true, none, 1⟩ (.q 5) 14)
] : List (Word × Instr)), (decode [r.1]).toOption = some r.2 := by decide +kernel

/-- Branches (R117): each word is its row of the opcode table with the operand and header fields of its instruction set by hand. -/
theorem test_decode_branch : ∀ r ∈ ([
    (0x5D7812CE, .bra ⟨false, some (7, false), 2⟩ 4814),
    (0x63786F3D, .call ⟨false, some (8, true), 2⟩ 12093),
    (0x5AF891F0, .loop ⟨false, some (6, true), 1⟩ 2 31),
    (0x0178FFA2, .bhead ⟨false, none, 2⟩ 15 930)
] : List (Word × Instr)), (decode [r.1]).toOption = some r.2 := by decide +kernel

/-- Control and system words (R118): each word is its row of the opcode table with the operand and header fields of its instruction set by hand. -/
theorem test_decode_system : ∀ r ∈ ([
    (0x017C0000, .nop ⟨false, none, 2⟩ ),
    (0x01FC1000, .exit ⟨false, none, 3⟩ ),
    (0x5C7C2000, .ret ⟨false, some (7, false), 0⟩ ),
    (0x447C3800, .brx ⟨false, some (1, false), 0⟩ (.y 0)),
    (0x01FC4000, .breakLevel ⟨false, none, 3⟩ ),
    (0x46FC5000, .yield ⟨false, some (1, true), 1⟩ ),
    (0x007C6543, .bar ⟨false, none, 0⟩ 2 20 3),
    (0x007C7000, .trigger ⟨false, none, 0⟩ ),
    (0x577C8C80, .launch ⟨false, some (5, true), 2⟩ (.s 5)),
    (0x007C9A34, .trap ⟨false, none, 0⟩ 2612),
    (0x597CA571, .svc ⟨false, some (6, false), 2⟩ 1393),
    (0x007CB000, .rft ⟨false, none, 0⟩ ),
    (0x017CC000, .commit ⟨false, none, 2⟩ ),
    (0x00FCD007, .settile ⟨false, none, 1⟩ 7),
    (0x76FCE00A, .elect ⟨false, some (13, true), 1⟩ 10),
    (0x80FCF166, .getsr ⟨true, none, 1⟩ (.q 2) 102),
    (0x7DFD0266, .setsr ⟨false, some (15, false), 3⟩ (.q 4) 102),
    (0x807D1A98, .sget ⟨true, none, 0⟩ 21 (.q 6)),
    (0xF77D277C, .smov ⟨true, some (13, true), 2⟩ 14 31),
    (0x6FFD30F0, .sadd ⟨false, some (11, true), 3⟩ 1 28),
    (0x81FD4C71, .pjoin ⟨true, none, 3⟩ 12 7 1),
    (0x567D5D90, .pmask ⟨false, some (5, true), 0⟩ (.s 7) 2),
    (0xF8FD608B, .peers ⟨true, some (14, false), 1⟩ (.q 1) (.q 2) 3),
    (0x4AFD72B0, .movsa ⟨false, some (2, true), 1⟩ (.q 5) 6)
] : List (Word × Instr)), (decode [r.1]).toOption = some r.2 := by decide +kernel

/-- Words of R119 and R120: each word is its row of the opcode table with the operand and header fields of its instruction set by hand. -/
theorem test_decode_sync : ∀ r ∈ ([
    (0x80FD8F00, .rdecl ⟨true, none, 1⟩ (.k 2)),
    (0x01FD98C8, .kset ⟨false, none, 3⟩ 8 (.s 5)),
    (0x51FDA610, .kwait ⟨false, some (4, false), 3⟩ 6 (.q 2)),
    (0x80FDBB00, .krel ⟨true, none, 1⟩ 11),
    (0x5AFDCA00, .kprod ⟨false, some (6, true), 1⟩ 10),
    (0x01FDD930, .kroom ⟨false, none, 3⟩ 9 (.q 6)),
    (0xCCFDE018, .qfence ⟨true, some (3, false), 1⟩ 24),
    (0x007DF016, .drain ⟨false, none, 0⟩ 22)
] : List (Word × Instr)), (decode [r.1]).toOption = some r.2 := by decide +kernel

/-- Matrix and iterator words (R224, R234): each word is its row of the opcode table with the operand and header fields of its instruction set by hand. -/
theorem test_decode_matrix : ∀ r ∈ ([
    (0x81FE0A00, .mbegin ⟨true, none, 3⟩ 5),
    (0xF6FE1800, .mend ⟨true, some (13, true), 1⟩ 4),
    (0xFAFE226C, .mma ⟨true, some (14, true), 1⟩ 1 1 5 4),
    (0x81FE3F7F, .mmas ⟨true, none, 3⟩ 7 5 7 7),
    (0x81FE4800, .mzero ⟨true, none, 3⟩ 4),
    (0x00FE5746, .mst ⟨false, none, 1⟩ 3 2 true (.q 3)),
    (0x807E6C0A, .mld ⟨true, none, 0⟩ 6 (.q 5)),
    (0x49FE7DCA, .mcontrib ⟨false, some (2, false), 3⟩ 6 7 (.q 5)),
    (0x007E8450, .itset ⟨false, none, 0⟩ 2 (.q 5)),
    (0xD47E9EEF, .sweep ⟨true, some (5, false), 0⟩ 7 3 5 7)
] : List (Word × Instr)), (decode [r.1]).toOption = some r.2 := by decide +kernel

/-- The remaining system words: each word is its row of the opcode table with the operand and header fields of its instruction set by hand. -/
theorem test_decode_last : ∀ r ∈ ([
    (0x817EAED0, .waitcnt ⟨true, none, 2⟩ (.k 1) (.s 0)),
    (0xD3FEB3CE, .pref ⟨true, some (4, true), 3⟩ (.q 7) 19 2),
    (0x6CFEC334, .salloc ⟨false, some (11, false), 1⟩ (.q 6) (.q 13)),
    (0x6AFEDD00, .sfree ⟨false, some (10, true), 1⟩ (.s 6)),
    (0x807EEAF3, .atomIadd ⟨true, none, 0⟩ (.s 1) 14 3),
    (0x817EF95F, .atomImin ⟨true, none, 2⟩ (.y 2) 11 7),
    (0xE37F099B, .atomImax ⟨true, some (8, true), 2⟩ (.y 3) 3 3),
    (0x81FF141D, .atomLogic ⟨true, none, 3⟩ (.q 8) 3 5),
    (0x637F2C0E, .atomXchg ⟨false, some (8, true), 2⟩ (.s 4) 1 6),
    (0x00FF3556, .atomFmin ⟨false, none, 1⟩ (.q 10) 10 6),
    (0xECFF4825, .atomFmax ⟨true, some (11, false), 1⟩ (.y 0) 4 5),
    (0x007F50D3, .cas ⟨false, none, 0⟩ (.q 1) 10 3),
    (0x817F6920, .gemvn ⟨true, none, 2⟩ (.y 2) (.q 8)),
    (0xD17F7A6C, .coll ⟨true, some (4, false), 2⟩ (.s 0) (.s 7)),
    (0x547F8EFD, .snap ⟨false, some (5, false), 0⟩ 3837)
] : List (Word × Instr)), (decode [r.1]).toOption = some r.2 := by decide +kernel

/-! ### The hypotheses of the statements can be met: words -/

/-- The lane 0 alone. -/
def lane0 : LaneSet := Lanes.ofFn fun l => l.val = 0

/-- The checks of `Commits` as one value. -/
def commitsB (i : Instr) (h : Hdr) (w : Warp := probe) (m : LaneSet := every) : Bool :=
  readyB i w m && LaneSet.any (w.active h m) && w.windows.isEmpty && !w.atomsOut

/-- What `commitsB` says of an issue of the probe. -/
theorem commits_of {i : Instr} {h : Hdr} {w : Warp} {m : LaneSet} (e : commitsB i h w m = true) :
    Commits i h (issuing w m) (issueBy w m) w := by
  simp only [commitsB, Bool.and_eq_true, List.isEmpty_iff, Bool.not_eq_true'] at e
  exact ⟨ready_of e.1.1.1, e.1.1.2, e.1.2, e.2⟩

/-- `ResultShiftsIntoY`, `ResultArrivesAfterItsLatency`: a lane that writes, one that does not, a warp with nothing in flight. -/
theorem test_witness_results : lane0[(0 : Fin 32)] = true ∧ lane0[(1 : Fin 32)] = false ∧ probe.marks = [] ∧ probe.clk ≤ 0 := by
  decide +kernel

/-- `IntegerWordsWriteTheirTables`. -/
theorem test_witness_integer_words :
    (∀ r ∈ int2, opensB (r.1 plain (.q 0) (.q 1) (.q 2)) = true) ∧ (∀ r ∈ int1, opensB (r.1 plain (.q 0) (.q 3)) = true) ∧
    opensB (.imad plain (.q 0) (.q 1) (.q 2)) = true ∧ opensB (.iadd64 plain (.q 2) (.q 4) (.q 6)) = true ∧
    (∀ r ∈ bitWords, opensB (r.1 plain (.q 0) (.q 1) (.q 2)) = true) ∧ (∀ r ∈ immWords, opensB (r.1 plain (.q 0) (-1)) = true) ∧
    opensB (.shli plain (.q 0) 31) = true ∧ opensB (.shri plain (.q 0) 0) = true ∧ opensB (.lit plain (.q 15) 7) = true ∧
    opensB (.lit2 plain (.q 14) 7) = true := by decide +kernel

/-- A guard that passes in the even lanes. -/
def evenLanes : Hdr := ⟨false, some (3, false), 0⟩

/-- `SelChoosesByGuard`: a guarded `SEL`, and the word of one without a guard. -/
theorem test_witness_sel : opensB (.sel evenLanes (.q 0) (.q 1) (.q 2)) = true ∧ plain.guard = none ∧
    [0x002C0000].drop (issueBy probe every).pc.word = encode (.sel plain (.q 0) (.q 0) (.q 0)) ++ [] := by decide +kernel

/-- `PredicateWordsWriteTheirResult`, `SaturatingWordsClampOnce`. -/
theorem test_witness_predicates_and_saturation :
    (∀ r ∈ intCompares, opensB (r.1 plain true 15 (.q 1) (.q 2)) = true) ∧ (∀ r ∈ predWords, opensB (r.1 plain 0 3 15) = true) ∧
    (∀ r ∈ exactWords, opensB (r.word plain (.q 0) (.q 1) (.q 2)) = true) ∧
    (∀ r ∈ packedWords, opensB (r.1 plain (.q 0) (.q 1) (.q 2)) = true) ∧ opensB (.sataddI16x2 plain (.q 0) (.q 1) (.q 2)) = true ∧
    opensB (.unpklI16 plain (.q 0) (.q 1)) = true ∧ opensB (.unpkhI16 plain (.q 0) (.q 1)) = true := by decide +kernel

/-- The probe with its launch markers: every source signals. -/
def marked : Warp := newWarp (bootLaunch 0) 0 0 0 0 0 0

/-- `FloatWordsRoundOnceOrTrap`: words whose sources do not signal, and in the warp with its launch markers a word whose first source does,
in lane 0. -/
theorem test_witness_float_words :
    (∀ r ∈ float32, opensB (r.word plain (.q 0) (.q 10) (.k 0)) = true ∧ snanTrap every (r.srcs (.q 0) (.q 10) (.k 0) probe) = none) ∧
    (∀ r ∈ float64, opensB (r.word plain (.q 2) (.q 4) (.q 6)) = true ∧ snanTrap every (r.srcs (.q 2) (.q 4) (.q 6) probe) = none) ∧
    opensB (.fclassF32 plain (.q 0) (.q 1)) = true ∧
    (∀ r ∈ float32, opensB (r.word plain (.q 0) (.q 10) (.k 0)) 0 [] marked = true ∧
      ((r.srcs (.q 0) (.q 10) (.k 0) marked).findSome? fun src => src 0).isSome = true) ∧
    (∀ r ∈ float64, opensB (r.word plain (.q 2) (.q 4) (.q 6)) 0 [] marked = true) := by decide +kernel

/-- `ComparesAndConversionsWriteTheirResult`. -/
theorem test_witness_compares_and_conversions :
    (∀ r ∈ floatCompares, opensB (r.1 plain false 1 (.q 4) (.q 6)) = true ∧
      snanTrap every (if r.2.2 then [src64 probe (.q 4), src64 probe (.q 6)] else [src32 probe (.q 4), src32 probe (.q 6)]) = none) ∧
    (∀ code : Fin 32, opensB (.fcvt plain (.q 2) (.q 4) code) = true ∧ snanTrap every (convertSrcs code.val (.q 4) probe) = none) ∧
    (∀ code : Fin 32, code = 8 ∨ code = 16 ∨ code = 20 → opensB (.fcvtd plain (.q 2) (.q 4) code) = true) := by decide +kernel

/-- `SumsRoundToNearestAndMinMaxSelects`: 1 and 2^−24 and their sum; patterns that are numbers and NaNs in each format. -/
theorem test_witness_sums :
    exactValue (.fin false 1 0) = some 1 ∧ (exactValue (fp32.val 0x33800000)).isSome = true ∧
    (exactValue (fp32.val (fp32.add (.fin false 1 0) (fp32.val 0x33800000)).val)).isSome = true ∧
    ∀ fm ∈ [fp32, fp16, bf16, fp64], (fm.val fm.nan).isNan = true ∧ (fm.val 0).isNan = false := by decide +kernel

/-- `ElectChoosesLowestLane`, `PushDeliversTheHighestSender` (every lane sends to position 5 of its tile), `CrossLaneWordsStayInTheirTile`. -/
theorem test_witness_cross_lane_words :
    opensB (.elect evenLanes 15) = true ∧ opensB (.push plain (.q 0) (.q 1) (.q 2)) = true ∧
    (∀ j : Fin 32, tileLane probe.regs.tile j (probe.read32 .int (.q 2) j).toNat = 5) ∧
    (∀ mode : Fin 4, opensB (.pjoin plain 1 3 mode) = true) ∧ opensB (.pmask plain (.q 0) 3) = true ∧
    opensB (.peers evenLanes (.q 0) (.q 1) 0) = true ∧ opensB (.peers plain (.q 0) (.q 4) 1) = true ∧
    (∀ r ∈ Claims.laneMoves, opensB (r.1 plain (.q 0) (.q 1) (.q 2)) = true) ∧ opensB (.slideUp plain (.q 0) (.q 1) (.k 3)) = true ∧
    opensB (.slideDown plain (.q 0) (.q 1) (.k 3)) = true ∧ opensB (.wredIadd plain (.q 0) (.q 1)) = true ∧
    opensB (.scanIadd plain (.q 0) (.q 1)) = true ∧ opensB (.wredImin plain (.q 0) (.q 1)) = true ∧
    opensB (.wredImax plain (.q 0) (.q 1)) = true ∧ opensB (.wredFadd plain (.q 0) (.q 1)) = true := by decide +kernel

/-- `MainFileWordsReachTheMainFile`; `FirstWriteShadowsTheOldRow` of `WindowsRollBackToTheirCheckpoint`: an open window. -/
theorem test_witness_main_file_words :
    opensB (.get plain 127 (.q 0)) = true ∧ opensB (.get2 plain 126 (.q 2)) = true ∧ opensB (.put plain 127 (.q 1)) 0 [127] = true ∧
    opensB (.put2 plain 126 (.q 4)) 0 [126, 127] = true ∧ opensB (.vaddI32 plain 5 (.q 1)) 0 [5] = true ∧
    opensB (.vswap plain 5 (.q 1)) 0 [5] = true ∧ opensB (.vfmaF32 plain 5 (.q 10) (.q 11)) 0 [5] = true ∧
    opensB (.vaddF32 plain 5 (.q 10)) 0 [5] = true ∧
    ((probe.newWindow).windows.map fun x => x.isClosed) = [false] := by decide +kernel

/-- The probe with two loop levels over packets 0 to 5 and 1 to 3, the innermost first. -/
def looping (count : Word) : Warp :=
  { probe with regs := { probe.regs with loops := [{ start := 1, stop := 3, count := count }, { start := 0, stop := 5, count := 2 }] } }

/-- The word that reads no lane: a guard that passes nowhere. -/
def noLane : Hdr := ⟨false, some (0, false), 0⟩

/-- `SpecialRegistersReadAndWritten`: every register that is read, each write, with a lane, with none, at the commit point. -/
theorem test_witness_special_registers :
    (∀ n ∈ specials (issuing probe) 0 probe 0, ∃ num : Fin 128, num.val = n.1 ∧ opensB (.getsr plain (.q 0) num) = true) ∧
    (∀ num : Fin 128, 21 ≤ num.val → num.val < 24 → opensB (.getsr plain (.q 0) num) = true) ∧
    opensB (.getsr plain (.q 2) 19) = true ∧
    (∀ num ∈ ([9, 10, 11, 12, 13, 21, 22, 23] : List (Fin 128)), opensB (.setsr plain (.q 1) num) 0 [] (looping 2) = true) ∧
    LaneSet.lowest (probe.active plain every) = some 0 ∧ LaneSet.lowest (probe.active noLane every) = none ∧
    opensB (.setsr noLane (.q 1) 11) = true ∧ probe.read32 .int (.q 13) 0 = 0 ∧ probe.read32 .int (.q 12) 0 = 64 ∧
    probe.regs.sticky = [] ∧ commitsB (.setsr plain (.q 12) 14) plain = true := by decide +kernel

/-- `ThreadsPassToTheNextWord`: a word inside a packet, the last word, the end of a level's body with rounds left and on its last
round. -/
theorem test_witness_threads_pass :
    every[(31 : Fin 32)] = true ∧ (0 : Nat) + 1 < 2 ∧ (∀ lv ∈ probe.regs.loops.head?, lv.stop ≠ (0 : Word)) ∧
    (looping 2).regs.loops = { start := 1, stop := 3, count := 2 } :: [{ start := 0, stop := 5, count := 2 }] ∧
    (1 : Nat) < (2 : Word).toNat ∧ (1 : Word).toNat ≤ 1 ∧ (∀ up ∈ [({ start := 0, stop := 5, count := 2 } : Machine.Loop)].head?, up.stop ≠ 3) := by
  decide +kernel

/-- `BranchesTransferOrTrap`: packet 0 has targets up to 8,191 and no target below. -/
theorem test_witness_branches :
    opensB (.bra plain 8191) = true ∧ opensB (.call plain 1) = true ∧ opensB (.ret plain) = true ∧ opensB (.brx plain (.q 1)) = true ∧
    opensB (.bra plain (-1)) = true ∧ opensB (.call plain (-1)) = true ∧ LaneSet.any (probe.active plain every) = true ∧
    ((0 : Int) ≤ 0 + (8191 : BitVec 14).toInt ∧ 0 + (8191 : BitVec 14).toInt < 2 ^ 32) ∧ 0 + (-1 : BitVec 14).toInt < (0 : Int) := by
  decide +kernel

/-- A probe with three loop levels. -/
def nested : Warp := { probe with regs := { probe.regs with loops := List.replicate 3 { start := 0, stop := 9, count := 2 } } }

/-- `LoopLevelsOpenAndClose`: no lane, count 0 (`s7`), a level that opens (`s5` holds 3), a fourth level; `BREAK` without a level, with one
and no lane, with one. -/
theorem test_witness_loops :
    opensB (.loop noLane 5 1) = true ∧ LaneSet.any (probe.active noLane every) = false ∧ opensB (.loop plain 7 1) = true ∧
    (issueBy { probe with regs := { probe.regs with s := [] } } every).before.readS 7 = 0x0 ∧
    opensB (.loop plain 5 86) = true ∧ probe.readS 5 = 3 ∧ opensB (.loop plain 5 1) 0 [] nested = true ∧ nested.regs.loops.length = 3 ∧
    opensB (.breakLevel plain) = true ∧ probe.regs.loops = [] ∧ opensB (.breakLevel noLane) 0 [] (looping 2) = true ∧
    opensB (.breakLevel plain) 0 [] (looping 2) = true := by decide +kernel

/-- `HeadwindIsAllowanceBelowTheMark`: the device's own number is 0, device 1 is absent; a `BHEAD` toward each; `MOVSA`. -/
theorem test_witness_headwind :
    (issuing probe).self = 0 ∧ (issuing probe).present.getLsbD 1 = false ∧ opensB (.bhead plain 0 511) = true ∧
    (issuing probe).hwmark 0 ≤ (issuing probe).allowance 0 0 ∧ opensB (.bhead plain 1 1) = true ∧
    (issuing probe).allowance 0 1 < (issuing probe).hwmark 0 ∧ (0 : Int) ≤ 0 + (1 : BitVec 10).toInt ∧ opensB (.movsa plain (.q 0) 15) = true := by decide +kernel

/-- `WarpScopeWordsAndHints`. -/
theorem test_witness_warp_scope :
    opensB (.sget plain 31 (.q 1)) = true ∧ opensB (.smov plain 4 5) = true ∧ opensB (.sadd plain 4 5) = true ∧
    opensB (.settile plain 5) = true ∧ opensB (.nop plain) = true ∧ opensB (.yield plain) = true ∧ opensB (.yield noLane) = true := by
  decide +kernel

/-! ### Memory, barriers, traps, engines -/

/-- A lane's location is memory that may be used now. -/
def locOk (use : Loc → Bool) (x : Except Cause Loc) : Bool :=
  match x with
  | .ok loc => !loc.isIo && use loc
  | .error _ => false

/-- Why an access fails. -/
def failure (x : Except Cause Loc) : Option Cause :=
  match x with
  | .ok _ => none
  | .error c => some c

/-- The base of a memory word in the probe: an address, or a scratchpad offset. -/
def baseOf (r : MemForm) : Near := if r.pad then .q 12 else .q 8

/-- `LoadsWriteTheirBytes`, `StoresAreBuffered`: a load and a store of every form in lane 0, at own memory and in the scratchpad, at
offset 1. -/
theorem test_witness_loads_and_stores :
    probe.steadyBusy = false ∧ probe.active plain lane0 = lane0 ∧ (issuing probe).noWay 0 [0x400] = none ∧
    (∀ r ∈ loads, opensB (r.word plain (.q 0) (baseOf r) 1) 1 [] probe lane0 = true ∧
      locOk (issuing probe lane0).readable (r.loc .read (baseOf r) 1 (issuing probe lane0) probe probe 0 0) = true) ∧
    (∀ r ∈ stores, opensB (r.word plain (.q 4) (baseOf r) 1) 1 [] probe lane0 = true ∧
      locOk (issuing probe lane0).writable (r.loc .write (baseOf r) 1 (issuing probe lane0) probe probe 0 0) = true) := by
  decide +kernel

/-- `FaultingAccessTrapsAtTheLowestLane`: in lane 0 a misaligned address (`q0:q1` odd), an address from 2^57 up, an unmapped one; the
aperture beyond the 64 KiB of the block, across their end and misaligned before it; scratchpad offsets below 0, beyond the end and misaligned. -/
theorem test_witness_faulting_access :
    let s := issuing probe
    let va := fun (lo hi : Word) => { probe with regs := { probe.regs with q := SMap.put (SMap.put probe.regs.q 8 (Lanes.all lo)) 9 (Lanes.all hi) } }
    let at_ := fun (r : MemForm) (w : Warp) (off : BitVec 6) => failure (r.loc .read (baseOf r) off s w w 0 0)
    let ld : MemForm := { word := .ldB32, bytes := 4, reach := anywhere }
    let lds : MemForm := { word := .ldsB32, bytes := 4, pad := true }
    opensB (.ldB32 plain (.q 0) (.q 8) 0) 1 [] (va 1 0) = true ∧ at_ ld (va 1 0) 0 = some .misaligned ∧
    at_ ld (va 0 0x2000000) 0 = some (.protection 0) ∧ at_ ld (va 0 1) 0 = some .pageFault ∧
    at_ ld (va 0xFFF10000 0x01FFFFFF) 0 = some (.protection 1) ∧ at_ ld (va 0xFFF0FFFE 0x01FFFFFF) 0 = some (.protection 1) ∧
    at_ ld (va 0xFFF0FFFB 0x01FFFFFF) 0 = some .misaligned ∧ opensB (.stB32 plain (.q 0) (.q 8) 0) 1 [] (va 1 0) = true ∧
    at_ lds probe (-17) = some (.protection 1) ∧ at_ lds { probe with regs := { probe.regs with q := [(12, Lanes.all 65534)] } } 0 =
      some (.protection 1) ∧ at_ lds { probe with regs := { probe.regs with q := [(12, Lanes.all 62)] } } 0 = some .misaligned := by
  decide +kernel

/-- A closed window of the probe with one store. -/
def storing : Warp :=
  let x := (probe.newWindow).windows
  { probe with windows := x.map fun x => { x with isClosed := true, stores := [{ loc := .mem 0x20000, data := [1, 2, 3, 4], va := 0x20000, sync := false }] } }

/-- Its device: core 0 holds the line of the store in state M (R323). -/
def committing : State := { issuing storing with dir := [(0x400, { st := .m, holders := [0], way := 0 })] }

/-- `CommitPerformsTheStoresInOrder`, and what the step then does. -/
theorem test_witness_commit :
    (storing.windows.all fun x => x.isClosed && storing.released x.serial && (committing.unwritable 0 x).isNone && x.synced) = true ∧
    storing.windows.length = 1 ∧ storing.pending = none ∧ storing.inPair = false ∧
    (∀ n : Nat, n < 4 → (committing.reg (0x2600 + 16 * n) 0).toNat % 2 = 0) ∧
    ((stepped (.windowCommit 0 0) committing).map fun t => [Memory.read t.mem 0x20000, Memory.read t.mem 0x20003, Memory.read t.mem 0x20004]) =
      some [1, 4, 0] := by decide +kernel

/-- A probe whose open window has read granule `g`. -/
def reading (g : Gran) : Warp :=
  let w := probe.newWindow
  { w with windows := w.windows.map fun x => { x with reads := [g] } }

/-- `RollbackRestoresTheCheckpoint`. -/
theorem test_witness_rollback :
    ∃ x, (reading (.line 5)).windows.find? (fun x => x.reads.contains (.line 5)) = some x ∧
      ∀ y ∈ (reading (.line 5)).windows, y.serial = x.serial → y = x := by
  refine ⟨_, rfl, ?_⟩; decide +kernel

/-- The probe's device, whose page at 0x20000 lies on device 1, with allowance toward it. -/
def peerPage : State :=
  let s := (issuing probe lane0).setCore 0 { (issuing probe lane0).core 0 with sa := [(1, 5)] }
  match s.leafOf 0 0 0x20000 with
  | .ok (leaf, lg) => { s with present := 3, tlb := [{ unit := 0, ctx := 0, va := 0x20000 / 2 ^ lg * 2 ^ lg, lgsz := lg, leaf := leaf + 2 ^ 48 }] }
  | .error _ => s

/-- `AtomicsActInLaneOrder`: every form in lane 0 at own memory and at a peer's; a `CAS` of 16 bytes toward host memory is refused. -/
theorem test_witness_atomics :
    let s := issuing probe lane0
    (match peerPage.globalLoc probe 0 { mmio := false, host := true } .rmw 4 (probe.read64 (.q 8) 0) with
      | .ok loc => loc == .mem (2 ^ 48 + 0x20000) && peerPage.atomTarget loc == .peer && !peerPage.busyLine loc.lineNo &&
        peerPage.allowance 0 1 != 0
      | .error _ => false) = true ∧
    (((stepped (.atomIadd plain (.q 2) 4 0) peerPage).bind fun t => t.warp 0 0).map fun v =>
      v.loads.map fun ld => ld.kind == .remote 4 1 []) = some [true] ∧
    (∀ r ∈ atomForms, commitsB (r.word plain (.q 2) 4 0) plain probe lane0 = true) ∧ commitsB (.cas plain (.q 0) 4 2) plain probe lane0 = true ∧
    locOk (fun loc => s.atomTarget loc == .own && s.atomReady 0 loc && (s.touch probe loc 4).isNone)
      (s.globalLoc probe 0 { mmio := false, host := true } .rmw 4 (probe.read64 (.q 8) 0)) = true ∧
    s.atomTarget (.host 64) = .host ∧ casForm.host 2 = false ∧ (∀ k : Nat, k < 4 → (s.reg (0x2600 + 16 * k) 0).toNat % 2 = 0) := by
  decide +kernel

/-- `ATOM.iadd` of 5 in 32 lanes at 0x20000 leaves 160 there, and lane 31 takes 155: lanes act in ascending order (R80, R193). -/
theorem test_atomic_add :
    ((stepped (.atomIadd plain (.q 2) 4 0)).map fun t =>
      (Memory.read t.mem 0x20000, (t.warp 0 0).map fun w => (w.regs.qRow 2)[(31 : Fin 32)])) = some (160, some 155) := by decide +kernel

/-- `ScratchpadHeapWords`: `SALLOC` of 64 bytes in an empty heap gives offset 64, of 0 bytes all ones; `SFREE` of an allocation, and of
none. -/
theorem test_witness_heap :
    let b := { bootBlock with size := 65536 }
    opensB (.pref plain (.q 8) 4 0) = true ∧ commitsB (.salloc plain (.q 0) (.q 12)) plain = true ∧
    commitsB (.sfree plain (.q 12)) plain = true ∧ SMap.get? (issuing probe).blocks 0 = some b ∧ (∀ q ∈ b.allocs, q.1 + 64 ≠ 64) ∧
    (∃ q ∈ [((0, 64) : Nat × Nat)], q.1 + 64 = 64) ∧ qAfter (.salloc plain (.q 0) (.q 12)) 0 0 = some 64 ∧
    qAfter (.salloc plain (.q 0) (.q 13)) 0 0 = some 0xFFFFFFFF := by decide +kernel

/-- A device whose launch records have bit `n` set. -/
def withRecordBit (s : State) (n : Nat) : State :=
  { s with launches := s.launches.map fun e => (e.1, { e.2 with record := e.2.record ||| (1 : BitVec 1024) <<< n }) }

/-- The probe's device with its launch declaring barrier level 2, and the mask of `s4:s5` naming warp 0 alone. -/
def gathering (w : Warp) : State := withRecordBit (issuing { w with regs := { w.regs with s := [(4, 1), (5, 0)] } }) 843

/-- `BarJoinsItsInstance`: declared and not, a recorded touch, a `.wait` without a mark, a `.sync` that joins; a mask that names a
warp the block lacks; a member that owes a `.wait`, and one whose instance has completed. -/
theorem test_witness_bar :
    commitsB (.bar plain 2 4 0) plain = true ∧ (issuing probe).recordField 0 (841 + 2) 1 = 0 ∧ (gathering probe).recordField 0 (841 + 2) 1 = 1 ∧
    probe.guard = none ∧ (∀ l ∈ markLanes 2 every, probe.barMark 2 l = none) ∧ (gathering probe).barMaskBad probe 0 2 1 every = none ∧
    ((gathering probe).barMaskBad probe 0 2 3 every).isSome = true ∧ (gathering probe).openBars 2 (barGroup 2 0 probe) 0 = [] ∧
    ((stepped (.bar plain 2 4 0) (gathering probe)).map fun t => t.bars.length) = some 1 ∧
    (gathering probe).farMasks 0 = [] ∧
    (let owes := probe.setMarks 2 every (.joined 0)
     let done := probe.setMarks 2 every .completed
     (markLanes 2 every).find? (fun l => (owes.barMark 2 l).isSome) = some 0 ∧ (gathering owes).barMaskBad owes 0 2 1 every = none ∧
     ∀ l ∈ markLanes 2 every, done.barMark 2 l = some .completed) := by decide +kernel

/-- `BarrierCompleteReleasesItsWaiters`: after the `.sync` of the one member the instance is full, and that member waits at it. -/
theorem test_witness_barrier_complete :
    ((stepped (.bar plain 2 4 0) (gathering probe)).map fun t =>
      ((t.bars.map fun e => t.barFull e.2 0), t.saved.length, ((t.warp 0 0).toList.flatMap fun w =>
        w.barred.map fun x => x.inst == some 0 && x.super == w.super && x.pc.word == 0))) = some ([true], 0, [true]) := by decide +kernel

/-- A probe whose last window touched a guard granule. -/
def touched : Warp := { probe with guard := some { bank := 1, offset := 64, count := 1 } }

/-- `WarpsEndAndSubmit`: `EXIT` of some lanes, of all, with a recorded touch; a window that `COMMIT` closes; `LAUNCH` of a record at an
address that is the same in every lane; `SNAP` with its source enabled and not. -/
theorem test_witness_ends_and_submits :
    commitsB (.trigger plain) plain = true ∧ commitsB (.exit evenLanes) evenLanes = true ∧ commitsB (.exit plain) plain = true ∧
    probe.guard = none ∧ (issuing probe).efaults = [] ∧ commitsB (.exit plain) plain touched = true ∧ touched.guard.isSome = true ∧
    opensB (.commit plain) = true ∧ commitsB (.launch plain (.q 8)) plain = true ∧
    locOk (issuing probe).readable ((issuing probe).globalLoc probe 0 { mmio := false, host := true } .read 128 (probe.read64 (.q 8) 0)) = true ∧
    commitsB (.snap plain 5) plain = true ∧ ((issuing probe).reg 0x50000 0x3F).getLsbD 0 = true ∧ (issuing probe).snap = none ∧
    ((SMap.get? (issuing probe).launches 0).map fun x => x.record.toNat / 2 ^ 320 % 2 ^ 64) = some 0 := by decide +kernel

/-- `TrapEntersTheHandler`: the frame can be written, outside supervisor mode; a warp in supervisor mode. -/
theorem test_witness_trap :
    let t : Trap := { kind := .software, amask := LaneSet.mask every, w2 := false }
    let s := issuing probe
    let at_ := { s with cur := some { issueBy probe every with ended := .trapped } }
    probe.windows = [] ∧ probe.super = false ∧ (at_.superWrite 0 0 3 (probe.frame t) (s.frameVa 0 0 0)).2 = true ∧
    ({ probe with super := true } : Warp).super = true := by decide +kernel

/-- The probe after `TRAP 0x12`, in its handler. -/
def trapped : Option Warp :=
  match exec (.trap plain 0x12) (issuing probe) with
  | .next t => t.warp 0 0
  | _ => none

/-- A trap's information by hand from R394 and R395: cause 14 is not needed, the code 0x12 stands in bits 31:20. -/
theorem test_trap : (trapped.map fun w => (w.super, (w.trapinfo.extractLsb' 20 12).toNat, w.regs.tile)) = some (true, 0x12, 32) := by
  decide +kernel

/-- A warp in the handler, of whose threads none was live, and its frame: zeros but for `sr.rc` 1 and `sr.tile` 32 (R397). -/
def handling : Warp := { probe with super := true }
/-- See `handling`. -/
def returning : State :=
  let s := issuing handling
  let va := s.frameVa 0 0 0
  { s with mem := Memory.write (Memory.write s.mem (va + 4152) [1]) (va + 4168) [32] }

/-- `TrapWordsAndReturn`: `TRAP`, `SVC`; `RFT` outside the handler; in it, with a frame that asks for nothing but to resume. -/
theorem test_witness_trap_words :
    commitsB (.trap plain 0) plain = true ∧ commitsB (.svc plain 4095) plain = true ∧ probe.super = false ∧ handling.super = true ∧
    commitsB (.rft plain) plain handling = true ∧ handling.late = [] ∧ returning.efaults = [] ∧ returning.aborts = [] ∧
    returning.preempt = none ∧ handling.wasLive = Lanes.all false ∧ handling.barred = [] ∧
    ((returning.superRead 0 handling.ctx 3 (returning.frameVa 0 0 handling.ctx) 4208).any fun bs =>
      !frameKills bs && leNat ((bs.drop 32).take 4) / 2 % 4 == 0 && leNat ((bs.drop 36).take 4) == 0) = true := by decide +kernel

/-- `RFT` gives back what the frame holds (R399), outside supervisor mode. -/
theorem test_return : ((stepped (.rft plain) returning).bind fun t => (t.warp 0 0).map fun w =>
    (w.super, (w.regs.qRow 2)[(3 : Fin 32)], w.regs.tile, (w.regs.threads[(3 : Fin 32)]).live)) = some (false, 0, 32, false) := by decide +kernel

/-! ### Buffers, fences, engine words -/

/-- A ring of two slots of 128 bytes at scratchpad offset 256, the first filled, as a descriptor configures it (R214). -/
def ringWord : Nat := 256 + 128 * 2 ^ 32 + 2 * 2 ^ 72 + 1 * 2 ^ 80 + 1 * 2 ^ 96

/-- The probe's device with that descriptor at address 64 and, in handle 1 of its block, the ring itself after `f`. -/
def ringed (f : Ring → Ring) (w : Warp := probe) : State :=
  let s := issuing w lane0
  { s with
    mem := Memory.write s.mem 64 (bytesLE 16 ringWord)
    blocks := [(0, { bootBlock with size := 65536, rings := ((ringOf ringWord 65536).map fun r => (1, f r)).toList })] }

/-- The probe waiting for a slot of handle 1. -/
def waitingForSlot (room : Bool) : Warp :=
  { probe with wait := some (.slot 3), loads := [{ id := 3, regs := [0], lanes := every, win := 0, kind := .slot 1 room, due := 0, lost := [] }] }

/-- `BuffersMoveAndGrantSlots`: `KSET` of a free handle and of one in use; `KROOM` and `KWAIT` with a ring and without; `KPROD` and `KREL`
with a slot and without; grants of the free slot and of the filled one. -/
theorem test_witness_buffers :
    let idle := ringed id
    let used := ringed fun r => ((r.reserve 0).map (·.2)).getD r
    let taken := ringed fun r => r.take 0 0
    commitsB (.kset plain 2 (.q 12)) plain probe lane0 = true ∧
    (match idle.globalLoc probe 0 { mmio := false, host := true } .read 16 64 with
      | .ok loc => idle.readable loc && (ringOf (leNat (idle.bytesAt loc 16)) (idle.padSize probe)).isSome
      | .error _ => false) = true ∧
    (idle.ring 0 2).isNone = true ∧ (idle.ring 0 1).all (·.idle) = true ∧ idle.namesHandle 0 1 = false ∧ (used.ring 0 1).any (fun r => !r.idle) = true ∧
    opensB (.kroom plain 1 (.q 0)) 0 [] probe lane0 = true ∧ opensB (.kwait plain 1 (.q 0)) 0 [] probe lane0 = true ∧
    ((probe.inWindow false 0 []).map (·.block)) = some probe.block ∧
    commitsB (.kprod plain 1) plain probe lane0 = true ∧ (used.ring 0 1).bind (·.reservedBy 0) = some 1 ∧
    (idle.ring 0 1).bind (·.reservedBy 0) = none ∧ commitsB (.krel plain 1) plain probe lane0 = true ∧
    (taken.ring 0 1).bind (·.takenBy 0) = some 0 ∧ (idle.ring 0 1).bind (·.takenBy 0) = none ∧ idle.entries = [] ∧
    ((waitingForSlot true).slotLoad true).isSome = true ∧ ((waitingForSlot false).slotLoad false).isSome = true ∧
    ((idle.ring 0 1).bind fun r => (r.reserve (warpKey 0 0)).map (·.1)) = some 1 ∧
    ((idle.ring 0 1).bind fun r => r.nextTake (warpKey 0 0)) = some 0 := by decide +kernel

/-- A grant by hand (R216): slot 1 of a ring at 256 with slots of 128 bytes lies at 384. -/
theorem test_room_grant : ((stepped (.kroomGrant 0 0) (ringed id (waitingForSlot true))).bind fun t =>
    (t.warp 0 0).map fun w => (w.regs.qRow 0)[(0 : Fin 32)]) = some 384 := by decide +kernel

/-- The probe with one load-scoreboard mark on `q0`. -/
def loading (kind : LoadKind) : Warp :=
  { probe with loads := [{ id := 3, regs := [0], lanes := every, win := 0, kind := kind, due := 0, lost := [] }] }

/-- `FencesAndCountersWait`: `QFENCE` with a lane and without, `DRAIN` with no entry named and with one of the open window, `WAITCNT` at offset 64, at the scratchpad's
last word, beyond it and misaligned; a data return; a counter that is at its target 0. -/
theorem test_witness_fences :
    let s := issuing probe lane0
    opensB (.qfence plain 31) 0 [] probe lane0 = true ∧ opensB (.qfence noLane 1) = true ∧ opensB (.drain plain 31) 0 [] probe lane0 = true ∧
    (probe.openWin).isNone = true ∧
    (let v := probe.newWindow.mapOpen fun x => { x with entries := [7] }
     readyB (.drain plain 31) v lane0 = true ∧ (∃ x ∈ v.openWin, ∃ n ∈ x.entries, n ∈ [7]) ∧ (issueBy v lane0).second = false ∧
       (v.closeOpen.inWindow false 0 []).isSome = true) ∧
    opensB (.waitcnt plain (.q 0) (.q 12)) 1 [] probe lane0 = true ∧
    (65532 % 4 = 0 ∧ 65532 + 4 ≤ s.padSize probe) ∧ s.padSize probe < 65536 + 4 ∧ (65529 + 4 ≤ s.padSize probe ∧ 65529 % 4 ≠ 0) ∧
    ((loading .data).load? 3).isSome = true ∧
    (let v := loading (.waitcnt 0 64 0)
     let t := issuing v
     t.touch v (t.padLoc v 0 64) 4 = none ∧
       (0 : Word).toNat ≤ leNat (overlay (v.storesBefore 0 0) (t.padLoc v 0 64) (t.bytesAt (t.padLoc v 0 64) 4))) := by decide +kernel

/-- `CopyWordsEnterOperations` of `EngineWordsEnterOperations`: records at 0x20000, an index array at scratchpad offset 64, a core mask;
addresses that are no multiple of 64, an array outside the scratchpad, a mask of 2^16. -/
theorem test_witness_copy_words :
    (∀ r ∈ copyWords, opensB (r.1 plain (.q 0) (.q 8) (.q 12)) 1 [] probe lane0 = true ∧ opensB (r.1 noLane (.q 0) (.q 8) (.q 12)) 1 = true) ∧
    (probe.read64 (.q 8) 0).toNat % 64 = 0 ∧ (64 % 4 = 0 ∧ 64 + 4 ≤ (issuing probe lane0).padSize probe) ∧
    (withRecordBit (issuing probe lane0) 856).recordField 0 856 1 = 1 ∧ (probe.read32 .int (.q 12) 0).toNat < 2 ^ 16 ∧
    (∀ r ∈ copyWords, opensB (r.1 plain (.q 0) (.q 4) (.q 12)) 1 [] { probe with regs := { probe.regs with q := SMap.put probe.regs.q 4 (Lanes.all 8) } } lane0 = true) ∧
    (issuing probe lane0).padSize probe < (probe.read32 .int (.q 8) 0).toNat + 4 ∧ 2 ^ 16 ≤ (probe.read32 .int (.q 8) 0).toNat := by
  decide +kernel

/-- The probe with the uniform registers of a transfer: source 0x20000, destination 0x30000, 128 bytes, no counter, target device 0;
for `XMC` a list of one device, 0. -/
def transferring (list : Word) : Warp :=
  { probe with regs := { probe.regs with s := [(0, 0x20000), (1, 0), (2, 0x30000), (3, 0), (4, 128), (5, 0), (6, if list = 0 then 0x1000 else 0), (7, list)] } }

/-- `FabricAndNearMemoryWordsEnterOperations`: `GEMVN` with an aligned descriptor and without, `COLL`, `XFER`, `XMC` to a list of one
device and to none. -/
theorem test_witness_fabric_words :
    commitsB (.gemvn plain (.q 0) (.q 8)) plain probe lane0 = true ∧ commitsB (.coll plain (.q 0) (.q 8)) plain probe lane0 = true ∧
    (probe.read64 (.q 8) 0).toNat % 64 = 0 ∧ commitsB (.gemvn plain (.q 0) (.q 2)) plain probe lane0 = true ∧ (probe.read64 (.q 2) 0).toNat % 64 ≠ 0 ∧
    commitsB (.xfer plain (.q 0)) plain (transferring 0) lane0 = true ∧
    ((issuing (transferring 0) lane0).xferCheck (issueBy (transferring 0) lane0) (transferring 0) lane0).toOption.isSome = true ∧
    ((transferring 0).readS 6).toNat % 16 = (issuing (transferring 0)).self ∧
    commitsB (.xmc plain (.q 0)) plain (transferring 0x10000000) lane0 = true ∧
    ((issuing (transferring 0x10000000) lane0).xmcCheck (issueBy (transferring 0x10000000) lane0) (transferring 0x10000000) lane0).toOption.isSome = true ∧
    (listDevs (0x10000000 * 2 ^ 32)).head? = some 0 ∧ commitsB (.xmc plain (.q 0)) plain (transferring 0) lane0 = true ∧
    ((transferring 0).readS 6).toNat + ((transferring 0).readS 7).toNat * 2 ^ 32 / 2 ^ 60 % 16 = 0x1000 := by decide +kernel

/-- The probe with an open chain on accumulator 2. -/
def chained : Warp := { probe with regs := { probe.regs with chains := [(2, { ty := some 0, steps := [1, 1, 1, 1] })] } }

/-- `MatrixWordsEnterOperations`: every word on accumulator 2 without a chain, `MEND` and `MMA` in one; operand tiles and rows inside the
scratchpad; `MST` with `sr.phase`. -/
theorem test_witness_matrix_words :
    let tiles := fun (w : Warp) (rows : Nat) => (operandTiles w lane0 0 rows 4 4).all fun e => e.2.1 + e.2.2 ≤ 65536 && e.2.1 % 128 == 0
    (∀ i ∈ ([.mzero plain 2, .mbegin plain 2, .mma plain 2 0 4 4, .mmas plain 2 0 4 4, .mld plain 2 (.q 12), .mst plain 2 1 true (.q 12)] : List Instr),
      opensB i 0 [] probe lane0 = true) ∧
    LaneSet.any (probe.active plain lane0) = true ∧ probe.regs.inPair 2 = false ∧ SMap.get? probe.regs.chains 2 = none ∧
    (∀ i ∈ ([.mend plain 2, .mma plain 2 0 4 4] : List Instr), opensB i 0 [] chained lane0 = true) ∧ chained.regs.inPair 2 = false ∧
    (SMap.get? chained.regs.chains 2).isSome = true ∧ stepBad probe 2 0 lane0 = false ∧ stepBad chained 2 0 lane0 = false ∧
    tiles probe 32 = true ∧ probe.regs.mshift.toNat % 2 ^ 8 + 32 ≤ probe.regs.mshift.toNat / 2 ^ 8 % 2 ^ 8 + 32 ∧
    (64 + 64 ≤ 65536 ∧ 64 % 16 = 0) ∧ (64 + 16 * storeSize 1 ≤ 65536) := by decide +kernel

/-- The probe's device with a declaration at 0x20000: target 0x40000, one leaf, 32 elements, counter 0x50000, histogram 0x60000. -/
def declaring : State :=
  let s := issuing probe lane0
  { s with mem := Memory.write s.mem 0x20000 (bytesLE 64 (0x40000 + 2 ^ 64 + 32 * 2 ^ 96 + 0x50000 * 2 ^ 128 + 0x60000 * 2 ^ 192)) }

/-- `ContributionsReachTheCoreLull`: `CONTRIB` with label 0 and with an index out of range; `MCONTRIB` of an accumulator without a
chain; `RDECL` of a record that passes and of zeros. -/
theorem test_witness_contributions :
    let s := issuing probe lane0
    LaneSet.lowest (probe.active plain lane0) = some 0 ∧ commitsB (.contribF32 plain (.q 10) (.q 8) true (.q 13)) plain probe lane0 = true ∧
    (s.contribLoc probe 0 0x20000).toOption.isSome = true ∧ s.labelRange 0 0x20000 0 = false ∧ 27 < (0xE0000000 : Word).toNat / 2 ^ 27 ∧
    commitsB (.mcontrib plain 2 4 (.q 13)) plain probe lane0 = true ∧ s.entries = [] ∧
    ((List.range 16).all fun c => (s.contribLoc probe 0 (0x20000 + BitVec.ofNat 64 (4 * c))).toOption.isSome) = true ∧
    commitsB (.rdecl plain (.q 8)) plain probe lane0 = true ∧
    (match declaring.globalLoc probe 0 { mmio := false, host := true } .read 64 0x20000 with
      | .ok loc =>
        let r := declaring.recordAt probe loc 64
        let d := declOf r
        let v := declaring.noteTouches probe 64 [(0, loc)]
        let u := declaring.setWarp 0 0 v
        declaring.readable loc && u.writable loc && r / 2 ^ 272 % 2 ^ 16 == 0 && r / 2 ^ 320 == 0 && !d.bad && !u.declOverlaps 0 d &&
          (match u.declPages v 0 d with
            | .ok (t, k, h) => u.declClass t k h && u.homeOf t == u.self
            | .error _ => false)
      | .error _ => false) = true ∧
    (declOf 0).bad = true := by decide +kernel

/-- A record of one element of 4 bytes at 0x40000 (R234). -/
def oneElement : Nat := 0x40000 + 2 ^ 64 + 2 ^ 96 + 2 ^ 128 + 2 ^ 160

/-- `IteratorWordsLoadAndSweep`: a record of zeros is out of range, `oneElement` is not; a `SWEEP` of iterators that hold it, and of invalid
ones. -/
theorem test_witness_iterators :
    let w := ((probe.setIter 0 oneElement).setIter 1 oneElement).setIter 2 oneElement
    let s := issuing probe lane0
    opensB (.itset plain 2 (.q 8)) 1 [] probe lane0 = true ∧
    locOk (fun loc => s.readable loc && (s.touch probe loc 64).isNone && (s.noWay 0 (lineNos (loc.grans 64))).isNone)
      (s.globalLoc probe 0 { mmio := false, host := true } .read 64 0x20000) = true ∧ probe.steadyBusy = false ∧ iterBad oneElement = false ∧ iterBad 0 = true ∧
    commitsB (.sweep plain 1 2 0 1) plain w lane0 = true ∧ sweepBad 1 (w.iter 2) (w.iter 0) (w.iter 1) = false ∧
    commitsB (.sweep plain 1 2 0 1) plain probe lane0 = true ∧ sweepBad 1 (probe.iter 2) (probe.iter 0) (probe.iter 1) = true ∧
    (match State.sweepRun (issueBy w lane0) 0 1 2 0 1 1 (issuing w lane0) w with
      | .done _ _ => true
      | _ => false) = true := by decide +kernel

/-! ### Steps of the part -/

/-- An operation of the probe in queue `queue`, with its record at 0x20000. -/
def anEntry (kind : EngKind) (queue : Nat) : Entry :=
  { kind := kind, queue := queue, core := 0, slot := 0, bound := true, block := 0, launch := 0, ctx := 0, super := false, lane := 0
    lanes := lane0, acc := 0, ty := 0, mode := 0, addr := 0x20000, opA := Lanes.all 0, opB := Lanes.all 0, args := [], dst := 0, load := 3
    win := none, started := false, elem := 0, slotIx := none, todo := [], owed := 0, outcome := 0, sat := false, guard := false
    absent := false, exited := false, skipped := 0, fid := none, issuedAt := 0, seen := [], fed := [] }

/-- The probe's device with operations, a ring in handle 1, and 64 bytes `r` at 0x20000. -/
def working (es : List (Nat × Entry)) (r : Nat := 0) (w : Warp := probe) : State :=
  let s := ringed id w
  { s with cur := none, entries := es, mem := Memory.write s.mem 0x20000 (bytesLE 64 r) }

/-- A layout record of one 32-bit element at 0x40000, to scratchpad offset 0 (R218). -/
def oneTile : Nat := 0x40000 + 2 ^ 192 + 2 ^ 224 + 4 * 2 ^ 256 + 2 ^ 320 + 2 ^ 336 + 2 * 2 ^ 384 + 2 ^ 390

/-- Whether the operation of `oneTile`'s kind with record `r` passes its check, and then moves its one element. -/
def copies (r : Nat) : Bool :=
  let s := working [(0, anEntry .cpy 0)] r
  match SMap.get? s.blocks 0 with
  | none => false
  | some b => match s.copyCheck (anEntry .cpy 0) b with
    | .ready x =>
      let t := s.setEntry 0 { x with started := true }
      t.mayCopy 0 { x with started := true } && x.acc == 1 && t.copyFirst { x with started := true } &&
        (match t.copySlot 0 { x with started := true } with
          | some (u, y) => (match u.copyElem 0 y b y.elem with
            | (_, z, .done) => z.elem == 1
            | _ => false)
          | none => false)
    | _ => false

/-- `CopyEntriesRunAndEnd`: a record that is refused, one that is accepted; a `CPYM` delivery to a core without blocks, with an exited
one, with a ring that fits and with one that does not; an access at an unmapped address; an operation that is over; element steps toward a side buffer and into a slot of the ring. -/
theorem test_witness_copy_steps :
    let cpy := anEntry .cpy 0
    let cpym := { anEntry .cpym 0 with acc := 2, todo := [0, 5], started := true, args := [oneTile] }
    let far := { anEntry .gemvn 3 with started := true, addr := 0x10000000000 }
    let ended := { anEntry .gemvn 3 with acc := 2 }
    let b := { bootBlock with size := 65536 }
    (working [(0, cpy)]).mayCopy 0 cpy = true ∧ (match (working [(0, cpy)]).copyCheck cpy b with
      | .bad => true
      | _ => false) = true ∧
    copies oneTile = true ∧ copies (oneTile - 2 ^ 390 + 2 ^ 392) = true ∧ b.inbound = [] ∧ cpym.fed = [] ∧
    (working [(0, ended)]).stored (.entry 0) = true ∧ far.fid = none ∧ far.win = none ∧
    (∀ x ∈ (working [(0, cpym)]).blocks, x.2.launch = 0 → x.2.core ≠ 5) ∧ 5 ∈ cpym.todo ∧ 0 ∈ cpym.todo ∧
    ((working [(0, cpym)]).launchBlocksOn cpym 0).length = 1 ∧
    (((working [(0, cpym)]).launchBlocksOn cpym 0).find? fun x => !x.2.gone).isSome = true ∧
    ((bootBlock.exited.length = 0) ∧ ({ bootBlock with ended := true, away := true } : Block).gone = true) ∧
    (((ringOf ringWord 65536).bind fun r => r.reserve (entryOwner 0)).isSome = true) ∧ ((ringOf ringWord 65536).map (·.size)) = some 128 ∧
    cpym.layout.bytes ≤ 128 ∧ 128 < ({ cpym with args := [oneTile + 63 * 2 ^ 336] } : Entry).layout.bytes ∧
    ((working [(0, far)]).entryFault 0 far).any (fun x => x.1 != .poison) = true ∧ ended.isOver = true ∧
    ((issuing (loading (.status 1))).warp 0 0).any (fun w => (w.load? 3).any fun ld => ld.regs == [0]) = true := by decide +kernel

/-- The descriptor of a `GEMVN` of one weight, and the layout record of its matrix at 0x24000 (R238, R272). -/
def oneGemvn : Nat := 0x21000 + 0x22000 * 2 ^ 64 + 0x23000 * 2 ^ 128 + 2 ^ 192 + 2 ^ 224

/-- The layout record that `oneGemvn` names. -/
def oneWeight : Nat := 0x24000 + 2 ^ 192 + 2 ^ 224 + 2 * 2 ^ 256 + 4 * 2 ^ 384

/-- A `GEMVN` of one weight, BF16 3.0, that has read x, BF16 1.0, and has the output elements of a list. -/
def aGemvn (out : List Nat) : Entry := { anEntry .gemvn 3 with acc := 1, args := [oneGemvn, oneWeight, 0] ++ out, fed := [0x3F80] }

/-- A device with that operation (R262). -/
def multiplying (out : List Nat) : State :=
  let s := working [(7, aGemvn out)] oneGemvn
  { s with mem := Memory.write (Memory.write s.mem 0x21000 (bytesLE 64 oneWeight)) 0x24000 [0x40, 0x40] }

/-- `MatrixEnginesRunTheirSteps`: an idle partition whose next pass is a step, a clear or a load; a finished quarter; a `GEMVN` whose
descriptor (zeros) is refused, and one that runs to its end and stores 3.0. -/
theorem test_witness_matrix_steps :
    let on := fun (kind : EngKind) => ({ anEntry kind 1 with acc := 2, todo := [0] } : Entry)
    let starts := fun (kind : EngKind) => ((working [(4, on kind)]).nextPass 0 0 (SMap.getD ((working [(4, on kind)]).core 0).served 0 3)).any fun x => x.1 == 4
    (∀ kind ∈ [EngKind.mma, .mmas, .mzero, .mld], starts kind = true ∧ (on kind).started = false) ∧
    ((on .mma).opB[quarterLane (on .mma).lanes 0]).toNat = (on .mma).elem ∧ (on .mma).ty ≠ 4 ∧ (on .mma).args = [] ∧ 0 ∈ (on .mma).todo ∧
    (let s := working [(7, anEntry .gemvn 3)]
     ((s.gemvnServed 0).find? fun e => !(s.gemvnRun e.1 e.2).stuck) = some (7, anEntry .gemvn 3)) ∧
    (match (working [(7, anEntry .gemvn 3)]).gemvnRun 7 (anEntry .gemvn 3) with
      | .bad _ _ => true
      | _ => false) = true := by decide +kernel

/-- `MatrixEnginesRunTheirSteps`: a `GEMVN` that runs to its end and stores 3.0; one whose output stands complete. -/
theorem test_witness_gemvn :
    (match (multiplying []).gemvnPlan (anEntry .gemvn 3), (multiplying []).gemvnRun 7 (aGemvn []) with
      | .ready _ _ _ k, .done t _ => k == 0 && Memory.readN t.mem 0x23000 4 == [0, 0, 0x40, 0x40]
      | _, _ => false) = true ∧
    (let s := multiplying []
     ((s.gemvnServed 0).find? fun e => !(s.gemvnRun e.1 e.2).stuck) = some (7, aGemvn [])) ∧
    (let e := aGemvn [0x40400000]
     e.fed.length = e.gemvn.k ∧ e.weightsRead = e.weights.rows * e.weights.cols ∧
       (match (multiplying [0x40400000]).enginePut 7 e true e.gemvn.y (e.outputs.flatMap (bytesLE 4)) with
        | .done _ => true
        | _ => false) = true ∧
       (let s := multiplying [0x40400000]
        ((s.gemvnServed 0).find? fun e => !(s.gemvnRun e.1 e.2).stuck) = some (7, e))) ∧
    (aGemvn []).planArgs ≤ (aGemvn []).args.length ∧ (aGemvn []).todo.length + 1 = (aGemvn []).weights.cols := by decide +kernel

/-- `MZERO` by hand (R227): an accumulator that held 1.0 holds +0.0 after its pass. -/
theorem test_zero_pass :
    ((stepped (.matrixPassStart 0 0) (working [(4, { anEntry .mzero 1 with acc := 2 })])).bind fun t =>
      (t.warp 0 0).map fun w => w.accAt 2 31 15) = some 0 := by decide +kernel

/-- A plan of two counters with one work entry of 4 bytes that counter 0 arms at 1, toward peer 0 of Ultra Ethernet (R306, R307). -/
def aPlan : Plan :=
  { base := 0, sig := 0, planid := 9, nctr := 2, members := 1, self := 0, elems := 0, leaves := 1, fctr := 0, fthr := 1, peers := [0]
    work := [BitVec.ofNat 256 (2 ^ 224 + 2 ^ 183 + 4 * 2 ^ 96)] }

/-- An instance of it, started by operation 4. -/
def anInst : Inst :=
  { plan := aPlan, tag := 0, entry := 4, ctx := 0, super := false, src := 0x40000, dst := 0x50000, counter := 0, hist := 0, obj := none
    ctrs := [1, 0], got := [], fired := [], owed := [] }

/-- The probe's device with that plan in slot 0, that instance, and an Ultra Ethernet port ready. -/
def collecting (insts : List (Nat × Inst)) (r : Nat := 0) : State :=
  let s := working [(4, anEntry .coll 4)] r
  { s with plans := [(0, aPlan)], insts := insts, mmio := SMap.put s.mmio 0x30000 (s.reg 0x30000 0 ||| BitVec.ofNat 64 (2 ^ 42)) }

/-- `CollectivesStartFireAndComplete`: a start record of zeros names no plan; one of plan 9; the work entry whose counter stands at its
threshold, and its one element; the final counter at its threshold. -/
theorem test_witness_collectives :
    let e := anEntry .coll 4
    (match (collecting []).instCheck e with
      | .bad => true
      | _ => false) = true ∧
    (match (collecting [] (9 * 2 ^ 288)).instCheck e with
      | .ready p _ home => p.planid == 9 && p.elems == 0 && home == 0
      | _ => false) = true ∧ (collecting []).heldWrites = [] ∧
    e.acc = 0 ∧ e.win = none ∧ e.fid = none ∧ (collecting []).fenced 4 e = false ∧
    ((Work.of (BitVec.ofNat 256 (2 ^ 224 + 2 ^ 183 + 4 * 2 ^ 96))).thr ≤ (anInst.ctrs.getD 0 0).toNat) ∧
    (collecting [(3, anInst)]).workFault 3 0 = false ∧ (collecting []).ueReady = true ∧
    (match (collecting [(3, anInst)]).engineGet ((collecting [(3, anInst)]).instEntry anInst) true (pieces 0x40000 4) with
      | .bytes bs => bs == [0, 0, 0, 0]
      | _ => false) = true ∧
    (SMap.get? anInst.got 0).isSome = false ∧ ¬ 4 < (Work.of (BitVec.ofNat 256 (2 ^ 224 + 2 ^ 183 + 4 * 2 ^ 96))).len ∧
    (let ended := { anInst with fired := [0] }
     aPlan.fthr.toNat ≤ (ended.ctrs.getD aPlan.fctr 0).toNat ∧ ended.got = [] ∧ (List.range ended.plan.work.length).all (!ended.armed ·) = true ∧
       (collecting [(3, ended)]).stored (.entry 4) = true) := by decide +kernel

/-- No work entry beyond the plan's is armed. -/
theorem test_witness_nothing_armed (x : Inst) (k : Nat) (h : x.plan.work.length ≤ k) : x.armed k = false := by
  simp [Inst.armed, List.getElem?_eq_none h]

/-- An entry of a lull: leaf `index`, lane 0 holding 1.0. -/
def aLeaf (index : Nat) : LullEntry :=
  { ctx := 0, line := 0x40000, obj := none, level := 0, index := index, present := 1, vals := Lanes.all 0x3F800000, res := Lanes.all 0, core := 0
    block := 0, rootc := false, apart := false, credit := none, seq := 0 }

/-- An object of two lines whose report is waiting, its counter and histogram in own memory. -/
def anObj : Obj := newObj { target := 0x40000, leaves := 1, elems := 64, counter := 0x50000, hist := 0x60000, corebp := 0, slicebp := 0 }
  0 false 0 false 0 0 none none none

/-- `LullsPairForwardAndReport`: an arrival, siblings 2 and 3, a kept entry that may go on, a report of an object with lines left. -/
theorem test_witness_lulls :
    let s := { issuing probe with
      lulls := [(0, { kept := [aLeaf 2], inbox := [aLeaf 3], stopped := [] })]
      objs := [(5, anObj)], reports := [{ obj := 5, incr := [1], fault := none, stage := 0 }] }
    (s.lull 0).inbox.find? (fun e => !(s.lull 0).stopped.contains e.ctx) = some (aLeaf 3) ∧ (aLeaf 2).index ^^^ 1 = (aLeaf 3).index ∧
    (s.lull 0).kept[0]? = some (aLeaf 2) ∧ s.isFinal 0 (aLeaf 2) = false ∧
    (s.reports.find? fun r => (s.reports.find? fun x => x.obj == r.obj) == some r && r.fault.isNone &&
      (r.stage = 0 || s.objStored r.obj)).isSome = true ∧ s.objStored 5 = true ∧
    anObj.lines + 1 < anObj.decl.lines ∧ (s.obj? 5).isSome = true ∧
    ((s.reportLocs anObj false).all fun c => match c with
      | .ok loc => s.devWritable loc
      | .error _ => false) = true := by decide +kernel

/-- A parent by hand (R66, R285): 1 + 1 = 2 at level 1, index 1. -/
theorem test_parent : let p := parentEntry (aLeaf 2) (aLeaf 3) 1
    (p.level, p.index, p.vals[(0 : Fin 32)]) = (1, 1, 0x40000000) := by decide +kernel

/-- The probe's device with launch queue 0 enabled, and queue 48 holding one record of a launch without blocks of its own kind. -/
def launching (l : Launch) : State :=
  let s := issuing probe
  { s with
    mmio := SMap.put s.mmio 8 0x80000004
    launches := [(0, l)]
    queues := [(0, { head := 0, tail := 1, records := [], current := none, hold := none })] }

/-- `LaunchesStartPlaceAndComplete`: a tail in range, one too far and one that goes back; a head to read; a device queue's record that no
refusal hits; a launch whose counters are absent; a block that fits; a launch whose one block has ended. -/
theorem test_witness_launches :
    let s := launching (bootLaunch 0)
    let two := { bootLaunch 0 with record := (bootLaunch 0).record + (2 : BitVec 1024) <<< 736, placed := [0], startable := true }
    let ended0 := { bootLaunch 0 with ended := [0] }
    ((s.reg 8 8).getLsbD 31 = true ∧ (s.queue 0).hold = none ∧ (s.queue 0).current = none ∧ (s.queue 0).head ≠ (s.queue 0).tail) ∧
    (2 ^ 4 < ((17 : Word) - (s.queue 0).head).toNat ∧ ¬ 2 ^ 4 < ((16 : Word) - (s.queue 0).head).toNat ∧
      ((0 : Word) - (s.queue 0).head).toNat < ((s.queue 0).tail - (s.queue 0).head).toNat) ∧
    (let m := { newLaunch 0x20000 ((bootLaunch 0).record.toNat + 48 * 2 ^ 850) 0 48 with places := [] }
     m.f 576 64 = 0 ∧ ({ s with launches := SMap.put s.launches (SMap.fresh s.launches) m }.refusal m false).isNone = true) ∧
    (let d := { s with
       mmio := SMap.put s.mmio 1544 0x80000004
       queues := [(48, { head := 0, tail := 1, records := [(0x20000, 0, (bootLaunch 0).record)], current := none, hold := none })] }
     s.aborted (s.headCtx 0) = false ∧ s.aborted 0 = false ∧
       (d.reg (32 * 48 + 8) 8).getLsbD 31 = true ∧ (d.queue 48).hold = none ∧ (d.queue 48).head ≠ (d.queue 48).tail) ∧
    (match s.waitMet (bootLaunch 0) ((bootLaunch 0).f 384 64) ((bootLaunch 0).f 448 32) with
      | .ok (.inr true) => true
      | _ => false) = true ∧
    (let s := { launching two with mmio := SMap.put (launching two).mmio 0x30000 (BitVec.ofNat 64 (2 ^ 12 + 2)) }
     s.waitingBlock two = none ∧ s.placing two = true ∧ s.outranked 0 two = false ∧ two.isGang = false ∧ two.started = true ∧
       two.placed.length + 1 < two.nblocks ∧ s.mayPlace 0 two 1 s.self 0 = true ∧ s.fits two 0 = true) ∧
    (ended0.complete = false ∧ ended0.placed.length = ended0.nblocks ∧ ended0.ended.length = ended0.nblocks ∧ ended0.home = none ∧
      (launching ended0).entries = []) := by decide +kernel

/-- `IssueStageEventsAct`: a warp due for regrouping, one with a program counter that has not issued for 64 cycles, one that has waited
16; an issue under way. -/
theorem test_witness_issue_stage :
    ({ probe with regrouped := false } : Warp).regrouped = false ∧
    (∀ l : Fin 32, ((({ probe with since := Lanes.all 64 } : Warp).regs.threads[l]).live && decide (64 ≤ ({ probe with since := Lanes.all 64 } : Warp).since[l]) &&
      !probe.promoted[l]) = true) ∧
    (probe.urgent = false ∧ 16 ≤ ({ probe with waits := 16 } : Warp).waits) ∧ (issuing probe).cur.isSome = true := by decide +kernel

/-- An outstanding engine fault of operation 7, delivered to its handler. -/
def aFault : EFault :=
  { va := 0x10000000000, elem := 0, ctx := 0, core := 0, slot := 0, queue := 3, cause := 1, kind := 0, recorded := false, handler := true
    entered := false, what := .entry 7 }

/-- `FaultsAreDeliveredAndResolved`: the fault is owed, with an open window and with none; a marked warp; a soft error of each action; the
fault's number and one that is not outstanding. -/
theorem test_witness_faults :
    let s := { working [(7, { anEntry .gemvn 3 with fid := some 2, started := true })] with efaults := [(2, aFault)] }
    let w := probe.newWindow
    (probe.super = false ∧ s.mayEnter probe = true ∧ s.faultOwed 0 0 = some 2 ∧ (s.efaults.find? fun e => e.1 = 2).isSome = true) ∧
    (w.windows ≠ [] ∧ w.openWin.isSome = true ∧ s.mayEnter w = true) ∧ probe.windows = [] ∧
    (∀ a : Nat, a < 5 → a ≠ 3 → s.softTarget { struct := 1, corrected := false, action := a, pa := 0, ctx := 0, unit := 0, warp := some (0, 0)
                                               object := none, window := 0 } = true) ∧
    s.efault? 3 = none ∧ (s.efault? 2).isSome = true ∧ (s.reg 0x2208 8).getLsbD 31 = false ∧ (s.entry? 7).isSome = true := by decide +kernel

/-! ### The fabric, registers, coherence, keys and plans -/

/-- A flit for this device under ctr `ctr` of slot 0. -/
def aFlit (kind ctr : Nat) : Flit :=
  { kind := kind, src := 1, dst := 0, relay := false, slot := false, cls := 0, ctr := ctr, spec := 0, payload := List.replicate 224 0 }

/-- A flit of core 0 toward device 1. -/
def outFlit : OutFlit := { flit := { aFlit 1 0 with src := 0, dst := 1 }, core := 0, draw := false, ack := .none }

/-- The probe's device with port 0 up toward device 1, keys in send slots 0 and 1 and in receive slot 0, and one flit that waits. -/
def linked (f : Port → Port) : State :=
  let s := working []
  { s with
    ports := [(0, f { Port.reset with en := true, pv := true, peer := 1, link := 2 })]
    keys := [(keyId 0 0 0, { key := 0, lid := 0, fresh := false }), (keyId 0 0 1, { key := 1, lid := 0, fresh := true }),
      (keyId 1 0 0, { key := 2, lid := 0, fresh := false })]
    present := 3, hubq := [(1, [outFlit])], mmio := SMap.put s.mmio 0x30000 (BitVec.ofNat 64 (2 ^ 24 + 2 ^ 39 + 2 ^ 42 + 2 ^ 46)) }

/-- A flit sent a number of times. -/
def sent (n : Nat) : Replay := { flit := aFlit 1 0, image := [], sends := n, credit := none, ack := .none }

/-- `PortsCarryFlitsInOrder`: a port with a flit to send; one that owes an acknowledgement; one whose oldest flit was sent once, and 16
times; one at the switch point; a flit of each kind, a pair, one at, below and beyond the next expected ctr, one under a slot without a
key; a control flit. -/
theorem test_witness_ports :
    let s := linked id
    let owing := linked fun x => { x with ackOwed := true }
    let again := fun (n : Nat) => linked fun x => { x with replay := [sent n] }
    let full := linked fun x => { x with txCtr := switchPoint }
    let later := linked fun x => { x with rxNext := 5 }
    let route := aFlit 4 0
    let data := { aFlit 4 1 with spec := 1 }
    (s.nextQueue 0 = some (1, 0) ∧ flitRoute outFlit.flit = false ∧ s.canSeal 0 1 = true ∧ s.mustSwitch 0 = false) ∧
    (owing.controlPort 0 = some 0 ∧ (owing.keySlot 0 0 0).isSome = true ∧ (owing.port 0).limited = false ∧ (owing.port 0).owesControl = true ∧
      owing.mustSwitch 0 = false ∧ ((owing.port 0).unacked.headD ((owing.port 0).rxSlot, (owing.port 0).rxNext)).1 < 2) ∧
    (((again 1).port 0).replay = [sent 1] ∧ (sent 1).sends < 16 ∧ 16 ≤ (sent 16).sends ∧ (again 16).portUp 0 = true) ∧
    (full.mustSwitch 0 = true ∧ full.portUp 0 = true ∧ (full.port 0).txCtr ≤ 0xFFFFFFFF ∧ (full.port 0).replay.length < 512) ∧
    (∀ k : Nat, k < 16 → (aFlit k 0).dst = s.self ∧ (aFlit k 0).kind = k) ∧
    (flitRoute route = true ∧ data.kind = 4 ∧ flitRoute data = false ∧ (s.receive 0 route).portUp 0 = true) ∧
    ((s.keySlot 1 0 1).isNone = true ∧ (s.keySlot 1 0 0).isSome = true ∧ (s.port 0).rxSlot = 0 ∧ (s.port 0).early = []) ∧
    ((aFlit 1 4).ctr < (later.port 0).rxNext ∧ (aFlit 8 5).ctr = (later.port 0).rxNext ∧ (later.port 0).rxNext < (aFlit 1 6).ctr) := by
  decide +kernel

/-- A flit as port 3 of the facing device seals it toward `linked`. -/
def sealedFlit (f : Flit) : Flit :=
  let x := gcmSeal 2 (flitIv 0 1 3 f) (bytesLE 16 (flitHeader f).toNat) f.payload
  { f with body := x.1, tag := x.2 }

/-- `PortsReceiveInOrder`: a sealed flit authenticates. -/
theorem sealedFlit_authentic (f : Port → Port) (hp : (f { Port.reset with en := true, pv := true, peer := 1, link := 2 }).peer = 1)
    (g : Flit) (hs : g.slot = false) : (linked f).authentic 0 (sealedFlit g) = true :=
  have hk : (linked f).keySlot 1 0 (if (sealedFlit g).slot then 1 else 0) = some { key := 2, lid := 0, fresh := false } := by
    simp only [sealedFlit, hs]; rfl
  have hpeer : ((linked f).port 0).peer = 1 := hp
  Laws.authentic_of_seal (q := 3) hk (by decide) (by rw [hpeer]; rfl) (by rw [hpeer]; rfl)

/-- `PortsReceiveInOrder`: what its clauses on authentication ask for, met by sealed flits of every kind below, at and beyond the next ctr. -/
theorem test_witness_sealed (k c : Nat) :
    (linked id).authentic 0 (sealedFlit (aFlit k c)) = true ∧
    (linked fun x => { x with rxNext := 5 }).authentic 0 (sealedFlit (aFlit k c)) = true ∧
    (linked id).authentic 0 (sealedFlit { aFlit 0 c with relay := true }) = true ∧
    (linked id).authentic 0 (sealedFlit { aFlit 0 c with relay := true, dst := 2 }) = true ∧
    (linked id).authentic 0 { aFlit k c with slot := true } = false :=
  ⟨sealedFlit_authentic _ rfl _ rfl, sealedFlit_authentic _ rfl _ rfl, sealedFlit_authentic _ rfl _ rfl, sealedFlit_authentic _ rfl _ rfl,
    Laws.authentic_of_noKey rfl⟩

/-- A duplicate by hand (R341): below the next expected ctr nothing is delivered, the acknowledgement is owed again. -/
theorem test_duplicate_flit :
    let s := linked fun x => { x with rxNext := 5 }
    (stepped (.requestFlit 0 (sealedFlit (aFlit 1 4))) s).map (fun t => ((t.port 0).rxNext, (t.port 0).ackOwed)) = some (5, true) := by
  have h : (linked fun x => { x with rxNext := 5 }).authentic 0 (sealedFlit (aFlit 1 4)) = true := sealedFlit_authentic _ rfl _ rfl
  simp only [stepped, exec, execRequestFlit, State.flitEvent, State.receive, h]
  decide +kernel

/-- `HubGrantsAllowanceAndLosesDevices`: a device without a path and one with; a core that holds a grant it no longer needs; the first
becalmed warp with an allowance of 2; a packet with a name and one without. -/
theorem test_witness_hub :
    let s := linked id
    let w := { probe with wait := some (.becalmed 1) }
    let calm := { s with
      warps := [(0, w)], pools := [(1, { outstanding := 0, becalmed := [0], woken := [], last := none })]
      cores := [(0, { Core.reset with sa := [(1, 2)], interest := [(1, 320)] })] }
    let idle := { calm with warps := [], hubq := [] }
    (1 ≠ s.self ∧ s.present.getLsbD 1 = true ∧ ({ s with ports := [] } : State).pathPorts 1 = []) ∧
    (SMap.get? (idle.core 0).interest 1 = some 320 ∧ idle.warps = [] ∧ idle.hubq = []) ∧
    ((calm.pool 1).becalmed.filter (calm.stillBecalmed 1) = [0] ∧ calm.promised 1 0 + 1 ≤ calm.allowance 0 1) ∧ s.ueReady = true ∧
    (∀ b : Bool, ({ planid := 9, tag := 0, isWrite := b, namesPlan := b, sig := 0, doff := 0, label := 0, present := 0
                    data := [1, 2, 3, 4] } : UePacket).namesPlan = b) := by decide +kernel

/-- `RegistersTakeTheirWrites`: a function that is not ready and may be; a port number and one too far; `ide` up and down. -/
theorem test_witness_registers :
    let s := issuing probe
    ((s.reg 0x30000 0).getLsbD 46 = false ∧ s.mayReady 46 = true) ∧ (1 ≠ 4 ∧ 1 ≠ 8 ∧ 0x2002 % 4 ≠ 0) ∧ (14 < 15 ∧ 15 ≤ 15) ∧
    (s.ide.1 && s.ide.2) = false ∧ ((2 ^ 31 : Nat) : Word).getLsbD 31 = true ∧
    (let t := { s with ide := (true, true) }; (t.ide.1 && t.ide.2) = true) := by decide +kernel

/-- `CoresAndTranslationsAreManaged`: a split of 4 asked for over a block's ways and past them; limits in order and not; no
invalidation and one that runs, with no old access; a move into a smaller area and into one that is as large. -/
theorem test_witness_cores :
    let s := issuing probe
    let four := { s with cores := [(0, { Core.reset with newWays := some 4 })] }
    let busy := { s with inval := some (0, 0, 4096, 0) }
    let v : Word := BitVec.ofNat 32 (2 ^ 28)
    let area := { s with
      mmio := SMap.put s.mmio 0x2048 (BitVec.ofNat 64 (s.spillRecs 0))
      ctxs := SMap.put s.ctxs 0 (BitVec.ofNat 512 (s.ctxEntry 0 + 2 ^ 300 - 2 ^ 300)) }
    ((s.core 0).newWays = none ∧ (four.core 0).newWays = some 4 ∧ s.pinsFit 0 2 = true ∧ (∀ e ∈ four.blocksOn 0, e.2.base + e.2.size ≤ 65536 * 4) ∧
      (four.core 0).ways = 8) ∧
    (s.core 0).step = 16 ∧ s.inval = none ∧ busy.oldAccess 0 0 4096 0 = false ∧ v.toNat / 2 ^ 28 % 4 = 1 ∧
    area.spillRecs 0 ≤ (area.reg 0x2048 0).toNat := by decide +kernel

/-- A context of the probe whose spill area has 4 records, none valid, so that a move to 8 records at 0x100000 or to 2 has its case. -/
theorem test_witness_spill_move :
    let s := issuing probe
    let base := (s.setSpillArea 0 0x80000 4)
    let u := fun (n : Nat) => { base with mmio := SMap.put (SMap.put base.mmio 0x2048 (BitVec.ofNat 64 n)) 0x2040 0x100000 }
    ((u 2).reg 0x2048 0).toNat < (u 2).spillRecs 0 ∧
    ((u 8).spillRecs 0 ≤ ((u 8).reg 0x2048 0).toNat ∧ overlaps 0x100000 (256 * 8) ((u 8).spillBase 0) (256 * (u 8).spillRecs 0) = false ∧
      0x100000 / 2 ^ 48 = (u 8).self ∧ paExists 0x100000 = true ∧ paExists (0x100000 + 256 * 8 - 1) = true ∧
      ((u 8).moveRecords ((u 8).spillBase 0) 0x100000 8 ((u 8).spillValid ((u 8).spillBase 0) ((u 8).spillRecs 0))).isSome = true) := by
  decide +kernel

/-- `ContextsArePreemptedAndRestored`: a request for the probe's launch and for one that is not there; a request all of whose named
warps have stopped, with a length that holds its records; a record list that is malformed. -/
theorem test_witness_preempt :
    let s := issuing probe
    let p : Preempt := { launches := [0], whole := false, ctx := 0 }
    let stopped := { s with
      cur := none, preempt := some p, warps := [(0, { probe with halt := some .preempt })] }
    let bad := { s with mmio := SMap.put (SMap.put s.mmio 0x2314 64) 0x2308 0x100000 }
    s.preempt = none ∧ (s.launches.filter fun e => !e.2.complete && e.2.va.toNat = 0) ≠ [] ∧
    (s.launches.filter fun e => !e.2.complete && e.2.va.toNat = 0x5000) = [] ∧
    stopped.saveReady p = true ∧ p.whole = false ∧ bad.headers 5 0x100000 64 = none ∧
    (((s.headers 1 0 0).bind s.readRecords).isSome = true) := by decide +kernel

/-- The probe's device with a line held, and a window of the probe with one store to a sync page. -/
def syncing : State :=
  let x := (probe.newWindow).windows
  let w := { probe with windows := x.map fun x => { x with isClosed := true, stores := [{ loc := .mem 0x20000, data := [1, 2, 3, 4], va := 0x20000, sync := true }] } }
  { working [] 0 w with l1 := [(tagKey 3 0x400, { readCount := 0, vane := 0, valid := true, lacks := 0, leaving := false })] }

/-- `LinesAndPagesChangeHands`: a line that may be read and written; a window whose update of line 0x400 is due; an update with one
acknowledgement owed; pages of every state; a page of device 1; a recall with two acknowledgements owed; a driver's recall. -/
theorem test_witness_lines :
    let s := syncing
    let w := (s.warp 0 0).getD probe
    let x := w.windows.headD { serial := 0, ck := probe.regs, vOld := [], vregs := [], isClosed := false, accesses := 0, words := 0, reads := [], pages := []
                               stores := [], ringOps := [], entries := [], touch := none, streak := 0, steady := false, updates := [] }
    let shared := { s with pages := [(32, { state := .shared [2], used := 1 })] }
    let called := { s with recalls := [{ page := 32, devs := [1, 2], owed := [1, 2], then_ := none, driver := true }] }
    (0x400 / 2 ^ 41 = s.self ∧ s.readable (.mem (0x400 * 128)) = true ∧ s.writable (.mem (0x400 * 128)) = true ∧
      s.readable (.mem (0x400 * 128 + 64)) = true ∧ s.writable (.mem (0x400 * 128 + 64)) = true) ∧
    (w.windows = [x] ∧ x.isClosed = true ∧ w.released x.serial = true ∧ s.unwritable 0 x = none ∧ s.pinned 3 = [] ∧ 0x400 ∈ x.syncLines ∧
      (∀ u ∈ x.updates, u.1 ≠ 0x400) ∧ s.busyLine 0x400 = false ∧ s.noWay 3 [0x400] = none ∧ s.lineSync 0x400 = false ∧ (s.hostBlocks 0x400 true).isNone = true ∧ s.sharers 0x400 = [] ∧
      (∀ e ∈ s.warps, e.2.victim (.line 0x400) = none)) ∧
    (s.recalls = [] ∧ s.pages.length < 65536 ∧ SMap.get? s.pages 32 = none ∧ s.lends = true ∧
      (linesOf 32).any s.lineSync = false ∧ (SMap.get? shared.pages 32).map (fun (p : Page) => p.state) = some (.shared [2])) ∧
    ((2 ^ 36 + 5) / 2 ^ 36 ≠ s.self ∧ s.mayRecall (2 ^ 36 + 5) = true ∧ (linesOf (2 ^ 36 + 5)).any s.hubBit = false) ∧
    (((called.recalls.find? fun r => r.page = 32 % 2 ^ 36 && r.owed.contains 1).map fun r => r.owed.erase 1) = some [2] ∧
      (∃ r ∈ called.recalls, r.driver = true)) ∧ s.lends = true ∧
    (({ s with mmio := SMap.put s.mmio 0x2400 0 } : State).lends) = false := by decide +kernel

/-- An update by hand (R415): the core that holds the line owes its acknowledgement. -/
theorem test_sync_update : (stepped (.syncUpdate 0 0 0x400) syncing).bind (fun t => (SMap.get? t.updates 0x400).map (·.owed)) = some [3] := by
  decide +kernel

/-- `HostAndDeviceShareMemory`: the window off and on over own memory; a back-invalidation that is owed; a sector that was asked for. -/
theorem test_witness_host :
    let s := working []
    let on := { s with mmio := SMap.put (SMap.put s.mmio 0x2500 (BitVec.ofNat 64 (2 ^ 30))) 0x2510 1, pages := [] }
    let asked := { s with backInv := [(0x800, true)], wanted := [(2 ^ 46 + 7, true)] }
    (s.reg 0x2500 0).getLsbD 30 = false ∧ (on.reg 0x2500 0).getLsbD 30 = true ∧ on.inWindow 0x20000 = true ∧ on.busyLine 0x400 = false ∧ SMap.get? on.pages 32 = none ∧
    (asked.backInv.find? fun r => r.1 = 0x800) = some (0x800, true) ∧ (∃ r ∈ asked.wanted, r.1 = 2 ^ 46 + 7) ∧
    (∀ n : Nat, n < 4 → (on.reg (0x2600 + 16 * n) 0).toNat % 2 = 0) ∧ (List.replicate 64 (0 : Byte)).length = 64 := by decide +kernel

/-- A plan image at 0x40000 with two counters and one work entry (R306, R307). -/
def planImage : Nat :=
  2 ^ 448 + 9 * 2 ^ 416 + 2 * 2 ^ 400 + 2 ^ 384 + 2 ^ 368 + 2 ^ 288 + 2 ^ 276 + 2 ^ 224

/-- Its work entry: armed by counter 0 at 1, a one-sided write of 4 bytes to member 0. -/
def workImage : Nat := 2 ^ 224 + 2 ^ 200 + 2 ^ 188 + 4 * 2 ^ 96

/-- `KeysAndPlansAreLoadedAndErased`: commands for an empty slot, a full one and none; a session, none and two failures; an image that
passes its checks and one of zeros; a plan with an instance and one without. A key that unwraps is the key store's affair. -/
theorem test_witness_keys_and_plans :
    let s := linked id
    let load : Nat := 2 ^ 28 + 2 ^ 26
    let loaded := { s with
      plans := [(0, aPlan)], kek := some 0, spdm := (2, true)
      mem := Memory.write (Memory.write s.mem 0x40000 (bytesLE 64 planImage)) 0x40040 (bytesLE 32 workImage) }
    let runs := { loaded with insts := [(3, anInst)] }
    (load / 2 ^ 28 % 4 = 1 ∧ keyPlace 1 0 = true ∧ s.keySlot 1 0 1 = none ∧ (s.keySlot 1 0 0).isSome = true ∧ s.alarmed = false ∧
      s.kek = none ∧ loaded.kek = some 0 ∧ keyPlace 0 15 = false ∧ (0 : Nat) = (s.port 0).txSlot) ∧
    (s.spdm.1 < 2 ∧ 2 ≤ loaded.spdm.1 ∧ loaded.spdm.2 = true ∧ (loaded.reg 0x30000 0).getLsbD 39 = true) ∧
    ((planOf 0x20000 fun a n => loaded.memNat (0x20000 + a) n) = none ∧
      (planOf 0x40000 fun a n => loaded.memNat (0x40000 + a) n).map (fun p => (p.planid, p.nctr, p.work.length)) = some (9, 2, 1)) ∧
    (SMap.get? loaded.plans 0 = some aPlan ∧ loaded.planRuns aPlan.planid = false ∧ runs.planRuns aPlan.planid = true) := by
  decide +kernel

/-- The blocks that latch, all but core 0. -/
def allButOne : List Nat := snapBlocks.filter (· != 0)

/-- `SnapshotsLatchEveryBlock`: a source that is enabled and one that is not; a snapshot in which core 0 has not latched, one that has
every block. -/
theorem test_witness_snapshots :
    let s := working []
    let p : Snap := { seq := 1, src := 0, tag := 0, core := 0, latched := allButOne, spread := true }
    let q := { p with latched := snapBlocks }
    (s.reg 0x50000 0x3F).getLsbD 1 = true ∧ (({ s with mmio := SMap.put s.mmio 0x50000 0 } : State).reg 0x50000 0x3F).getLsbD 1 = false ∧
    s.snap = none ∧ s.missingPiece true 0x40000 64 = none ∧ 0 ∈ snapBlocks ∧ 0 ∉ p.latched ∧ (∀ b ∈ snapBlocks, b ∈ q.latched) ∧ q.spread = true ∧
    (s.reg 0x5001C 0).toNat ≠ q.seq.toNat := by decide +kernel

/-- `PrecopyPowerAndReset`: a pass that runs and none; a key and a ready port, or neither; a receiver that is on, and a record it
refuses. -/
theorem test_witness_precopy :
    let s := linked id
    let ready := { s with keys := SMap.put s.keys (keyId 3 0 0) { key := 0, lid := 0, fresh := true } }
    let idlePass : PassRun := { ctl := 2 ^ 24, pos := (0, 0), halves := [], records := [] }
    let sending := { ready with pass := some { idlePass with halves := [(0, 6)] } }
    let passing := { ready with pass := some idlePass }
    let dirty := { passing with
      mem := [(0x3001, 8)], mmio := SMap.put (SMap.put passing.mmio 0x2600 0x3001) 0x2608 1 }
    let r : PrecopyRecord := { version := 2, pass := 1, ctr := 0, range := 0, offset := 0, payload := [], tag := [] }
    let takes := { s with mmio := SMap.put s.mmio 0x2700 (BitVec.ofNat 64 (2 ^ 20)) }
    s.pass = none ∧ passing.pass.isSome = true ∧ passing.nextWord idlePass = none ∧
    (sending.passKey (2 ^ 24)).isSome = true ∧ (dirty.passKey (2 ^ 24)).isSome = true ∧ dirty.nextWord idlePass = some (0, 0) ∧
    dirty.dirtyBits 0 0 = [11] ∧ (ready.keySlot 3 0 0).isSome = true ∧ (ready.reg 0x30000 0).getLsbD 42 = true ∧
    sending.missingPiece false (6 * 2048) 2048 = none ∧ dirty.missingPiece true 0x3000 8 = none ∧ takes.missingPiece true 0 880 = none ∧
    s.keySlot 3 0 0 = none ∧ (takes.reg 0x2700 0).getLsbD 20 = true ∧ takes.openRecord r = none ∧
    (∀ n : Nat, n < 4 → (s.reg (0x2600 + 16 * n) 0).toNat % 2 = 0) := by decide +kernel

/-! ### Frames, memory, encodings, the step -/

/-- `RegisterWordsLeaveTheRest`: every word of it issues in the probe and has a next state. -/
theorem test_witness_frames :
    (∀ r ∈ plainWords, opensB (r plain (.q 0) (.q 2) (.q 3)) = true ∧ (stepped (r plain (.q 0) (.q 2) (.q 3))).isSome = true) ∧
    (∀ r ∈ exactWords, opensB (r.word plain (.q 0) (.q 2) (.q 3)) = true ∧ (stepped (r.word plain (.q 0) (.q 2) (.q 3))).isSome = true) ∧
    (∀ r ∈ intCompares, opensB (r.1 plain true 1 (.q 2) (.q 3)) = true ∧ (stepped (r.1 plain true 1 (.q 2) (.q 3))).isSome = true) := by
  decide +kernel

/-- The same of its floating-point words, on 1.5 and 2.5; `FRND` takes its mode from a constant. -/
theorem test_witness_float_frames :
    ∀ r ∈ float32, ∃ b ∈ [Near.q 11, .k 0], opensB (r.word plain (.q 0) (.q 10) b) = true ∧
      snanTrap (probe.active plain every) (r.srcs (.q 0) (.q 10) b probe) = none ∧
      (stepped (r.word plain (.q 0) (.q 10) b)).isSome = true := by decide +kernel

/-- `MemoryReadsWhatWasWritten`, `EveryStepKeepsTheFormOfMemory`, `DecodeAndEncodeAgree`: memories in canonical form, a state whose
step answers a next one, an instruction that words encode. -/
theorem test_witness_invariant :
    Memory.wf (Memory.write [] 5 [1, 2]) = true ∧ MemoryOk (State.reset.withFetchWord 32 0x00019043) ∧
    (match step (State.reset.withFetchWord 32 0x00019043) with
      | .next _ => true
      | _ => false) = true ∧
    (Instr.ffmaF32 plain (.q 4) (.q 2) (.q 3)).encodable = true ∧ (∃ i, decode [0x00019043] = .ok i) := by
  refine ⟨by decide +kernel, ⟨by decide +kernel, by decide +kernel⟩, by decide +kernel, by decide +kernel, _, rfl⟩

/-- What the issue after `withFetchWord` comes to: the state, the warp, its first candidate and the next one, the packet's words. -/
def comesTo (nbits w : Nat) : Option (State × Warp × Cand × Option Cand × List Word) :=
  let s := State.reset.withFetchWord nbits w
  let s0 := ({ s with agenda := [] }).countWaits 0 0
  (s0.warp 0 0).bind fun w0 => (s0.ready 0 0 w0).bind fun w1 =>
    let s1 := (s0.setWarp 0 0 { w1 with clk := w1.clk, waits := 0, urgent := false }).flushSteady 0 0
    (s1.warp 0 0).bind fun w2 =>
      let at_ := w2.pastCrossings (w2.cands )
      let w := { at_.1 with yielded := Lanes.all false }
      (bestCand at_.2).bind fun a =>
        let u := s1.setWarp 0 0 w
        match u.fetchPacket 0 w a.pc.packet with
        | .packet ws => some (u, w, a, bestCand (at_.2.filter fun c => c.pc != a.pc), ws)
        | _ => none

/-- `StepRunsTheDecodedWord`: the issue after `withFetchWord` comes to the words placed there: one that decodes, one that does not, a
chained one; and a device with nothing due whose first-ranked warp issues. -/
theorem test_witness_step :
    (State.reset.withFetchWord 32 0x00019043).agenda = [.issue 0 0 0] ∧
    ((comesTo 32 0x00019043).map fun x => (x.2.2.2.1.isNone, x.2.2.2.2.drop x.2.2.1.pc.word |>.head?)) = some (true, some 0x00019043) ∧
    ((comesTo 32 0x007FF000).map fun x => (decode (x.2.2.2.2.drop x.2.2.1.pc.word)).toOption) = some none ∧
    ((comesTo 64 (0x007C0000 * 2 ^ 32 + 0x80019043)).map fun x => (x.2.2.1.solo, match x.2.2.2.2.drop x.2.2.1.pc.word with
      | word :: word2 :: more2 => (match decode (word :: word2 :: more2), decode (word2 :: more2) with
        | .ok i, .ok j => i.chained && !i.isLit && !pairBroken i j word word2
        | _, _ => false)
      | _ => false)) = some (false, true) ∧
    (let s := { issuing probe with cur := none, mem := (State.reset.withFetchWord 32 0x00019043).mem }
     firstMove s s.due = none ∧ (s.ranked.head?.map (·.1)) = some 0 ∧ s.idleTurn = false) := by decide +kernel

/-! ### Completion of the scheduler's steps, of coherence and of the service engines -/

/-- The device of a launch that stands at the head of queue 0. -/
def scheduling (l : Launch) : State := { launching l with queues := [(0, { head := 0, tail := 1, records := [], current := some 0, hold := none })] }

/-- `SchedulerAndContextStepsComplete`: a tail one record on; a head without wait counters; a launch whose one block has ended, at an
address that may be written; requests for the probe's launch; a save whose warps have stopped; a list of a
context record alone. How long a record is the manual leaves open. A block that fits is in `test_witness_launches`. -/
theorem test_witness_scheduler_completes :
    let held := { bootLaunch 0 with startable := false }
    let s := scheduling held
    let ended0 := { bootLaunch 0 with va := 0x20000, ended := [0] }
    let o := launching ended0
    let v : Word := BitVec.ofNat 32 (2 ^ 28)
    let p : Preempt := { launches := [0], whole := false, ctx := 0 }
    let named := fun (req ctx : Nat) => s.launches.filter fun e => !e.2.complete &&
      if req % 2 = 1 then decide (e.2.ctx = ctx) else decide (e.2.va.toNat = req / 2 * 2)
    let small := { issuing probe with cur := none, preempt := some p, warps := [(0, { probe with halt := some .preempt })] }
    ((s.queue 0).tail - (s.queue 0).head = 1 ∧ (2 : Word).toNat ≤ 2 ^ max 4 (min 15 ((s.reg 8 8).toNat % 16))) ∧
    ((s.reg 8 8).getLsbD 31 = true ∧ (s.queue 0).hold = none ∧ (s.queue 0).current = some 0 ∧ SMap.get? s.launches 0 = some held ∧
      held.owedFault = none ∧ held.f 384 64 = 0 ∧ held.f 512 64 = 0) ∧
    (ended0.complete = false ∧ ended0.home = none ∧ ended0.placed.length = ended0.nblocks ∧ ended0.ended.length = ended0.nblocks ∧
      o.entries = [] ∧ ended0.f 256 64 = 0 ∧ ended0.writes = [] ∧ ended0.owedFault = none ∧ o.stored (.launch 0) = true ∧
      locOk o.writable (o.schedLoc ended0.ctx ended0.va.toNat .write) = true) ∧
    (s.preempt = none ∧ named 0 0 ≠ [] ∧ named ((s.reg 0x2300 0).toNat) (v.toNat % 4096) ≠ [] ∧ v.toNat / 2 ^ 28 % 4 = 1) ∧
    (small.saveReady p = true ∧ p.whole = false ∧ small.preempt = some p) ∧
    ((2 ^ 29 : Nat) / 2 ^ 28 % 4 = 2 ∧ (s.headers 1 0x100000 0).isSome = true ∧
      (s.restoreList [.context 0 0 0 0 true]).isSome = true) := by decide +kernel

/-- `CoherenceAndServiceStepsComplete`: a free line of the device; a page that is shared and no recall; a pass that has its key and port;
a dump. The other clauses have the states of `test_witness_lines` and `test_witness_precopy`. -/
theorem test_witness_coherence_completes :
    let s := working []
    let both := fun (p : Loc → Bool) => p (.mem (0x400 * 128)) = true ∧ p (.mem (0x400 * 128 + 64)) = true
    let shared := { s with pages := [(32, { state := .shared [2], used := 1 })] }
    let l := linked id
    let ready := { l with keys := SMap.put l.keys (keyId 3 0 0) { key := 0, lid := 0, fresh := true } }
    both s.readable ∧ both s.writable ∧ (s.dirLine 0x400).st = .i ∧ (s.pinned 0).contains 0x400 = false ∧
    (SMap.get? shared.pages (32 * 2 ^ 12 / 2 ^ 12 % 2 ^ 36)).isSome = true ∧ shared.recalls = [] ∧
    (ready.pass = none ∧ (ready.keySlot 3 0 0).isSome = true ∧ (ready.reg 0x30000 0).getLsbD 42 = true ∧ (2 ^ 28 : Nat) / 2 ^ 28 % 4 = 1) ∧
    (∀ n : Nat, n < 4 → (s.reg (0x2600 + 16 * n) 0).toNat % 2 = 0) := by decide +kernel

end Sys2Proof.Tests
end

section
/-! PROOFS. What a read of memory answers: after a write, in canonical form, and of a number laid out by bytes (R3, R78). -/
namespace Sys2Proof

/-! ### Reads of joined and of filtered lists of cells -/

theorem Memory.read_append_of_unlisted_left (m n : Memory) (x : Nat) (h : ∀ c ∈ m, c.1 ≠ x) :
    Memory.read (m ++ n) x = Memory.read n x := by
  induction m with
  | nil => rfl
  | cons c t ih =>
    have hc : x ≠ c.1 := (h c List.mem_cons_self).symm
    simp [Memory.read, hc, ih fun d hd => h d (List.mem_cons_of_mem c hd)]

theorem Memory.read_eq_zero_of_unlisted (m : Memory) (x : Nat) (h : ∀ c ∈ m, c.1 ≠ x) : Memory.read m x = 0 := by
  simpa [Memory.read] using Memory.read_append_of_unlisted_left m [] x h

theorem Memory.read_append_of_unlisted_right (m n : Memory) (x : Nat) (h : ∀ c ∈ n, c.1 ≠ x) :
    Memory.read (m ++ n) x = Memory.read m x := by
  induction m with
  | nil => exact Memory.read_eq_zero_of_unlisted n x h
  | cons c t ih => simp [Memory.read, ih]

/-- A filter that keeps every cell at `x` keeps what is read there. -/
theorem Memory.read_filter_of_keeps (m : Memory) (p : Nat × Byte → Bool) (x : Nat) (h : ∀ b, p (x, b) = true) :
    Memory.read (m.filter p) x = Memory.read m x := by
  induction m with
  | nil => rfl
  | cons c t ih =>
    obtain ⟨a, b⟩ := c
    by_cases hx : x = a
    · subst hx
      simp [Memory.read, h b]
    · by_cases hp : p (a, b) = true <;> simp [hp, Memory.read, hx, ih]

/-! ### A write, read back (R78) -/

/-- The zero bytes of the string are not listed, and read zero all the same. -/
theorem Memory.read_cells_add (bs : List Byte) (a i : Nat) :
    Memory.read (Memory.cells a bs) (a + i) = (bs[i]?).getD 0 := by
  induction bs generalizing a i with
  | nil => rfl
  | cons b t ih =>
    cases i with
    | zero =>
      have rest : Memory.read (Memory.cells (a + 1) t) a = 0 :=
        Memory.read_eq_zero_of_unlisted _ _ fun c hc => by
          have := Memory.cells_range t (a + 1) c hc
          omega
      rw [Memory.cells]
      split
      next hb => simp [rest, hb]
      next => simp [Memory.read]
    | succ i =>
      have tail : Memory.read (Memory.cells (a + 1) t) (a + (i + 1)) = (t[i]?).getD 0 := by
        rw [← ih (a + 1) i]
        congr 1
        omega
      rw [Memory.cells]
      split
      next => simp [tail]
      next => simp [Memory.read, tail]

theorem Memory.read_write_below (m : Memory) (a x : Nat) (bs : List Byte) (h : x < a) :
    Memory.read (Memory.write m a bs) x = Memory.read m x := by
  have cells : ∀ c ∈ Memory.cells a bs, c.1 ≠ x := fun c hc => by
    have := Memory.cells_range bs a c hc
    omega
  have above : ∀ c ∈ m.filter fun c => a + bs.length ≤ c.1, c.1 ≠ x := fun c hc => by
    have := of_decide_eq_true (List.mem_filter.1 hc).2
    omega
  rw [Memory.write, Memory.read_append_of_unlisted_right _ _ x above, Memory.read_append_of_unlisted_right _ _ x cells]
  exact Memory.read_filter_of_keeps m _ x fun _ => decide_eq_true h

theorem Memory.read_write_within (m : Memory) (a i : Nat) (bs : List Byte) (h : i < bs.length) :
    Memory.read (Memory.write m a bs) (a + i) = bs[i] := by
  have below : ∀ c ∈ m.filter fun c => c.1 < a, c.1 ≠ a + i := fun c hc => by
    have := of_decide_eq_true (List.mem_filter.1 hc).2
    omega
  have above : ∀ c ∈ m.filter fun c => a + bs.length ≤ c.1, c.1 ≠ a + i := fun c hc => by
    have := of_decide_eq_true (List.mem_filter.1 hc).2
    omega
  rw [Memory.write, Memory.read_append_of_unlisted_right _ _ _ above, Memory.read_append_of_unlisted_left _ _ _ below,
    Memory.read_cells_add]
  simp [h]

theorem Memory.read_write_above (m : Memory) (a x : Nat) (bs : List Byte) (h : a + bs.length ≤ x) :
    Memory.read (Memory.write m a bs) x = Memory.read m x := by
  have written : ∀ c ∈ m.filter (fun c => c.1 < a) ++ Memory.cells a bs, c.1 ≠ x := fun c hc => by
    rcases List.mem_append.1 hc with hc | hc
    · have := of_decide_eq_true (List.mem_filter.1 hc).2
      omega
    · have := Memory.cells_range bs a c hc
      omega
  rw [Memory.write, Memory.read_append_of_unlisted_left _ _ x written]
  exact Memory.read_filter_of_keeps m _ x fun _ => decide_eq_true h

/-- The three ranges of a write in one equation: below it, inside it, past its end. -/
theorem Memory.read_write (m : Memory) (a x : Nat) (bs : List Byte) :
    Memory.read (Memory.write m a bs) x =
      if a ≤ x then (bs[x - a]?).getD (Memory.read m x) else Memory.read m x := by
  split
  next ha =>
    obtain ⟨i, rfl⟩ := Nat.exists_eq_add_of_le ha
    rw [Nat.add_sub_cancel_left]
    by_cases hi : i < bs.length
    · simp [Memory.read_write_within m a i bs hi, hi]
    · have past : bs.length ≤ i := Nat.le_of_not_lt hi
      simp [Memory.read_write_above m a (a + i) bs (by omega), past]
  next ha => exact Memory.read_write_below m a x bs (Nat.lt_of_not_le ha)

/-! ### The canonical form -/

/-- Where addresses rise strictly, each listed cell is the one that is read at its address. -/
theorem Memory.read_of_mem (m : Memory) (sorted : m.Pairwise fun c d => c.1 < d.1) (c : Nat × Byte) (hc : c ∈ m) :
    Memory.read m c.1 = c.2 := by
  induction m with
  | nil => cases hc
  | cons d t ih =>
    obtain ⟨first, rest⟩ := List.pairwise_cons.1 sorted
    rcases List.mem_cons.1 hc with rfl | ht
    · simp [Memory.read]
    · have : c.1 ≠ d.1 := (Nat.ne_of_lt (first c ht)).symm
      simp [Memory.read, this, ih rest ht]

theorem Memory.mem_of_read_ne_zero (m : Memory) (a : Nat) (h : Memory.read m a ≠ 0) : (a, Memory.read m a) ∈ m := by
  induction m with
  | nil => exact absurd rfl h
  | cons c t ih =>
    by_cases hc : a = c.1
    · simp [Memory.read, hc]
    · simp only [Memory.read, if_neg hc] at h ⊢
      exact List.mem_cons_of_mem c (ih h)

/-- In canonical form the listed cells are exactly the nonzero bytes that are read. -/
theorem Memory.mem_iff_read (m : Memory) (h : Memory.wf m = true) (c : Nat × Byte) :
    c ∈ m ↔ Memory.read m c.1 = c.2 ∧ c.2 ≠ 0 := by
  obtain ⟨nonzero, sorted⟩ := (Memory.wf_iff m).1 h
  constructor
  · exact fun hc => ⟨Memory.read_of_mem m sorted c hc, nonzero c hc⟩
  · rintro ⟨hread, hne⟩
    have := Memory.mem_of_read_ne_zero m c.1 (hread ▸ hne)
    rwa [hread] at this

/-- Equal reads list equal cells, and strictly rising addresses leave one order for them. -/
theorem Memory.ext_of_read (m n : Memory) (hm : Memory.wf m = true) (hn : Memory.wf n = true)
    (h : ∀ a, Memory.read m a = Memory.read n a) : m = n := by
  obtain ⟨-, sm⟩ := (Memory.wf_iff m).1 hm
  obtain ⟨-, sn⟩ := (Memory.wf_iff n).1 hn
  have nodup : ∀ {k : Memory}, (k.Pairwise fun c d => c.1 < d.1) → k.Nodup := fun sk =>
    sk.imp fun hlt heq => absurd (congrArg Prod.fst heq) (Nat.ne_of_lt hlt)
  have same : m.Perm n := (List.perm_ext_iff_of_nodup (nodup sm) (nodup sn)).2 fun c => by
    rw [Memory.mem_iff_read m hm, Memory.mem_iff_read n hn, h]
  exact same.eq_of_pairwise (fun _ _ _ _ hlt hgt => absurd hgt (Nat.lt_asymm hlt)) sm sn

/-! ### Numbers laid out by bytes, least significant first (R3) -/

@[simp] theorem length_bytesLE (k x : Nat) : (bytesLE k x).length = k := by
  induction k generalizing x with
  | zero => rfl
  | succ k ih => simp [bytesLE, ih]

theorem leNat_bytesLE (k x : Nat) : leNat (bytesLE k x) = x % 2 ^ (8 * k) := by
  induction k generalizing x with
  | zero => simp [bytesLE, leNat, Nat.mod_one]
  | succ k ih =>
    have width : 2 ^ (8 * (k + 1)) = 256 * 2 ^ (8 * k) := by rw [Nat.mul_succ, Nat.pow_add, Nat.mul_comm]
    simp [bytesLE, leNat, ih, width, Nat.mod_mul]

theorem Memory.readN_eq_map (m : Memory) (a n : Nat) :
    Memory.readN m a n = (List.range n).map fun i => Memory.read m (a + i) := by
  induction n generalizing a with
  | zero => rfl
  | succ n ih => simp [Memory.readN, ih, List.range_succ_eq_map, Nat.add_comm, Nat.add_left_comm]

theorem Memory.readN_write_same (m : Memory) (a : Nat) (bs : List Byte) :
    Memory.readN (Memory.write m a bs) a bs.length = bs := by
  rw [Memory.readN_eq_map]
  refine List.ext_getElem (by simp) fun i _ hi => ?_
  simp [Memory.read_write_within m a i bs hi]

theorem Memory.leNat_readN_write_bytesLE (m : Memory) (a k x : Nat) :
    leNat (Memory.readN (Memory.write m a (bytesLE k x)) a k) = x % 2 ^ (8 * k) := by
  have := Memory.readN_write_same m a (bytesLE k x)
  rw [length_bytesLE] at this
  rw [this, leNat_bytesLE]

/-- Settles O53: a write by its three ranges, canonical memories by the cells they list, numbers byte by byte. -/
theorem memoryReadsWhatWasWritten : Obligations.MemoryReadsWhatWasWritten :=
  ⟨Memory.read_write, Memory.ext_of_read, Memory.leNat_readN_write_bytesLE⟩

end Sys2Proof
end

section
/-! PROOFS. The words that choose lanes: `SEL` (R33) and `ELECT` (R34). -/
namespace Sys2Proof

/-! ### Lane sets -/

/-- A write asks for its values in the written lanes alone. -/
theorem Lanes.write_congr {α : Type} (old : Lanes α) (m : LaneSet) {f g : Fin 32 → α} (h : ∀ l : Fin 32, m[l] = true → f l = g l) :
    Lanes.write old m f = Lanes.write old m g := by
  refine Lanes.ext_lanes fun l => ?_
  rw [Lanes.getElem_write, Lanes.getElem_write]
  split
  next hl => exact h l hl
  next => rfl

theorem LaneSet.lowest_eq_some_iff (m : LaneSet) (l : Fin 32) :
    LaneSet.lowest m = some l ↔ m[l] = true ∧ ∀ j : Fin 32, j < l → m[j] = false := by
  rw [LaneSet.lowest, lanesUp, List.find?_eq_some_iff_getElem]
  constructor
  · rintro ⟨hl, i, hi, rfl, below⟩
    refine ⟨hl, fun j hj => ?_⟩
    simpa using below j.val (by simpa [Fin.lt_def] using hj)
  · rintro ⟨hl, below⟩
    refine ⟨hl, l.val, by simp, by simp, fun j hj => ?_⟩
    simpa using below ⟨j, by omega⟩ hj

/-! ### The word of a `SEL` without a guard (R33, R123) -/

theorem decodeHdr_bits_of_unguarded (h : Hdr) (free : h.guard = none) : decodeHdr h.bits = .ok h := by
  obtain ⟨c, g, w⟩ := h
  subst free
  have hw := w.isLt
  have chain : (fld (Hdr.bits ⟨c, none, w⟩) 8 1 == 1) = c := by
    cases c <;> simp only [fld, Hdr.bits, beq_eq_false_iff_ne, beq_iff_eq, Bool.false_eq_true, if_false, if_true] <;> omega
  have unguarded : fld (Hdr.bits ⟨c, none, w⟩) 7 1 = 0 ∧ fld (Hdr.bits ⟨c, none, w⟩) 2 5 = 0 ∧
      fld (Hdr.bits ⟨c, none, w⟩) 0 2 = w.val := by
    cases c <;> simp only [fld, Hdr.bits, Bool.false_eq_true, if_false, if_true] <;> omega
  obtain ⟨enable, guard, stall⟩ := unguarded
  have count : Fin.ofNat 4 w.val = w := Fin.ext (Nat.mod_eq_of_lt hw)
  simp only [decodeHdr, chain, enable, guard, stall, count, Nat.zero_ne_one, if_false, if_true]

theorem Hdr.bits_lt_of_unguarded (h : Hdr) (free : h.guard = none) : h.bits < 2 ^ 9 := by
  have hw := h.w.isLt
  simp only [Hdr.bits, free]
  split <;> omega

theorem Near.toNat_lt (n : Near) : n.toNat < 32 := by
  cases n <;> simp only [Near.toNat] <;> omega

/-- The header bits and the payload of a word stand apart (R100). -/
theorem fld_of_header_and_payload {x p : Nat} (hx : x < 2 ^ 9) (hp : p < 2 ^ 23) :
    fld (x * 2 ^ 23 + p) 23 9 = x ∧ fld (x * 2 ^ 23 + p) 0 23 = p := by
  simp only [fld]
  omega

theorem mkWord_toNat {h : Hdr} {base : Nat} {fields : List (Nat × Nat)} (hh : h.bits < 2 ^ 9)
    (hp : payloadBits base fields < 2 ^ 23) : (mkWord h base fields).toNat = h.bits * 2 ^ 23 + payloadBits base fields := by
  rw [mkWord, BitVec.toNat_ofNat]
  omega

theorem decodeA_sel_of_unguarded (h : Hdr) (x : Nat) (free : h.guard = none) : decodeA h 88 x = .error .unguardedSel := by
  simp only [decodeA, free]
  rfl

theorem decodePayload_sel_of_unguarded (h : Hdr) (x : Nat) (rest : List Word) (free : h.guard = none) (hx : x < 2 ^ 15) :
    decodePayload h (0x2C0000 + x) rest = .error .unguardedSel := by
  have small : 0x2C0000 + x < 0x400000 := by omega
  have op : fld (0x2C0000 + x) 15 7 = 88 := by simp only [fld]; omega
  rw [decodePayload, if_pos small, op, decodeA_sel_of_unguarded h _ free]

theorem decode_cons {h : Hdr} {x : Word} (rest : List Word) (head : decodeHdr (fld x.toNat 23 9) = .ok h) :
    decode (x :: rest) = decodePayload h (fld x.toNat 0 23) rest := by
  simp only [decode, head]

theorem decode_mkWord_of_unguarded {h : Hdr} {base : Nat} {fields : List (Nat × Nat)} (rest : List Word) (free : h.guard = none)
    (hp : payloadBits base fields < 2 ^ 23) :
    decode (mkWord h base fields :: rest) = decodePayload h (payloadBits base fields) rest := by
  have hh := h.bits_lt_of_unguarded free
  obtain ⟨head, body⟩ := fld_of_header_and_payload hh hp
  rw [← mkWord_toNat hh hp] at head body
  rw [decode_cons rest (by rw [head, decodeHdr_bits_of_unguarded h free]), body]

theorem decode_sel_of_unguarded (h : Hdr) (d a b : Near) (more : List Word) (free : h.guard = none) :
    decode (encode (.sel h d a b) ++ more) = .error .unguardedSel := by
  have hd := d.toNat_lt
  have ha := a.toNat_lt
  have hb := b.toNat_lt
  have payload : payloadBits 0x2C0000 [(10, d.toNat), (5, a.toNat), (0, b.toNat)] =
      0x2C0000 + (d.toNat * 2 ^ 10 + a.toNat * 2 ^ 5 + b.toNat) := by
    simp only [payloadBits, List.foldl]
    omega
  rw [encode, List.singleton_append, decode_mkWord_of_unguarded more free (by omega), payload,
    decodePayload_sel_of_unguarded h _ _ free (by omega)]

end Sys2Proof

namespace Sys2Proof.Machine
open Sys2Proof.Safety Sys2Proof.Laws.Words

theorem exec_sel (h : Hdr) (d a b : Near) (s : State) : exec (.sel h d a b) s = execSel h d a b s := rfl

theorem exec_elect (h : Hdr) (pd : Fin 16) (s : State) : exec (.elect h pd) s = execElect h pd s := rfl

/-- What a result holds outside the written lanes reaches neither d nor `y`. -/
theorem Warp.put32_congr (w : Warp) (d : Near) (m : LaneSet) {f g : Fin 32 → Word} (lat : Nat)
    (h : ∀ l : Fin 32, m[l] = true → f l = g l) : w.put32 d m f lat = w.put32 d m g lat := by
  have row : ∀ old, Lanes.write old m f = Lanes.write old m g := fun old => Lanes.write_congr old m h
  have shifted : ∀ (old : Lanes (List YPos)) (push : Fin 32 → DWord → List YPos),
      Lanes.write old m (fun l => push l ((f l).setWidth 64)) = Lanes.write old m (fun l => push l ((g l).setWidth 64)) :=
    fun old push => Lanes.write_congr old m fun l hl => by rw [h l hl]
  simp only [Warp.put32, Warp.setQ, Warp.shiftY, row]
  rw [shifted _ fun l x => yPush _ x _ _ _]

theorem Warp.getElem_active (w : Warp) (h : Hdr) (m : LaneSet) (l : Fin 32) : (w.active h m)[l] = (m[l] && w.guardPasses h l) :=
  Lanes.getElem_ofFn _ l

theorem execSel_opens {h : Hdr} {d a b : Near} {s : State} {cur : Cur} {w w1 : Warp} (o : Opens (.sel h d a b) 0 [] s cur w w1) :
    execSel h d a b s = .next (passOn s cur (w1.put32 d cur.lanes
      (fun l => if cur.before.guardPasses h l then cur.before.read32 .int a l else cur.before.read32 .int b l) 2)) := by
  have chosen := w1.put32_congr d cur.lanes 2
    (f := fun l => if (cur.before.active h cur.lanes)[l] then cur.before.read32 .int a l else cur.before.read32 .int b l)
    (g := fun l => if cur.before.guardPasses h l then cur.before.read32 .int a l else cur.before.read32 .int b l)
    fun l hl => by simp only [Warp.getElem_active, hl, Bool.true_and]
  rw [execSel, ordinary_opens o, finish, chosen, passOn]

/-- Words that decode to nothing trap `ILLEGAL_INSTRUCTION` in every issuing lane (R123, R124). -/
theorem issueWords_of_undecodable {run : Instr → State → Res} {s : State} {cur : Cur} {ws : List Word} {solo : Bool} {b : Option Cand}
    {e : DecodeError} (bad : decode (ws.drop cur.pc.word) = .error e) :
    issueWords run s cur ws solo b = .next ((s.raise cur cur.lanes
      { kind := .illegalInstruction, lane := lowLane cur.lanes }).endIssue cur.core cur.slot cur.lanes 0 0) := by
  rw [issueWords]
  split
  next => rfl
  next word rest here => rw [here] at bad; rw [bad]

theorem Regs.pRow_setP (w : Warp) (n : Nat) (m : LaneSet) (f : Fin 32 → Bool) (lat : Nat) :
    (w.setP n m f lat).regs.pRow n = Lanes.write (w.regs.pRow n) m f := by
  rw [Warp.setP_regs, Regs.pRow, SMap.getD, SMap.get?_put_self, Option.getD_some]

/-- Settles O4: `SEL` by the congruence of `put32` in the issuing lanes; without a guard by its word, which does not decode. -/
theorem selChoosesByGuard : Obligations.SelChoosesByGuard := by
  unfold Obligations.SelChoosesByGuard
  constructor
  · intro h d a b s cur w w1 o
    rw [exec_sel, execSel_opens o]
  · intro h d a b ws more s cur solo next free here
    exact issueWords_of_undecodable (here ▸ decode_sel_of_unguarded h d a b more free)

/-- Settles O10: the lane that `ELECT` chooses is the lowest one of `active`, and `p` rows keep their other lanes. -/
theorem electChoosesLowestLane : Obligations.ElectChoosesLowestLane := by
  unfold Obligations.ElectChoosesLowestLane
  intro h pd s cur w w1 o
  refine ⟨fun l => LaneSet.lowest (cur.before.active h cur.lanes) == some l, ?_, fun l => ⟨?_, ?_⟩⟩
  · rw [exec_elect, execElect, regWord_opens o, passOn]
  · rw [beq_iff_eq, LaneSet.lowest_eq_some_iff]
  · rw [Regs.pRow_setP, Lanes.getElem_write]

end Sys2Proof.Machine
end

section
/-! PROOFS. Circular buffers (R214 to R216): rings and their slots, the buffer words, the grants. -/
namespace Sys2Proof.Machine
open Sys2Proof.Safety Sys2Proof.Laws.Words

/-! ### Slots of a ring -/

theorem Ring.least_lt {r : Ring} {p : Slot → Bool} {m : Nat → Slot → Nat} {k : Nat} (h : r.least p m = some k) :
    k < r.slots.length := by
  obtain ⟨best, found, rfl⟩ := Option.map_eq_some_iff.1 h
  refine List.foldlRecOn r.slots.zipIdx _ (motive := fun b => ∀ x, b = some x → x.1 < r.slots.length) ?_ ?_ best found
  · exact fun _ none => nomatch none
  · intro b ih e he x hx
    have inside : e.2 < r.slots.length := by simpa using List.snd_lt_of_mem_zipIdx he
    split at hx
    next => exact ih x hx
    next =>
      split at hx
      next =>
        cases hx
        exact inside
      next =>
        split at hx
        next =>
          cases hx
          exact inside
        next => exact ih x hx

theorem Ring.nextRoom_lt {r : Ring} {k : Nat} {returned : Bool} (h : r.nextRoom = some (k, returned)) : k < r.slots.length := by
  rw [Ring.nextRoom] at h
  split at h
  next least =>
    cases h
    exact Ring.least_lt least
  next =>
    split at h
    next x at_ =>
      split at h
      next =>
        cases h
        exact (List.getElem?_eq_some_iff.1 at_).1
      next => cases h
    next => cases h

/-- A reservation takes the next slot of the producer side and leaves the place of the ring as it is. -/
theorem Ring.reserve_eq_some {r r' : Ring} {owner ix : Nat} (h : r.reserve owner = some (ix, r')) :
    r'.base = r.base ∧ r'.size = r.size ∧ r'.slots[ix]? = some { newSlot false r.seq with reserved := true, owner := owner } := by
  rw [Ring.reserve] at h
  split at h
  next => cases h
  next k returned room =>
    cases h
    exact ⟨rfl, rfl, by simp [Ring.nextRoom_lt room]⟩

theorem Ring.take_base_size (r : Ring) (taker k : Nat) : (r.take taker k).base = r.base ∧ (r.take taker k).size = r.size := by
  rw [Ring.take]
  split
  next => exact ⟨rfl, rfl⟩
  next => exact ⟨rfl, rfl⟩

/-- The fields of a descriptor that configures a ring (R214). -/
theorem ringOf_fields {d size : Nat} {r : Ring} (h : ringOf d size = some r) :
    r.base = d % 2 ^ 32 ∧ r.size = d / 2 ^ 32 % 2 ^ 32 ∧ r.rel = d / 2 ^ 96 % 2 ^ 8 ∧ r.slots.length = d / 2 ^ 72 % 2 ^ 8 ∧
      r.prod = d / 2 ^ 80 % 2 ^ 8 ∧ r.cons = d / 2 ^ 88 % 2 ^ 8 := by
  simp only [ringOf] at h
  split at h
  next => cases h
  next =>
    cases h
    simp [bits]

/-! ### Rings of a block -/

theorem State.ring_setRing {s : State} {bid : Nat} {b : Block} (k : Nat) (r : Ring) (h : SMap.get? s.blocks bid = some b) :
    (s.setRing bid k r).ring bid k = some r := by
  simp [State.setRing, h, State.ring]

theorem State.setRing_mem (s : State) (bid k : Nat) (r : Ring) : (s.setRing bid k r).mem = s.mem := by
  rw [State.setRing]
  split
  next => rfl
  next => rfl

theorem State.setRing_scratch (s : State) (bid k : Nat) (r : Ring) : (s.setRing bid k r).scratch = s.scratch := by
  rw [State.setRing]
  split
  next => rfl
  next => rfl

/-! ### What guard touches leave alone -/

theorem Warp.recordTouch_block (w : Warp) (off : Nat) : (w.recordTouch off).block = w.block := by
  rw [Warp.recordTouch]
  split
  next => rfl
  next => rfl

theorem State.noteTouches_block (s : State) (w : Warp) (n : Nat) (locs : List (Fin 32 × Loc)) :
    (s.noteTouches w n locs).block = w.block := by
  refine List.foldlRecOn locs _ (motive := fun v : Warp => v.block = w.block) rfl fun v hv e _ => ?_
  split
  next => exact hv
  next => rw [Warp.recordTouch_block, hv]

theorem State.blockOf_congr (s : State) {v w : Warp} (h : v.block = w.block) : s.blockOf v = s.blockOf w := by
  rw [State.blockOf, State.blockOf, h]

theorem State.padSize_congr (s : State) {v w : Warp} (h : v.block = w.block) : s.padSize v = s.padSize w := by
  rw [State.padSize, State.padSize, s.blockOf_congr h]

theorem State.touch_congr (s : State) {v w : Warp} (h : v.block = w.block) (loc : Loc) (n : Nat) :
    s.touch v loc n = s.touch w loc n := by
  unfold State.touch
  rw [s.blockOf_congr h]

theorem State.recordAt_congr (s : State) {v w : Warp} (h : v.block = w.block) (loc : Loc) (n : Nat) :
    s.recordAt v loc n = s.recordAt w loc n := by
  rw [State.recordAt, State.recordAt, s.touch_congr h]

theorem State.recordAt_of_untouched {s : State} {w : Warp} {loc : Loc} {n : Nat} (h : s.touch w loc n = none) :
    s.recordAt w loc n = leNat (s.bytesAt loc n) := by
  simp [State.recordAt, h]

/-! ### A load-scoreboard mark of a word -/

@[simp] theorem Warp.advance_wait (w : Warp) (pc : Pc) (m : LaneSet) (lits : Nat) : (w.advance pc m lits).wait = w.wait := by
  rw [Warp.advance]
  split
  next => rfl
  next =>
    split
    next => rfl
    next => rfl

@[simp] theorem Warp.advance_loads (w : Warp) (pc : Pc) (m : LaneSet) (lits : Nat) : (w.advance pc m lits).loads = w.loads := by
  rw [Warp.advance]
  split
  next => rfl
  next =>
    split
    next => rfl
    next => rfl

@[simp] theorem Warp.putLoaded_loads (w : Warp) (d : Near) (n : Nat) (m : LaneSet) (f : Fin 32 → Nat) (id : Nat) :
    (w.putLoaded d n m f id).loads = w.loads := by
  simp only [Warp.putLoaded, Warp.shiftY_loads, apply_ite Warp.loads, Warp.setQ_loads, ite_self]

/-! ### Late values in one register -/

/-- A late value of one register reaches that register in the lanes that no second word of its pair wrote (R32, R182). -/
theorem Regs.getElem_qRow_deliver (r : Regs) (ld : PendLoad) (m : LaneSet) (f : Fin 32 → Nat) {q : Nat} (h : ld.regs = [q])
    (l : Fin 32) : ((r.deliver ld m f).qRow q)[l] = if (ld.reach q m)[l] then BitVec.ofNat 32 (f l) else (r.qRow q)[l] := by
  have row : (r.deliver ld m f).qRow q = Lanes.write (r.qRow q) (ld.reach q m) fun l => BitVec.ofNat 32 (f l) := by
    simp only [Regs.qRow, Regs.deliver, h, List.zipIdx_cons, List.zipIdx_nil, List.foldl_cons, List.foldl_nil, SMap.getD,
      SMap.get?_put_self, Option.getD_some, Nat.mul_zero, Nat.pow_zero, Nat.div_one]
    cases SMap.get? r.q q <;> rfl
  rw [row, Lanes.getElem_write]

/-! ### The words (R36, R214 to R216) -/

theorem exec_kset (h : Hdr) (k : Fin 16) (a : Near) (s : State) : exec (.kset h k a) s = execKset h k a s := rfl

theorem exec_kroom (h : Hdr) (k : Fin 16) (d : Near) (s : State) :
    exec (.kroom h k d) s = slotWord (.kroom h k d) h k d true s := rfl

theorem exec_kwait (h : Hdr) (k : Fin 16) (d : Near) (s : State) :
    exec (.kwait h k d) s = slotWord (.kwait h k d) h k d false s := rfl

theorem exec_kprod (h : Hdr) (k : Fin 16) (s : State) : exec (.kprod h k) s = execKprod h k s := rfl

theorem exec_krel (h : Hdr) (k : Fin 16) (s : State) : exec (.krel h k) s = execKrel h k s := rfl

theorem exec_kroomGrant (core slot : Nat) (s : State) : exec (.kroomGrant core slot) s = execKroomGrant core slot s := rfl

theorem exec_kwaitGrant (core slot : Nat) (s : State) : exec (.kwaitGrant core slot) s = execKwaitGrant core slot s := rfl

/-- What a word answers that misuses its handle: the warp `w` is put into its slot, and the trap names the handle (R215). -/
def misused (s : State) (cur : Cur) (w : Warp) (act : LaneSet) (k : Nat) : Res :=
  .next ((s.setWarp cur.core cur.slot w).raise cur act (misuse k act))

theorem trapWord_misuse (s : State) (cur : Cur) (w : Warp) (act : LaneSet) (k : Nat) :
    trapWord s cur w act (misuse k act) = misused s cur w act k := rfl

/-- `KSET` with a descriptor that it accepts: it configures a handle that is not in use, and else is misused (R214, R215). -/
theorem execKset_commits {h : Hdr} {k : Fin 16} {a : Near} {s : State} {cur : Cur} {w : Warp} {l : Fin 32} {loc : Loc} {r : Ring}
    (c : Commits (.kset h k a) h s cur w) (low : LaneSet.lowest (cur.before.active h cur.lanes) = some l)
    (place : s.globalLoc w cur.core { mmio := false, host := true } .read 16
      (BitVec.ofNat 64 (s.recordField w.launch 128 64) + (cur.before.read32 .int a l).setWidth 64) = .ok loc)
    (here : s.readable loc = true) (accepted : ringOf (s.recordAt w loc 16) (s.padSize w) = some r) :
    execKset h k a s =
      if (s.ring w.block k.val).any fun x => !x.idle || s.namesHandle w.block k.val then
        misused s cur (s.noteTouches w 16 [(l, loc)]) (cur.before.active h cur.lanes) k.val
      else .next (passOn (s.setRing w.block k.val r) cur (s.noteTouches w 16 [(l, loc)])) := by
  have same := s.noteTouches_block w 16 [(l, loc)]
  rw [execKset, irrevocable_commits c]
  simp only [low, Option.getD_some, place, here, Bool.not_true, Bool.false_eq_true, if_false, s.recordAt_congr same,
    s.padSize_congr same, accepted, same]
  rfl

/-- `KROOM` and `KWAIT` of a handle without a ring. -/
theorem slotWord_without_ring {i : Instr} {h : Hdr} {k : Fin 16} {d : Near} {room : Bool} {s : State} {cur : Cur} {w w1 : Warp}
    (o : Opens i 0 [] s cur w w1) (some_lane : LaneSet.any (cur.before.active h cur.lanes) = true)
    (absent : s.ring w1.block k.val = none) :
    slotWord i h k d room s = misused s cur w1 (cur.before.active h cur.lanes) k.val := by
  rw [slotWord, ordinary_opens o]
  simp only [some_lane, absent, Option.isNone_none, Bool.not_true, Bool.false_eq_true, if_false, if_true, trapWord_misuse]

/-- The warp that a `KROOM` or a `KWAIT` leaves waiting for the slot of its load (R216, R330). -/
def Warp.awaitSlot (w : Warp) (d : Near) (act : LaneSet) (k : Nat) (room : Bool) : Warp :=
  let v := (w.addLoad [nearReg d] act (.slot k room)).1.putLoaded d 4 act (fun _ => 0) w.nextLoad
  { v with wait := some (.slot w.nextLoad) }

theorem Warp.awaitSlot_wait (w : Warp) (d : Near) (act : LaneSet) (k : Nat) (room : Bool) :
    (w.awaitSlot d act k room).wait = some (.slot w.nextLoad) := rfl

theorem Warp.awaitSlot_loads (w : Warp) (d : Near) (act : LaneSet) (k : Nat) (room : Bool) :
    (w.awaitSlot d act k room).loads = w.loads ++
      [{ id := w.nextLoad, regs := [nearReg d], lanes := act, win := w.winNow, kind := .slot k room, due := w.clk, lost := [] }] :=
  Warp.putLoaded_loads _ _ _ _ _ w.nextLoad

/-- `KROOM` and `KWAIT` of a ring: the warp waits for the load that they have added. -/
theorem slotWord_with_ring {i : Instr} {h : Hdr} {k : Fin 16} {d : Near} {room : Bool} {s : State} {cur : Cur} {w w1 : Warp}
    (o : Opens i 0 [] s cur w w1) (some_lane : LaneSet.any (cur.before.active h cur.lanes) = true)
    (present : s.ring w1.block k.val ≠ none) :
    slotWord i h k d room s = .next (passOn s cur (w1.awaitSlot d (cur.before.active h cur.lanes) k.val room)) := by
  have there : (s.ring w1.block k.val).isNone = false := Option.isNone_eq_false_iff.2 (Option.isSome_iff_ne_none.2 present)
  rw [slotWord, ordinary_opens o]
  simp only [some_lane, there, Bool.not_true, Bool.false_eq_true, if_false]
  rfl

/-- `KPROD` publishes the oldest slot that the warp has reserved. -/
theorem execKprod_reserved {h : Hdr} {k : Fin 16} {s : State} {cur : Cur} {w : Warp} {r : Ring} {ix : Nat}
    (c : Commits (.kprod h k) h s cur w) (ring : s.ring w.block k.val = some r)
    (reserved : r.reservedBy (warpKey cur.core cur.slot) = some ix) :
    execKprod h k s = .next (passOn (s.setRing w.block k.val (r.publish ix)) cur w) := by
  rw [execKprod, irrevocable_commits c]
  simp only [ring, reserved, Option.bind_some, Option.map_some]
  rfl

theorem execKprod_unreserved {h : Hdr} {k : Fin 16} {s : State} {cur : Cur} {w : Warp} (c : Commits (.kprod h k) h s cur w)
    (without : ∀ r, s.ring w.block k.val = some r → r.reservedBy (warpKey cur.core cur.slot) = none) :
    execKprod h k s = misused s cur w (cur.before.active h cur.lanes) k.val := by
  have nothing : ((s.ring w.block k.val).bind fun r =>
      (r.reservedBy (warpKey cur.core cur.slot)).map fun ix => r.publish ix) = none :=
    Option.bind_eq_none_iff.2 fun r hr => by rw [without r hr, Option.map_none]
  rw [execKprod, irrevocable_commits c]
  simp only [nothing, trapWord_misuse]

/-- `KREL` releases the oldest slot that the warp has taken, once no entry of the warp reads the scratchpad. -/
theorem execKrel_taken {h : Hdr} {k : Fin 16} {s : State} {cur : Cur} {w : Warp} {r : Ring} {ix : Nat}
    (c : Commits (.krel h k) h s cur w) (ring : s.ring w.block k.val = some r)
    (taken : r.takenBy (warpKey cur.core cur.slot) = some ix)
    (quiet : ∀ e ∈ s.entries, e.2.core = cur.core → e.2.slot = cur.slot → e.2.bound = true → s.readsPad e.2 = false) :
    execKrel h k s = .next (passOn (s.setRing w.block k.val (r.release (warpKey cur.core cur.slot) ix)) cur w) := by
  have settled : (s.entries.any fun e => e.2.core = cur.core && e.2.slot = cur.slot && e.2.bound && s.readsPad e.2) = false := by
    simpa only [List.any_eq_false, Bool.and_eq_true, decide_eq_true_eq, not_and, Bool.not_eq_true, and_imp] using quiet
  rw [execKrel, irrevocable_commits c]
  simp only [ring, taken, Option.bind_some, Option.map_some, settled]
  rfl

theorem execKrel_untaken {h : Hdr} {k : Fin 16} {s : State} {cur : Cur} {w : Warp} (c : Commits (.krel h k) h s cur w)
    (without : ∀ r, s.ring w.block k.val = some r → r.takenBy (warpKey cur.core cur.slot) = none) :
    execKrel h k s = misused s cur w (cur.before.active h cur.lanes) k.val := by
  have nothing : ((s.ring w.block k.val).bind fun r =>
      (r.takenBy (warpKey cur.core cur.slot)).map fun ix => r.release (warpKey cur.core cur.slot) ix) = none :=
    Option.bind_eq_none_iff.2 fun r hr => by rw [without r hr, Option.map_none]
  rw [execKrel, irrevocable_commits c]
  simp only [nothing, trapWord_misuse]

/-- The grant of a slot to a warp that waits: its place in the ring's record, and its offset in the register of the load. -/
theorem grantSlot_spec {s : State} {core slot : Nat} {w : Warp} {ld : PendLoad} {k ix : Nat} {r : Ring} {taken : Bool} {b : Block}
    (block : SMap.get? s.blocks w.block = some b) :
    let t := s.grantSlot core slot w ld k ix r taken
    ∃ v, t.warp core slot = some v ∧ t.mem = s.mem ∧ t.scratch = s.scratch ∧ t.ring w.block k = some r ∧
      (∀ x ∈ v.loads, x.id ≠ ld.id) ∧ v.v = w.v ∧
      ∀ q, ld.regs = [q] → ∀ l : Fin 32, (v.regs.qRow q)[l] =
        if (ld.reach q ld.lanes)[l] then BitVec.ofNat 32 (r.offset ix) else (w.regs.qRow q)[l] := by
  refine ⟨_, warp_setWarp .., ?_, ?_, ?_, ?_, rfl, ?_⟩
  · exact State.setRing_mem ..
  · exact State.setRing_scratch ..
  · exact State.ring_setRing k r block
  · intro x hx
    simpa using (List.mem_filter.1 hx).2
  · intro q single l
    exact Regs.getElem_qRow_deliver w.regs ld ld.lanes _ single l

theorem execKroomGrant_of_reserve {s : State} {core slot : Nat} {w : Warp} {ld : PendLoad} {k ix : Nat} {r r' : Ring}
    (warp : s.warp core slot = some w) (load : w.slotLoad true = some (ld, k)) (ring : s.ring w.block k = some r)
    (room : r.reserve (warpKey core slot) = some (ix, r')) :
    execKroomGrant core slot s = .next (s.grantSlot core slot w ld k ix r' false) := by
  simp only [execKroomGrant, warp, load, ring, room, Option.bind_some, Option.map_some]

theorem execKwaitGrant_of_nextTake {s : State} {core slot : Nat} {w : Warp} {ld : PendLoad} {k ix : Nat} {r : Ring}
    (warp : s.warp core slot = some w) (load : w.slotLoad false = some (ld, k)) (ring : s.ring w.block k = some r)
    (filled : r.nextTake (warpKey core slot) = some ix) :
    execKwaitGrant core slot s = .next (s.grantSlot core slot w ld k ix (r.take (warpKey core slot) ix) true) := by
  simp only [execKwaitGrant, warp, load, ring, filled, Option.bind_some, Option.map_some]

theorem slotGrantsWriteTheOffset : Claims.SlotGrantsWriteTheOffset := by
  intro core slot s w ld k ix r b warp block here given
  have ring : s.ring w.block k = some r := by rw [State.ring, block, Option.bind_some, here]
  have offset {r' : Ring} (base : r'.base = r.base) (size : r'.size = r.size) : r'.offset ix = r.base + ix * r.size := by
    rw [Ring.offset, base, size]
  refine ⟨fun r' room => ?_, fun filled load => ?_⟩
  · obtain ⟨base, size, taken⟩ := Ring.reserve_eq_some room
    refine ⟨fun load => ?_, by simp [taken]⟩
    obtain ⟨v, granted⟩ := grantSlot_spec (core := core) (slot := slot) (ld := ld) (k := k) (ix := ix) (r := r') (taken := false) block
    rw [offset base size] at granted
    exact ⟨_, v, (exec_kroomGrant ..).trans (execKroomGrant_of_reserve warp load ring room), granted⟩
  · obtain ⟨base, size⟩ := r.take_base_size (warpKey core slot) ix
    obtain ⟨v, granted⟩ := grantSlot_spec (core := core) (slot := slot) (ld := ld) (k := k) (ix := ix)
      (r := r.take (warpKey core slot) ix) (taken := true) block
    rw [offset base size] at granted
    exact ⟨_, v, (exec_kwaitGrant ..).trans (execKwaitGrant_of_nextTake warp load ring filled), granted⟩

theorem bufferWordsMoveSlots : Claims.BufferWordsMoveSlots := by
  intro h k d a s cur w w1 l act me ring misusedBy
  refine ⟨?_, ?_, ?_, ?_⟩
  · intro loc r c low va place here x w' accepted
    have result := execKset_commits c low place here accepted
    rw [← exec_kset] at result
    refine ⟨State.recordAt_of_untouched, ringOf_fields accepted, fun free => ?_, fun y hy busy => ?_⟩
    · rw [result, if_neg]
      simpa [Option.any_eq_true] using free
    · rw [result, if_pos]
      · rfl
      · simpa [show s.ring w.block k.val = some y from hy] using busy
  · intro r row o some_lane
    have word : exec (r.1 h k d) s = slotWord (r.1 h k d) h k d r.2 s := by
      rcases List.mem_cons.1 row with rfl | row
      · exact exec_kroom ..
      · obtain rfl := List.mem_singleton.1 row
        exact exec_kwait ..
    refine ⟨fun absent block => ?_, fun present block => ?_⟩
    · rw [word, slotWord_without_ring o some_lane (block ▸ absent)]
      rfl
    · rw [word, slotWord_with_ring o some_lane (block ▸ present)]
      refine ⟨_, _, rfl, warp_setWarp .., by rw [Warp.advance_wait, Warp.awaitSlot_wait], ?_⟩
      rw [Warp.advance_loads, Warp.awaitSlot_loads]
      exact ⟨_, List.mem_append_right _ List.mem_cons_self, rfl, rfl, rfl, rfl⟩
  · intro c
    refine ⟨fun r ix here reserved => ?_, fun without => ?_⟩
    · rw [exec_kprod, execKprod_reserved c here reserved]
    · rw [exec_kprod, execKprod_unreserved c without]
      rfl
  · intro c
    refine ⟨fun r ix here taken quiet => ?_, fun without => ?_⟩
    · rw [exec_krel, execKrel_taken c here taken quiet]
    · rw [exec_krel, execKrel_untaken c without]
      rfl

/-- Settles O29: what each buffer word answers at its commit point or in its window, and the grants by the record of the slot. -/
theorem buffersMoveAndGrantSlots : Obligations.BuffersMoveAndGrantSlots :=
  ⟨bufferWordsMoveSlots, slotGrantsWriteTheOffset⟩

end Sys2Proof.Machine
end

section
/-! PROOFS. Lulls and line reports (R285, R289, R294, R295): the object table and the reports under writes of bytes, the stages of a
report, arrivals and forwarding. -/
namespace Sys2Proof.Machine

/-! ### Writes of bytes leave the object table and the reports as they are -/

/-- The object table and the reports that wait at the object home slice. -/
def State.sumTables (s : State) : SMap Obj × List LineDone := (s.objs, s.reports)

theorem State.sumTables_eq_iff {s t : State} : s.sumTables = t.sumTables ↔ s.objs = t.objs ∧ s.reports = t.reports :=
  Prod.ext_iff

/-- Steps that each leave the tables of the sums alone leave them alone together. -/
theorem foldl_sumTables {α : Type} {f : State → α → State} (h : ∀ s x, (f s x).sumTables = s.sumTables) (xs : List α) (s : State) :
    (xs.foldl f s).sumTables = s.sumTables :=
  List.foldlRecOn xs f (motive := fun t => t.sumTables = s.sumTables) rfl fun t ht x _ => (h t x).trans ht

@[simp] theorem State.sendMsg_sumTables (s : State) (core dev : Nat) (answer draw : Bool) (m : PeerMsg) :
    (s.sendMsg core dev answer draw m).sumTables = s.sumTables := rfl

@[simp] theorem State.wakeLine_sumTables (s : State) (g : Gran) : (s.wakeLine g).sumTables = s.sumTables := rfl

@[simp] theorem State.setDir_sumTables (s : State) (line : Nat) (d : DirLine) : (s.setDir line d).sumTables = s.sumTables := rfl

@[simp] theorem State.tagLines_sumTables (s : State) (core : Nat) (lines : List Nat) (f : L1Tag → L1Tag) :
    (s.tagLines core lines f).sumTables = s.sumTables := rfl

@[simp] theorem State.freeLine_sumTables (s : State) (line : Nat) : (s.freeLine line).sumTables = s.sumTables := by
  rw [State.freeLine]
  split
  next => rfl
  next => rfl

@[simp] theorem State.endUpdate_sumTables (s : State) (line : Nat) : (s.endUpdate line).sumTables = s.sumTables := by
  simp only [State.endUpdate, State.wakeLine_sumTables]
  split
  next =>
    split
    next => rw [foldl_sumTables fun s d => s.sendMsg_sumTables .., State.freeLine_sumTables]
    next => exact State.freeLine_sumTables ..
  next => exact State.freeLine_sumTables ..

@[simp] theorem State.cancelUpdates_sumTables (s : State) (core slot from_ : Nat) :
    (s.cancelUpdates core slot from_).sumTables = s.sumTables := by
  refine foldl_sumTables (fun t u => ?_) _ s
  dsimp only
  have sent : (if u.1 % 2 ^ 60 / 2 ^ 41 = t.self then t
      else t.sendMsg 192 (u.1 % 2 ^ 60 / 2 ^ 41) false true (.update (u.1 % 2 ^ 60) [])).sumTables = t.sumTables := by
    split
    next => rfl
    next => rfl
  split
  next => rw [State.endUpdate_sumTables, sent]
  next => exact sent

@[simp] theorem State.giveBack_sumTables (s : State) (block by_ : Nat) (ops : List RingOp) :
    (s.giveBack block by_ ops).sumTables = s.sumTables := by
  rw [State.giveBack]
  split
  next => rfl
  next => rfl

@[simp] theorem State.rollbackTo_sumTables (s : State) (core slot from_ : Nat) (trigger : Bool) :
    (s.rollbackTo core slot from_ trigger).sumTables = s.sumTables := by
  rw [State.rollbackTo]
  split
  next => rfl
  next w =>
    split
    next => rfl
    next victim =>
      exact (State.cancelUpdates_sumTables ..).trans (State.giveBack_sumTables ..)

@[simp] theorem State.triggerWarp_sumTables (s : State) (key : Nat) (g : Gran) : (s.triggerWarp key g).sumTables = s.sumTables := by
  rw [State.triggerWarp]
  split
  next => rfl
  next =>
    split
    next => rfl
    next => exact State.rollbackTo_sumTables ..

/-- A trigger reaches warps, and one of them may be spared. -/
theorem foldl_triggerWarp_sumTables (from_ : Option Nat) (g : Gran) (keys : List Nat) (s : State) :
    (keys.foldl (fun s key => if some key == from_ then s else s.triggerWarp key g) s).sumTables = s.sumTables := by
  refine foldl_sumTables (fun t key => ?_) keys s
  split
  next => rfl
  next => exact State.triggerWarp_sumTables ..

@[simp] theorem State.trigger_sumTables (s : State) (from_ : Option Nat) (g : Gran) : (s.trigger from_ g).sumTables = s.sumTables :=
  foldl_triggerWarp_sumTables ..

theorem State.foldl_trigger_sumTables (from_ : Option Nat) (gs : List Gran) (s : State) :
    (gs.foldl (fun s g => s.trigger from_ g) s).sumTables = s.sumTables :=
  foldl_sumTables (fun _ _ => State.trigger_sumTables ..) gs s

@[simp] theorem State.invalidate_sumTables (s : State) (line : Nat) (from_ : Option Nat) (cores : List Nat) :
    (s.invalidate line from_ cores).sumTables = s.sumTables :=
  (foldl_triggerWarp_sumTables ..).trans (foldl_sumTables (fun _ _ => State.tagLines_sumTables ..) _ s)

@[simp] theorem State.dirWrite_sumTables (s : State) (c line : Nat) (from_ : Option Nat) :
    (s.dirWrite c line from_).sumTables = s.sumTables :=
  (State.setDir_sumTables ..).trans (State.invalidate_sumTables ..)

@[simp] theorem State.dirTake_sumTables (s : State) (line : Nat) (from_ : Option Nat) : (s.dirTake line from_).sumTables = s.sumTables :=
  (State.setDir_sumTables ..).trans (State.invalidate_sumTables ..)

@[simp] theorem State.takeLines_sumTables (s : State) (from_ : Option Nat) (sync : Bool) (gs : List Gran) :
    (s.takeLines from_ sync gs).sumTables = s.sumTables := by
  rw [State.takeLines]
  split
  next => rfl
  next =>
    refine foldl_sumTables (fun t g => ?_) gs s
    split
    next => exact State.dirWrite_sumTables ..
    next => exact State.dirTake_sumTables ..
    next => exact foldl_sumTables (fun _ _ => State.tagLines_sumTables ..) _ t
    next => rfl

@[simp] theorem State.setBit_sumTables (s : State) (b : Nat × Nat) (from_ : Option Nat) : (s.setBit b from_).sumTables = s.sumTables :=
  (State.foldl_trigger_sumTables ..).trans (State.takeLines_sumTables ..)

@[simp] theorem State.markDirty_sumTables (s : State) (pa n : Nat) (from_ : Option Nat) :
    (s.markDirty pa n from_).sumTables = s.sumTables := by
  rw [State.markDirty]
  split
  next => rfl
  next => exact foldl_sumTables (fun _ _ => State.setBit_sumTables ..) _ s

@[simp] theorem State.putBytes_sumTables (s : State) (loc : Loc) (bs : List Byte) : (s.putBytes loc bs).sumTables = s.sumTables := by
  cases loc <;> rfl

@[simp] theorem State.writeEvent_sumTables (s : State) (from_ : Option Nat) (loc : Loc) (bs : List Byte) (sync : Bool) :
    (s.writeEvent from_ loc bs sync).sumTables = s.sumTables := by
  simp only [State.writeEvent, State.foldl_trigger_sumTables, State.takeLines_sumTables, State.putBytes_sumTables]
  split
  next => exact State.markDirty_sumTables ..
  next => rfl

@[simp] theorem State.finishUpdate_sumTables (s : State) (line : Nat) (u : SyncUpd) :
    (s.finishUpdate line u).sumTables = s.sumTables := by
  simp only [State.finishUpdate, apply_ite State.sumTables, State.endUpdate_sumTables, State.wakeLine_sumTables,
    State.sendMsg_sumTables, ite_self]

@[simp] theorem State.acceptUpdate_sumTables (s : State) (line : Nat) (u : SyncUpd) (devs : List Nat) (from_ : Option Nat)
    (stores : List (Nat × List Byte)) : (s.acceptUpdate line u devs from_ stores).sumTables = s.sumTables := by
  simp only [State.acceptUpdate, State.finishUpdate_sumTables, State.trigger_sumTables,
    foldl_sumTables fun s d => s.sendMsg_sumTables ..]
  exact foldl_sumTables (fun _ _ => State.tagLines_sumTables ..) _ s

@[simp] theorem State.sendResult_sumTables (s : State) (line : Nat) (stores : List (Nat × List Byte)) :
    (s.sendResult line stores).sumTables = s.sumTables := by
  rw [State.sendResult]
  split
  next => rfl
  next => exact State.acceptUpdate_sumTables ..

@[simp] theorem State.unitWrite_sumTables (s : State) (loc : Loc) (bs : List Byte) (sync : Bool) :
    (s.unitWrite loc bs sync).sumTables = s.sumTables := by
  unfold State.unitWrite
  split
  next pa =>
    dsimp only
    split
    next => exact foldl_sumTables (fun _ _ => by rw [State.sendResult_sumTables, State.writeEvent_sumTables]) _ s
    next =>
      split
      next => exact State.writeEvent_sumTables ..
      next => exact State.writeEvent_sumTables ..
  next => exact State.writeEvent_sumTables ..

@[simp] theorem State.sendAway_sumTables (s : State) (core line : Nat) (o : Option Owner) (m : PeerMsg) :
    (s.sendAway core line o m).sumTables = s.sumTables := rfl

@[simp] theorem State.dropLine_sumTables (s : State) (line : Nat) : (s.dropLine line).sumTables = s.sumTables :=
  (State.trigger_sumTables ..).trans (State.invalidate_sumTables ..)

/-- The addition of 1 to a counter, at its home or as a message toward it. -/
@[simp] theorem State.devAddOne_sumTables (s : State) (loc : Loc) : (s.devAddOne loc).sumTables = s.sumTables := by
  unfold State.devAddOne
  split
  next pa =>
    split
    next => exact State.unitWrite_sumTables ..
    next => rw [State.sendAway_sumTables, State.dropLine_sumTables]
  next => exact State.writeEvent_sumTables ..


theorem State.devAddOne_objs (s : State) (loc : Loc) : (s.devAddOne loc).objs = s.objs :=
  (State.sumTables_eq_iff.1 (s.devAddOne_sumTables loc)).1

theorem State.devAddOne_reports (s : State) (loc : Loc) : (s.devAddOne loc).reports = s.reports :=
  (State.sumTables_eq_iff.1 (s.devAddOne_sumTables loc)).2

/-! ### The first report of an object -/

/-- The first element that satisfies a test, replaced by one that satisfies it too. -/
theorem find?_replace_of_find? {α : Type} [BEq α] [LawfulBEq α] {p : α → Bool} {l : List α} {a b : α} (first : l.find? p = some a)
    (hb : p b = true) : (l.replace a b).find? p = some b := by
  induction l with
  | nil => cases first
  | cons x xs ih =>
    rw [List.find?_cons] at first
    split at first
    next hx =>
      obtain rfl := Option.some.inj first
      rw [List.replace_cons_self, List.find?_cons_of_pos hb]
    next hx =>
      have other : (a == x) = false := beq_eq_false_iff_ne.2 (ne_of_apply_ne p (by simp [hx, List.find?_some first]))
      rw [List.replace_cons, other]
      simp only [List.find?_cons, hx, ih first]

theorem erase_replace_of_find? {α : Type} [BEq α] [LawfulBEq α] {p : α → Bool} {l : List α} {a b : α} (first : l.find? p = some a)
    (hb : p b = true) : (l.replace a b).erase b = l.erase a := by
  induction l with
  | nil => cases first
  | cons x xs ih =>
    rw [List.find?_cons] at first
    split at first
    next hx =>
      obtain rfl := Option.some.inj first
      rw [List.replace_cons_self, List.erase_cons_head, List.erase_cons_head]
    next hx =>
      have other {y : α} (hy : p y = true) : x ≠ y := ne_of_apply_ne p (by simp [hx, hy])
      have ha := other (List.find?_some first)
      rw [List.replace_cons, beq_eq_false_iff_ne.2 ha.symm]
      simp only [List.erase_cons, Bool.false_eq_true, if_false, beq_eq_false_iff_ne.2 ha, beq_eq_false_iff_ne.2 (other hb), ih first]

/-! ### The stages of a report (R295) -/

/-- The object once a report of one of its lines is counted: each bin saturates at 2^32 − 1. -/
def Obj.counted (o : Obj) (r : LineDone) : Obj :=
  { o with bins := (o.bins.zip r.incr).map fun x => min (2 ^ 32 - 1) (x.1 + x.2), lines := o.lines + 1 }

theorem Obj.getElem?_counted_bins (o : Obj) (r : LineDone) {j m d : Nat} (hm : o.bins[j]? = some m) (hd : r.incr[j]? = some d) :
    (o.counted r).bins[j]? = some (min (2 ^ 32 - 1) (m + d)) := by
  rw [Obj.counted, List.getElem?_map, List.getElem?_zip_eq_some (z := (m, d)) |>.2 ⟨hm, hd⟩, Option.map_some]

/-- The reports that wait, set. -/
def State.withReports (s : State) (rs : List LineDone) : State := { s with reports := rs }

@[simp] theorem State.withReports_reports (s : State) (rs : List LineDone) : (s.withReports rs).reports = rs := rfl

@[simp] theorem State.withReports_withReports (s : State) (rs qs : List LineDone) :
    (s.withReports rs).withReports qs = s.withReports qs := rfl

theorem State.obj?_withReports_setObj (s : State) (n : Nat) (o : Obj) (rs : List LineDone) :
    ((s.setObj n o).withReports rs).obj? n = some o :=
  SMap.get?_put_self ..

theorem State.reportLocs_before_last (s : State) (o : Obj) : s.reportLocs o false = [s.objLoc o o.decl.counter .rmw] := rfl

/-- A turn of a report that is not the last line's: only the counter has to translate. -/
theorem State.lineRun_succ_of_counter {s : State} {obj fuel : Nat} {r : LineDone} {o : Obj} {loc : Loc}
    (report : s.reports.find? (·.obj = obj) = some r) (object : s.obj? obj = some o) (free : r.fault = none)
    (more : (r.stage = 1 || (r.stage = 0 && o.lines + 1 = o.decl.lines) : Bool) = false)
    (place : s.objLoc o o.decl.counter .rmw = .ok loc) :
    State.lineRun obj (fuel + 1) s =
      if (s.lineStage r o [loc]).2 = true then
        if r.stage = 2 then (s.lineStage r o [loc]).1 else State.lineRun obj fuel (s.lineStage r o [loc]).1
      else (s.lineStage r o [loc]).1 := by
  rw [State.lineRun]
  simp only [report, object, free, more, State.reportLocs_before_last, place, Option.isSome_none, Bool.false_eq_true, if_false,
    List.findSome?_cons, List.findSome?_nil, List.filterMap_cons, List.filterMap_nil]
  split
  next x h => rw [h]; rfl
  next x h => rw [h]; rfl

theorem State.lineStage_counts {s : State} {r : LineDone} {o : Obj} (locs : List Loc) (begun : r.stage = 0)
    (more : o.lines + 1 ≠ o.decl.lines) :
    s.lineStage r o locs =
      ((s.setObj r.obj (o.counted r)).withReports (s.reports.replace r { r with stage := 2 }), true) := by
  simp [State.lineStage, begun, more, Obj.counted, State.withReports]

theorem State.lineStage_raises_counter {s : State} {r : LineDone} {o : Obj} {loc : Loc} (stage : r.stage = 2)
    (more : o.lines ≠ o.decl.lines) (stored : s.objStored r.obj = true) (here : s.devWritable loc = true) :
    s.lineStage r o [loc] = ((s.withReports (s.reports.erase r)).devAddOne loc, true) := by
  simp [State.lineStage, stage, more, stored, here, State.withReports]

/-- A report of a line that is not its object's last is handled in one step: it is counted, and the counter rises. -/
theorem State.lineRun_before_last {s : State} {r : LineDone} {o : Obj} {loc : Loc} (first : s.reports.find? (·.obj = r.obj) = some r)
    (free : r.fault = none) (object : s.obj? r.obj = some o) (begun : r.stage = 0) (more : o.lines + 1 < o.decl.lines)
    (stored : s.objStored r.obj = true) (place : s.objLoc o o.decl.counter .rmw = .ok loc) (here : s.devWritable loc = true) :
    State.lineRun r.obj 3 s = ((s.setObj r.obj (o.counted r)).withReports (s.reports.erase r)).devAddOne loc := by
  let r' : LineDone := { r with stage := 2 }
  let t := (s.setObj r.obj (o.counted r)).withReports (s.reports.replace r r')
  have same : decide (r'.obj = r.obj) = true := decide_eq_true rfl
  have counts : s.lineStage r o [loc] = (t, true) := State.lineStage_counts [loc] begun (Nat.ne_of_lt more)
  have reportNext : t.reports.find? (·.obj = r.obj) = some r' := find?_replace_of_find? first same
  have objectNext : t.obj? r.obj = some (o.counted r) := State.obj?_withReports_setObj ..
  have placeNext : t.objLoc (o.counted r) (o.counted r).decl.counter .rmw = .ok loc := place
  have raises : t.lineStage r' (o.counted r) [loc] = ((t.withReports (t.reports.erase r')).devAddOne loc, true) :=
    State.lineStage_raises_counter rfl (Nat.ne_of_lt more) stored here
  rw [State.lineRun_succ_of_counter first object free (by simp [begun, Nat.ne_of_lt more]) place, counts, if_pos rfl,
    if_neg (by simp [begun]), State.lineRun_succ_of_counter reportNext objectNext free rfl placeNext, raises, if_pos rfl, if_pos rfl]
  rw [State.withReports_withReports, State.withReports_reports, erase_replace_of_find? first same]

/-! ### The lull events (R285, R289, R294) -/

theorem exec_lullArrival (id : LullId) (s : State) : exec (.lullArrival id) s = execLullArrival id s := rfl

theorem exec_lullForwardTimeout (id : LullId) (key : Nat) (s : State) :
    exec (.lullForwardTimeout id key) s = execLullForwardTimeout id key s := rfl

theorem exec_lineDone (s : State) : exec .lineDone s = execLineDone s := rfl

theorem execLullArrival_oldest {id : LullId} {s : State} {e : LullEntry}
    (oldest : (s.lull (lullKey id)).inbox.find? (fun e => !(s.lull (lullKey id)).stopped.contains e.ctx) = some e) :
    execLullArrival id s = .next ((s.setLull (lullKey id)
      { s.lull (lullKey id) with inbox := (s.lull (lullKey id)).inbox.erase e }).arriveAt (lullKey id) e) := by
  simp only [execLullArrival, oldest]

theorem execLullForwardTimeout_goes_on {id : LullId} {key : Nat} {s : State} {e : LullEntry}
    (kept : (s.lull (lullKey id)).kept[key]? = some e) (waits : lullKey id < 512) (notFinal : s.isFinal (lullKey id) e = false) :
    execLullForwardTimeout id key s =
      .next ((s.takeKept (lullKey id) e).sendOn (lullKey id) e (s.nextOf (lullKey id) e)) := by
  have early : ¬ 512 ≤ lullKey id := by omega
  simp [execLullForwardTimeout, kept, early, notFinal]

@[simp] theorem State.lull_setLull_self (s : State) (k : Nat) (x : Lull) : (s.setLull k x).lull k = x := by
  rw [State.lull, State.setLull_lulls, SMap.getD, SMap.get?_put_self, Option.getD_some]

theorem State.lull_setLull_other (s : State) {j k : Nat} (x : Lull) (h : j ≠ k) : (s.setLull k x).lull j = s.lull j := by
  rw [State.lull, State.setLull_lulls, SMap.getD, SMap.get?_put_other _ _ _ _ h]
  rfl

/-- An entry that goes on to another lull here joins its inbox, and leaves the entries of the one that kept it. -/
theorem State.sendOn_here_takeKept (s : State) {k f : Nat} (e : LullEntry) (other : f ≠ k) :
    (((s.takeKept k e).sendOn k e (.here f)).lull f).inbox = (s.lull f).inbox ++ [e] ∧
      (((s.takeKept k e).sendOn k e (.here f)).lull k).kept = (s.lull k).kept.erase e := by
  simp only [State.sendOn, State.takeKept, State.lull_setLull_self, State.lull_setLull_other _ _ other,
    State.lull_setLull_other _ _ other.symm, and_self]

/-- The sibling of the lower index is the first operand of the addition (R66). -/
theorem parentEntry_spec (a b : LullEntry) (q : LaneMask) (l : Fin 32) :
    let p := parentEntry a b q
    p.level = a.level + 1 ∧ p.index = a.index / 2 ∧ p.present = q ∧ p.res[l] = residueOf p.vals[l] ∧
      p.vals[l] = BitVec.ofNat 32 (if a.index % 2 = 0 then treeAdd a.vals[l].toNat b.vals[l].toNat
        else treeAdd b.vals[l].toNat a.vals[l].toNat) := by
  refine ⟨rfl, rfl, rfl, Lanes.getElem_ofFn _ l, ?_⟩
  rw [parentEntry, Lanes.getElem_ofFn]
  by_cases lower : a.index % 2 = 0
  · simp only [inOrder, lower, if_true]
  · simp only [inOrder, lower, if_false]

/-- The report that `LINE_DONE` takes up is the first of its object, and no fault holds it. -/
theorem State.first_of_due_report {s : State} {r : LineDone}
    (due : s.reports.find? (fun r => (s.reports.find? fun x => x.obj == r.obj) == some r && r.fault.isNone &&
      (r.stage = 0 || s.objStored r.obj)) = some r) :
    s.reports.find? (·.obj = r.obj) = some r ∧ r.fault = none := by
  have test := List.find?_some due
  simp only [Bool.and_eq_true, beq_iff_eq, Option.isNone_iff_eq_none] at test
  obtain ⟨⟨first, free⟩, -⟩ := test
  exact ⟨first, free⟩

theorem execLineDone_of_due {s : State} {r : LineDone}
    (due : s.reports.find? (fun r => (s.reports.find? fun x => x.obj == r.obj) == some r && r.fault.isNone &&
      (r.stage = 0 || s.objStored r.obj)) = some r) :
    execLineDone s = .next (State.lineRun r.obj 3 s) := by
  simp only [execLineDone, due]

/-- Settles O38: the events by their equations, the parent by its lanes, and a report by its two stages. -/
theorem lullsPairForwardAndReport : Obligations.LullsPairForwardAndReport := by
  unfold Obligations.LullsPairForwardAndReport
  intro id key s e a b q l k x
  refine ⟨fun oldest => ?_, fun _ => parentEntry_spec a b q l, fun kept waits notFinal => ⟨?_, fun f next other => ?_⟩,
    fun r o due object begun more stored places => ?_⟩
  · rw [exec_lullArrival, execLullArrival_oldest oldest]
  · rw [exec_lullForwardTimeout, execLullForwardTimeout_goes_on kept waits notFinal]
  · rw [next]
    exact State.sendOn_here_takeKept s e other
  · obtain ⟨first, free⟩ := State.first_of_due_report due
    rw [State.reportLocs_before_last] at places
    obtain ⟨loc, place, here⟩ := places _ List.mem_cons_self
    have result := State.lineRun_before_last first free object begun more stored place here
    refine ⟨_, o.counted r, (exec_lineDone s).trans (execLineDone_of_due due), ?_, ?_, rfl,
      fun j m d hm hd => o.getElem?_counted_bins r hm hd⟩
    · rw [result, State.devAddOne_reports, State.withReports_reports]
    · rw [result, State.obj?, State.devAddOne_objs]
      exact State.obj?_withReports_setObj ..

end Sys2Proof.Machine
end

section
/-! PROOFS. Numbers (R49, R159, R160): the exact sum, the nearest multiple of a spacing, the pattern of a rounded magnitude, minima and
maxima. -/
namespace Sys2Proof.Machine
open Sys2Proof.Claims

/-! ### Exact values -/

/-- The exact value of (-1)^neg × m × 2^e. -/
def dyadic (neg : Bool) (m : Nat) (e : Int) : Rat := (if neg then -1 else 1) * (m : Rat) * (2 : Rat) ^ e

theorem exactValue_fin (neg : Bool) (m : Nat) (e : Int) : exactValue (.fin neg m e) = some (dyadic neg m e) := rfl

theorem fin_of_exactValue {x : FVal} {p : Rat} (h : exactValue x = some p) : ∃ neg m e, x = .fin neg m e ∧ p = dyadic neg m e := by
  cases x with
  | nan s => cases h
  | inf n => cases h
  | fin n m e => exact ⟨n, m, e, rfl, (Option.some.inj h).symm⟩

theorem dyadic_eq_intCast (neg : Bool) (m : Nat) (e : Int) :
    dyadic neg m e = ((if neg then -(m : Int) else m : Int) : Rat) * 2 ^ e := by
  cases neg
  case false => simp only [dyadic, Bool.false_eq_true, if_false, Rat.intCast_natCast, Rat.one_mul]
  case true => simp only [dyadic, if_true, Rat.intCast_neg, Rat.intCast_natCast, Rat.neg_mul, Rat.one_mul]

theorem dyadic_zero (neg : Bool) (e : Int) : dyadic neg 0 e = 0 := by
  rw [dyadic, show ((0 : Nat) : Rat) = 0 from rfl, Rat.mul_zero, Rat.zero_mul]

/-- A value of the other sign is the one of this sign with its magnitude negated. -/
theorem dyadic_relative (neg neg' : Bool) (m : Nat) (e : Int) :
    dyadic neg' m e = (if neg then -1 else 1) * (((if neg' = neg then (m : Int) else -m : Int) : Rat) * 2 ^ e) := by
  rw [dyadic_eq_intCast]
  cases neg <;> cases neg' <;>
    simp only [Bool.false_eq_true, Bool.true_eq_false, if_true, if_false, Rat.intCast_neg, Rat.neg_mul, Rat.one_mul, Rat.neg_neg]

/-- A value's distance from one of sign `neg`, by its magnitude where the signs agree and by its negation where not. -/
theorem abs_dyadic_sub (neg neg' : Bool) (k m : Nat) (p e : Int) :
    (dyadic neg' k p - dyadic neg m e).abs =
      (((if neg' = neg then (k : Int) else -k : Int) : Rat) * 2 ^ p - m * 2 ^ e).abs := by
  rw [dyadic_relative neg neg', dyadic_relative neg neg, if_pos rfl, Rat.intCast_natCast]
  cases neg
  case false => simp only [Bool.false_eq_true, if_false, Rat.one_mul]
  case true =>
    rw [if_pos rfl, ← Rat.abs_neg]
    congr 1
    grind

/-! ### Powers of two -/

theorem two_zpow_pos (e : Int) : (0 : Rat) < 2 ^ e := Rat.zpow_pos (by decide)

theorem two_zpow_natCast_add (k : Nat) (e : Int) : (2 : Rat) ^ ((k : Int) + e) = ((2 ^ k : Nat) : Rat) * 2 ^ e := by
  rw [Rat.zpow_add (by decide), Rat.zpow_natCast, Rat.natCast_pow]
  rfl

theorem two_zpow_of_le {a b : Int} (h : b ≤ a) : (2 : Rat) ^ a = ((2 ^ (a - b).toNat : Nat) : Rat) * 2 ^ b := by
  rw [← two_zpow_natCast_add, show ((a - b).toNat : Int) + b = a by omega]

theorem two_zpow_mono {a b : Int} (h : b ≤ a) : (2 : Rat) ^ b ≤ 2 ^ a := by
  have one_le : ((1 : Nat) : Rat) ≤ ((2 ^ (a - b).toNat : Nat) : Rat) := Rat.natCast_le_natCast.2 (Nat.two_pow_pos _)
  have scaled := Rat.mul_le_mul_of_nonneg_right one_le (Rat.le_of_lt (two_zpow_pos b))
  rwa [← two_zpow_of_le h, show ((1 : Nat) : Rat) = 1 from rfl, Rat.one_mul] at scaled

theorem dyadic_mul_two (neg : Bool) (m : Nat) (e : Int) : dyadic neg (m * 2) e = dyadic neg m (e + 1) := by
  rw [dyadic, dyadic, Rat.zpow_add_one (by decide), Rat.natCast_mul, show ((2 : Nat) : Rat) = 2 from rfl]
  grind

theorem addFin_exact (n1 : Bool) (m1 : Nat) (e1 : Int) (n2 : Bool) (m2 : Nat) (e2 : Int) :
    dyadic (addFin n1 m1 e1 n2 m2 e2).1 (addFin n1 m1 e1 n2 m2 e2).2.1 (addFin n1 m1 e1 n2 m2 e2).2.2 =
      dyadic n1 m1 e1 + dyadic n2 m2 e2 := by
  have signed (x : Int) : (if decide (x < 0) then -(x.natAbs : Int) else x.natAbs) = x := by
    simp only [decide_eq_true_eq]
    split <;> omega
  have aligned (neg : Bool) (m : Nat) {e : Int} (h : min e1 e2 ≤ e) : dyadic neg m e =
      ((if neg then -((m * 2 ^ (e - min e1 e2).toNat : Nat) : Int) else (m * 2 ^ (e - min e1 e2).toNat : Nat) : Int) : Rat) *
        2 ^ min e1 e2 := by
    rw [← dyadic_eq_intCast, dyadic, dyadic, two_zpow_of_le h, Rat.natCast_mul]
    grind
  rw [aligned n1 m1 (Int.min_le_left ..), aligned n2 m2 (Int.min_le_right ..), ← Rat.add_mul, ← Rat.intCast_add]
  simp only [addFin, dyadic_eq_intCast, signed]

/-! ### Rounding to the nearest multiple of a spacing (R49) -/

theorem roundsUp_rne_iff {neg : Bool} {n rem k : Nat} :
    roundsUp .rne neg n rem k = true ↔ 2 ^ k < 2 * rem ∨ 2 * rem = 2 ^ k ∧ n % 2 = 1 := by
  simp only [roundsUp, Bool.or_eq_true, Bool.and_eq_true, decide_eq_true_eq, beq_iff_eq]

/-- Rounding up or down by the remainder of m by 2^k leaves at most half of 2^k. -/
theorem roundsUp_rne_error (neg : Bool) (m k : Nat) :
    let n := m / 2 ^ k + if roundsUp .rne neg (m / 2 ^ k) (m % 2 ^ k) k then 1 else 0
    2 * (n * 2 ^ k) ≤ 2 * m + 2 ^ k ∧ 2 * m ≤ 2 * (n * 2 ^ k) + 2 ^ k := by
  have parts := Nat.div_add_mod' m (2 ^ k)
  have small := Nat.mod_lt m (Nat.two_pow_pos k)
  dsimp only
  rw [Nat.add_mul]
  split
  next up =>
    have half : 2 ^ k ≤ 2 * (m % 2 ^ k) := by
      obtain more | ⟨tie, -⟩ := roundsUp_rne_iff.1 up
      · exact Nat.le_of_lt more
      · exact Nat.le_of_eq tie.symm
    omega
  next down =>
    have half : 2 * (m % 2 ^ k) ≤ 2 ^ k := Nat.le_of_not_lt fun more => down (roundsUp_rne_iff.2 (.inl more))
    omega

theorem quantize_rne_val_of_lt (neg : Bool) (m : Nat) {e q : Int} (h : e < q) :
    (quantize .rne neg m e q).1 = m / 2 ^ (q - e).toNat +
      if roundsUp .rne neg (m / 2 ^ (q - e).toNat) (m % 2 ^ (q - e).toNat) (q - e).toNat then 1 else 0 := by
  simp only [quantize, Int.not_le.2 h, if_false]
  split
  next => rfl
  next => rfl

theorem quantize_rne_error (neg : Bool) (m : Nat) (e q : Int) :
    2 * (((quantize .rne neg m e q).1 : Rat) * 2 ^ q) ≤ 2 * (m * 2 ^ e) + 2 ^ q ∧
      2 * (m * 2 ^ e) ≤ 2 * (((quantize .rne neg m e q).1 : Rat) * 2 ^ q) + 2 ^ q := by
  have unit := two_zpow_pos q
  by_cases finer : q ≤ e
  · have same : ((quantize .rne neg m e q).1 : Rat) * 2 ^ q = m * 2 ^ e := by
      rw [quantize, if_pos finer, two_zpow_of_le finer, Rat.natCast_mul, Rat.mul_assoc]
    rw [same]
    grind
  · have rounded : e < q := Int.not_le.1 finer
    obtain ⟨upper, lower⟩ := roundsUp_rne_error neg m (q - e).toNat
    rw [← quantize_rne_val_of_lt neg m rounded] at upper lower
    have scale {a b : Nat} (h : a ≤ b) : (a : Rat) * 2 ^ e ≤ b * 2 ^ e :=
      Rat.mul_le_mul_of_nonneg_right (Rat.natCast_le_natCast.2 h) (Rat.le_of_lt (two_zpow_pos e))
    have upper := scale upper
    have lower := scale lower
    rw [two_zpow_of_le (Int.le_of_lt rounded)]
    simp only [Rat.natCast_add, Rat.natCast_mul, show ((2 : Nat) : Rat) = 2 from rfl] at upper lower
    constructor <;> grind

/-- An integer above another one lies a unit of the spacing further up. -/
theorem intCast_mul_zpow_add_le {a b : Int} (h : a < b) (q : Int) : (a : Rat) * 2 ^ q + 2 ^ q ≤ b * 2 ^ q := by
  have next : ((a + 1 : Int) : Rat) ≤ b := Rat.intCast_le_intCast.2 h
  have scaled := Rat.mul_le_mul_of_nonneg_right next (Rat.le_of_lt (two_zpow_pos q))
  rwa [Rat.intCast_add, Rat.add_mul, show ((1 : Int) : Rat) = 1 from rfl, Rat.one_mul] at scaled

/-- No multiple of the spacing lies nearer. -/
theorem quantize_rne_nearest (neg : Bool) (m : Nat) (e q k : Int) :
    (((quantize .rne neg m e q).1 : Rat) * 2 ^ q - m * 2 ^ e).abs ≤ ((k : Rat) * 2 ^ q - m * 2 ^ e).abs := by
  obtain ⟨upper, lower⟩ := quantize_rne_error neg m e q
  rw [← Rat.intCast_natCast (quantize .rne neg m e q).1] at *
  obtain below | rfl | above := Int.lt_trichotomy k ((quantize .rne neg m e q).1 : Int)
  · have apart := intCast_mul_zpow_add_le below q
    simp only [Rat.abs]
    grind
  · exact Rat.le_refl
  · have apart := intCast_mul_zpow_add_le above q
    simp only [Rat.abs]
    grind

/-! ### The magnitude that a format rounds to -/

theorem two_zpow_leading_le {m : Nat} (h : m ≠ 0) (e : Int) : (2 : Rat) ^ leading m e ≤ m * 2 ^ e := by
  rw [leading, two_zpow_natCast_add]
  exact Rat.mul_le_mul_of_nonneg_right (Rat.natCast_le_natCast.2 (Nat.log2_self_le h)) (Rat.le_of_lt (two_zpow_pos e))

theorem lt_two_zpow_leading_succ (m : Nat) (e : Int) : m * (2 : Rat) ^ e < 2 ^ (leading m e + 1) := by
  rw [leading, show ((Nat.log2 m : Int) + e + 1) = ((Nat.log2 m + 1 : Nat) : Int) + e by omega, two_zpow_natCast_add]
  exact Rat.mul_lt_mul_of_pos_right (Rat.natCast_lt_natCast.2 Nat.lt_log2_self) (two_zpow_pos e)

/-- The spacing of a format at the magnitude m × 2^e, as an exponent of 2. -/
def Fmt.spacing (f : Fmt) (m : Nat) (e : Int) : Int := max (leading m e - f.fb) (1 - (f.bias : Int) - f.fb)

/-- m × 2^e to the nearest multiple of the format's spacing there, in units of that spacing. -/
def Fmt.nearest (f : Fmt) (neg : Bool) (m : Nat) (e : Int) : Nat := (quantize .rne neg m e (f.spacing m e)).1

theorem Fmt.round_rne_val (f : Fmt) (neg : Bool) {m : Nat} (h : m ≠ 0) (e : Int) :
    (f.round .rne neg m e).val =
      if f.maxMag < f.pack (f.nearest neg m e) (f.spacing m e) then f.overflow .rne neg
      else (if neg then f.signBit else 0) + f.pack (f.nearest neg m e) (f.spacing m e) := by
  simp only [Fmt.round, h, if_false, Fmt.nearest, Fmt.spacing, apply_ite FOut.val]
  rfl

/-- The spacing is 2^-fb of the leading bit, unless it is the smallest of the format. -/
theorem Fmt.spacing_eq_of_lt (f : Fmt) {m : Nat} {e q : Int} (least : 1 - (f.bias : Int) - f.fb ≤ q) (h : q < f.spacing m e) :
    f.spacing m e = leading m e - f.fb := by
  rw [Fmt.spacing] at *
  omega

theorem Fmt.lt_mul_spacing (f : Fmt) (m : Nat) (e : Int) :
    m * (2 : Rat) ^ e < ((2 ^ (f.fb + 1) : Nat) : Rat) * 2 ^ f.spacing m e := by
  rw [← two_zpow_natCast_add]
  have finest : leading m e + 1 ≤ ((f.fb + 1 : Nat) : Int) + f.spacing m e := by
    rw [Fmt.spacing]
    omega
  exact Std.lt_of_lt_of_le (lt_two_zpow_leading_succ m e) (two_zpow_mono finest)

/-- Away from the smallest spacing, 2^fb units of it are the leading bit. -/
theorem Fmt.two_zpow_leading (f : Fmt) {m : Nat} {e : Int} (normal : f.spacing m e = leading m e - f.fb) :
    (2 : Rat) ^ leading m e = ((2 ^ f.fb : Nat) : Rat) * 2 ^ f.spacing m e := by
  rw [← two_zpow_natCast_add, normal, show (f.fb : Int) + (leading m e - f.fb) = leading m e by omega]

theorem Fmt.nearest_dist_le (f : Fmt) (neg : Bool) (m : Nat) (e k : Int) :
    ((f.nearest neg m e : Rat) * 2 ^ f.spacing m e - m * 2 ^ e).abs ≤ ((k : Rat) * 2 ^ f.spacing m e - m * 2 ^ e).abs :=
  quantize_rne_nearest ..

theorem Fmt.nearest_le (f : Fmt) (neg : Bool) (m : Nat) (e : Int) : f.nearest neg m e ≤ 2 ^ (f.fb + 1) := by
  refine Nat.le_of_not_lt fun more => ?_
  have near := f.nearest_dist_le neg m e ((2 ^ (f.fb + 1) : Nat) : Int)
  have apart := intCast_mul_zpow_add_le (Int.ofNat_lt.2 more) (f.spacing m e)
  have below := f.lt_mul_spacing m e
  have unit := two_zpow_pos (f.spacing m e)
  rw [Rat.intCast_natCast] at near apart
  rw [Rat.intCast_natCast] at apart
  simp only [Rat.abs] at near
  grind

theorem Fmt.le_nearest (f : Fmt) (neg : Bool) {m : Nat} (h : m ≠ 0) {e : Int} (normal : f.spacing m e = leading m e - f.fb) :
    2 ^ f.fb ≤ f.nearest neg m e := by
  refine Nat.le_of_not_lt fun fewer => ?_
  have near := f.nearest_dist_le neg m e ((2 ^ f.fb : Nat) : Int)
  have apart := intCast_mul_zpow_add_le (Int.ofNat_lt.2 fewer) (f.spacing m e)
  have above := two_zpow_leading_le h e
  have unit := two_zpow_pos (f.spacing m e)
  rw [f.two_zpow_leading normal] at above
  rw [Rat.intCast_natCast] at near apart
  rw [Rat.intCast_natCast] at apart
  simp only [Rat.abs] at near
  grind

/-- No number k × 2^q of at most fb + 1 digits, at a spacing of the format, lies nearer to m × 2^e than what it rounds to. -/
theorem Fmt.nearest_le_dist (f : Fmt) (neg : Bool) {m : Nat} (h : m ≠ 0) (e : Int) {k q : Int} (digits : k < (2 ^ (f.fb + 1) : Nat))
    (least : 1 - (f.bias : Int) - f.fb ≤ q) :
    ((f.nearest neg m e : Rat) * 2 ^ f.spacing m e - m * 2 ^ e).abs ≤ ((k : Rat) * 2 ^ q - m * 2 ^ e).abs := by
  by_cases coarse : f.spacing m e ≤ q
  · have multiple : (k : Rat) * 2 ^ q = ((k * (2 ^ (q - f.spacing m e).toNat : Nat) : Int) : Rat) * 2 ^ f.spacing m e := by
      rw [two_zpow_of_le coarse, Rat.intCast_mul, Rat.intCast_natCast, Rat.mul_assoc]
    rw [multiple]
    exact f.nearest_dist_le neg m e _
  · have fine : q < f.spacing m e := Int.not_le.1 coarse
    have normal := f.spacing_eq_of_lt least fine
    have near := f.nearest_dist_le neg m e ((2 ^ f.fb : Nat) : Int)
    rw [Rat.intCast_natCast, ← f.two_zpow_leading normal] at near
    have above := two_zpow_leading_le h e
    have below : (k : Rat) * 2 ^ q ≤ 2 ^ leading m e := by
      have few := Rat.mul_le_mul_of_nonneg_right (Rat.intCast_le_intCast.2 (Int.le_of_lt digits)) (Rat.le_of_lt (two_zpow_pos q))
      rw [Rat.intCast_natCast, ← two_zpow_natCast_add] at few
      exact Rat.le_trans few (two_zpow_mono (by omega))
    simp only [Rat.abs] at near ⊢
    grind

/-! ### Patterns and their values (R46) -/

/-- A finite value of a format has fb + 1 bits, and the spacing of the subnormal numbers or a coarser one. -/
theorem Fmt.val_eq_fin {f : Fmt} {z : Nat} {neg : Bool} {m : Nat} {e : Int} (h : f.val z = .fin neg m e) :
    m < 2 ^ (f.fb + 1) ∧ 1 - (f.bias : Int) - f.fb ≤ e := by
  have fraction : bits z 0 f.fb < 2 ^ f.fb := Nat.mod_lt _ (Nat.two_pow_pos _)
  rw [Nat.pow_succ]
  simp only [Fmt.val] at h
  split at h
  next => split at h <;> cases h
  next =>
    split at h
    next => cases h
    next =>
      split at h
      next =>
        cases h
        omega
      next normal =>
        cases h
        omega

theorem fp32_val_pattern (neg : Bool) {ex fr : Nat} (hex : ex < 255) (hfr : fr < 2 ^ 23) :
    fp32.val ((if neg then fp32.signBit else 0) + (ex * 2 ^ 23 + fr)) =
      if ex = 0 then .fin neg fr (-149) else .fin neg (2 ^ 23 + fr) ((ex : Int) - 150) := by
  generalize here : (if neg then fp32.signBit else 0) + (ex * 2 ^ 23 + fr) = x
  have fields : bits x 31 1 = (if neg then 1 else 0) ∧ bits x 23 8 = ex ∧ bits x 0 23 = fr := by
    cases neg <;> simp only [bits, fp32, Fmt.signBit, if_true, Bool.false_eq_true, if_false] at * <;> omega
  obtain ⟨sign, exponent, fraction⟩ := fields
  have finite : ex ≠ 255 := by omega
  have scale : (ex : Int) - 127 - 23 = ex - 150 := by omega
  simp [Fmt.val, fp32, sign, exponent, fraction, finite, scale]

/-- A significand of twice the hidden bit `p` counts as the hidden bit at the next exponent. -/
theorem carry_into_exponent (ex p : Nat) : ex * p + (p * 2 - p) = (ex + 1) * p + 0 := by
  rw [Nat.mul_two, Nat.add_sub_cancel, Nat.add_mul, Nat.one_mul, Nat.add_zero]

/-- The packed pattern of n × 2^q has that value, where it is in range: n of 24 bits or 2^24, and fewer than 24 bits at the least
spacing alone. -/
theorem exactValue_fp32_pack (neg : Bool) {n : Nat} {q : Int} (digits : n ≤ 2 ^ 24) (least : -149 ≤ q)
    (normal : n < 2 ^ 23 → q = -149) (fits : fp32.pack n q ≤ fp32.maxMag) :
    exactValue (fp32.val ((if neg then fp32.signBit else 0) + fp32.pack n q)) = some (dyadic neg n q) := by
  have most : fp32.maxMag = 255 * 2 ^ 23 - 1 := rfl
  obtain few | many := Nat.lt_or_ge n (2 ^ 23)
  · have pattern : fp32.pack n q = 0 * 2 ^ 23 + n := by
      rw [Fmt.pack, if_pos (show n < 2 ^ fp32.fb from few), Nat.zero_mul, Nat.zero_add]
    rw [pattern, fp32_val_pattern neg (by decide) few, if_pos rfl, exactValue_fin, normal few]
  · have packed : fp32.pack n q = (q + 150).toNat * 2 ^ 23 + (n - 2 ^ 23) := by
      rw [Fmt.pack, if_neg (show ¬n < 2 ^ fp32.fb from Nat.not_lt.2 many)]
      congr 3
      simp only [fp32]
      omega
    obtain below | carried := Nat.lt_or_eq_of_le digits
    · rw [packed, fp32_val_pattern neg (by omega) (by omega), if_neg (by omega), exactValue_fin, Nat.add_sub_cancel' many]
      congr 2
      omega
    · have doubled : n = 2 ^ 23 * 2 := carried.trans (Nat.pow_succ (n := 2) (m := 23))
      have pattern : fp32.pack n q = ((q + 150).toNat + 1) * 2 ^ 23 + 0 := by rw [packed, doubled, carry_into_exponent]
      rw [pattern, fp32_val_pattern neg (by omega) (by decide), if_neg (by omega), exactValue_fin, doubled, Nat.add_zero,
        dyadic_mul_two]
      congr 2
      omega

theorem exactValue_fp32_overflow (neg : Bool) : exactValue (fp32.val (fp32.overflow .rne neg)) = none := by
  cases neg <;> rfl

theorem exactValue_fp32_signedZero (neg : Bool) : exactValue (fp32.val (if neg then fp32.signBit else 0)) = some 0 := by
  have zero := fp32_val_pattern neg (ex := 0) (fr := 0) (by decide) (by decide)
  rw [Nat.zero_mul, Nat.add_zero, Nat.add_zero, if_pos rfl] at zero
  rw [zero, exactValue_fin, dyadic_zero]

/-- A rounded FP32 magnitude that does not overflow has the value of the multiple that it is rounded to. -/
theorem exactValue_fp32_round {neg : Bool} {m : Nat} (h : m ≠ 0) {e : Int} {r : Rat}
    (finite : exactValue (fp32.val (fp32.round .rne neg m e).val) = some r) :
    r = dyadic neg (fp32.nearest neg m e) (fp32.spacing m e) := by
  rw [Fmt.round_rne_val _ _ h] at finite
  split at finite
  next =>
    rw [exactValue_fp32_overflow] at finite
    cases finite
  next fits =>
    have least : -149 ≤ fp32.spacing m e := Int.le_max_right ..
    rw [exactValue_fp32_pack neg (fp32.nearest_le neg m e) least _ (Nat.not_lt.1 fits)] at finite
    · exact (Option.some.inj finite).symm
    · intro few
      obtain coarse | same := Int.lt_or_eq_of_le least
      · have normal := fp32.spacing_eq_of_lt (Int.le_refl _) coarse
        exact absurd (fp32.le_nearest neg h normal) (Nat.not_le.2 few)
      · exact same.symm

/-- No value of a format lies nearer to a finite one than the multiple that this is rounded to. -/
theorem Fmt.nearest_le_dist_val (f : Fmt) {neg : Bool} {m : Nat} (h : m ≠ 0) (e : Int) {z : Nat} {v : Rat}
    (value : exactValue (f.val z) = some v) :
    (dyadic neg (f.nearest neg m e) (f.spacing m e) - dyadic neg m e).abs ≤ (v - dyadic neg m e).abs := by
  obtain ⟨neg', k, p, pattern, rfl⟩ := fin_of_exactValue value
  obtain ⟨digits, least⟩ := Fmt.val_eq_fin pattern
  rw [abs_dyadic_sub neg neg, abs_dyadic_sub neg neg', if_pos rfl, Rat.intCast_natCast]
  refine f.nearest_le_dist neg h e ?_ least
  split <;> omega

/-- The sum of two finite values is the rounded exact sum, or a zero where that is zero. -/
theorem fp32_add_fin (n1 : Bool) (m1 : Nat) (e1 : Int) (n2 : Bool) (m2 : Nat) (e2 : Int) :
    fp32.add (.fin n1 m1 e1) (.fin n2 m2 e2) =
      if (addFin n1 m1 e1 n2 m2 e2).2.1 = 0 then ⟨if n1 && n2 then fp32.signBit else 0, 0⟩
      else fp32.round .rne (addFin n1 m1 e1 n2 m2 e2).1 (addFin n1 m1 e1 n2 m2 e2).2.1 (addFin n1 m1 e1 n2 m2 e2).2.2 := rfl

theorem sumRoundsToNearest : SumRoundsToNearest := by
  intro x y p q r v hx hy hr z _ hv
  obtain ⟨n1, m1, e1, rfl, rfl⟩ := fin_of_exactValue hx
  obtain ⟨n2, m2, e2, rfl, rfl⟩ := fin_of_exactValue hy
  rw [← addFin_exact]
  rw [fp32_add_fin] at hr
  split at hr
  next zero =>
    rw [exactValue_fp32_signedZero] at hr
    obtain rfl := Option.some.inj hr
    rw [zero, dyadic_zero, Rat.sub_self, Rat.abs_zero]
    exact Rat.abs_nonneg
  next nonzero =>
    rw [exactValue_fp32_round nonzero hr]
    exact Fmt.nearest_le_dist_val fp32 nonzero _ hv

/-! ### Minima and maxima (R160) -/

theorem minMax_cases (f : Fmt) (mx : Bool) (a b : Nat) :
    ((f.val a).isNan = true → (f.val b).isNan = true → f.minMax mx a b = f.nan) ∧
    ((f.val a).isNan = true → (f.val b).isNan = false → f.minMax mx a b = b) ∧
    ((f.val a).isNan = false → (f.val b).isNan = true → f.minMax mx a b = a) ∧
    ((f.val a).isNan = false → (f.val b).isNan = false → f.minMax mx a b = a ∨ f.minMax mx a b = b) := by
  refine ⟨fun ha hb => ?_, fun ha hb => ?_, fun ha hb => ?_, fun ha hb => ?_⟩
  · simp only [Fmt.minMax, ha, hb]
  · simp only [Fmt.minMax, ha, hb]
  · simp only [Fmt.minMax, ha, hb]
  · simp only [Fmt.minMax, ha, hb]
    split
    next =>
      split
      next => exact .inr rfl
      next => exact .inl rfl
    next =>
      split
      next => exact .inl rfl
      next =>
        split
        next => exact .inr rfl
        next => exact .inl rfl

/-- Of the two zeros −0 is the minimum and +0 the maximum, in either order. -/
theorem minMax_zeros : ∀ f ∈ [fp32, fp16, bf16, fp64], f.minMax false f.signBit 0 = f.signBit ∧
    f.minMax false 0 f.signBit = f.signBit ∧ f.minMax true f.signBit 0 = 0 ∧ f.minMax true 0 f.signBit = 0 := by decide

theorem minMaxReturnsAnOperand : MinMaxReturnsAnOperand := by
  intro f hf mx a b
  obtain ⟨nans, number_b, number_a, numbers⟩ := minMax_cases f mx a b
  exact ⟨nans, number_b, number_a, numbers, minMax_zeros f hf⟩

/-- Settles O9: a sum by the nearest multiple of its spacing, minima and maxima by the cases of the NaNs. -/
theorem sumsRoundToNearestAndMinMaxSelects : Obligations.SumsRoundToNearestAndMinMaxSelects :=
  ⟨sumRoundsToNearest, minMaxReturnsAnOperand⟩

end Sys2Proof.Machine
end
